-- ==== Sys2Proof/Word.lean ====
section
/-! DEFINITION. The machine's words and the index types of its blocks (R6, R7, Table 1-2).
Nothing here computes anything a rule decides. -/

namespace Sys2Proof

/-- A 64-bit word: a CSR, a general register, a Sheaf word. Bit 0 is the least significant (R6). -/
abbrev Word := BitVec 64

/-- One byte; multi-byte values are little-endian (R7). -/
abbrev Byte := BitVec 8

/-- A 2,048-bit vector register (Table 4-4). -/
abbrev VecWord := BitVec 2048

/-- Furrow n of the device, 16 to a Field (Table 1-2). -/
abbrev FurrowId := Fin 64
/-- Field f of the device. -/
abbrev FieldId := Fin 4
/-- Thresher array k, two to a Field. -/
abbrev ArrayId := Fin 8
/-- Optical port p, six to a Field. -/
abbrev PortId := Fin 24
/-- Slice s (R388). -/
abbrev SliceId := Fin 64
/-- Control core c: 16 active and 2 spare. -/
abbrev CoreId := Fin 18
/-- Sheaf index: store f holds 8,192 entries (R33). -/
abbrev EntryId := Fin 32768
/-- Merge group slot (R186). -/
abbrev GroupId := Fin 256
/-- A 14-bit node ID (R285). -/
abbrev NodeId := Fin 16384
/-- Management session place (R403). -/
abbrev SessionId := Fin 4
/-- Power domain: 118 of them (R19). -/
abbrev DomainId := Fin 118
/-- Command queue of a Sower. -/
abbrev QueueId := Fin 4

/-- A finite table: pairs of a key and a value, keys rising. A key that is not listed reads as the
default its one accessor names. -/
abbrev Table (α : Type) := List (Nat × α)

/-- A one-bit word for a truth value. -/
abbrev bit (b : Bool) : Word := if b then 1 else 0

end Sys2Proof
end

