-- ==== Sys2Proof/Syntax.lean ====
section
/-! DEFINITION. The commands of the block: one constructor per row of the operation table, with the operands a sender
supplies, and the records those operands are made of. -/

namespace Sys2Proof

/-- Who makes a register access (R10, R393, R424). -/
inductive Who where
  | supervisor
  | bound (s : SliceId)
  | hmp
  | config
deriving DecidableEq, Repr

/-- Who sends an HMP command: the session, and SEQ of its header, which the response carries (R406). -/
structure Sender where
  session : SessionId
  seq : BitVec 32
deriving DecidableEq, Repr

/-- The place of a sender's session. -/
abbrev Sender.val (c : Sender) : Nat := c.session.val

/-- What the TLS 1.3 handshake of a connection to the management port offers (R403, R404): the psk_dhe_ke mode, the
secp384r1 group, TLS_AES_256_GCM_SHA384; whether it relies on a certificate, 0-RTT data or renegotiation; the PSK identity and
the key of its binder. -/
structure Handshake where
  pskDhe : Bool
  p384 : Bool
  aes256 : Bool
  beyond : Bool
  identity : List (BitVec 8)
  key : BitVec 256
deriving DecidableEq, Repr

/-- The registers of the control-space map (Tables 19-2 to 19-11), each named once; indices are operands. -/
inductive RegName where
  | chpId | chpSerial | chpNodeId | chpBootCnt | chpHeartbeat | chpHbCtl | chpFallow | chpReconCtl
  | chpRasScrub | chpRasScrubStatus | chpRasGlean | chpRasBin | chpRasExclCnt | chpCsrErr | chpCsrErrCnt
  | tltPkgCap | tltEst | tltLimit | tltTherm | tltDroop | tltPmbErrCnt | tltPmbAddr | tltDroopCnt
  | tltSliceCap | tltSliceEst | tltDuty | tltDomCap | clkTime | clkTimeStatus | clkVcore | clkPllStatus
  | clkRstCtl | clkRstSaveBase | clkRstStatus | clkDomStatus | clkAclk | clkCclk | almSeq | almProtHead
  | almEventHead | almReadCtl | almSwCmd | almDropCnt | almProtDropCnt | almTornCnt | almReadData
  | almSwData | secMboxCmd | secMboxArg | secMboxStatus | secLock | secLockCtl | secStatus | secMeas
  | secArb | frwCqBase | frwCqCtl | frwCqHead | frwCqTail | frwSlice | frwExcStatus | frwExcPc | frwExcInfo
  | frwWdog | frwGlnHitCnt | frwGlnMissCnt | frwRasStatus | frwRasCeCnt | frwRasUeCnt | frwGrnCeCnt
  | frwGrnUeCnt | hskCorruptCnt | hskFlushCnt | hskNonfiniteCnt | hskCbMissCnt | frwGlnReg | frwQstCtl
  | frwQstSse | frwQstSsx | frwQstCount | frwQstClip | frwQstHist | fldReeveCmd | fldReeveRsp | fldReeveMsg
  | fldReeveMsgHi | fldReeveStatus | fldThrRedirectCnt | fldWinStatus | fldWinExclCnt | fldSieveStatus
  | fldSieveDeadCnt | fldSieveBadidCnt | fldSmpNanCnt | fldSmpFixCnt | fldSmpTruncCnt | thrCtl | thrTol
  | thrStatus | thrRmapRow | thrRmapCol0 | thrRmapCol1 | thrChkCnt | thrChkTransCnt | thrChkSkipCnt
  | thrSatCnt | thrSsatCnt | thrGleanCnt | thrGleanMisCnt | thrOpsOwn | prtCtl | prtStatus | prtStatusTime
  | prtLaneMap | prtLaneStatus | prtFeedTh | prtSched | prtSchedCtl | prtTime | prtTimeDelay | prtTimeOff
  | prtPvCtl | prtPvStatus | prtFecCorrCnt | prtFecUncorrCnt | prtCrcCnt | prtLinkErrCnt | prtReplayCnt
  | prtRemapCnt | prtRetrainCnt | prtFeedPwr | prtCredit | prtPvCnt | shpCfg | shpLevel | prtPol
  | prtPolCnt | fabTimeout | fabMgWindow | fabRowWin | fabHoLease | fabHoCtl | prtReasmDropCnt
  | fabSttRefusedCnt | fabRefuseInCnt | fabRefuseOutCnt | fabTimeoutCnt | fabLateCnt | fabRetryCnt
  | fabSeqLostCnt | fabNotifyDropCnt | fabMgAbortCnt | fabMgLateCnt | fabMgFilterCnt | fabRowConflictCnt
  | fabRowCoalesceCnt | fabHoStaleCnt | fabHoReclaimCnt | fabHoUnresolvedCnt | fabMirRevertCnt
  | fabRbLostCnt | fabEng | fabEngSlc | fabMgStatus | fabHoldBase | fabHoldCtl | fabHoJnlBase | fabHoJnlCtl
  | fabHoInboxBase | fabHoInboxCtl | fabRoute | fabStt | shfIllegalCnt | shfGeoBase | shfEmbBase
  | shfAdpBase | shfAdpCtl | hskDirBase | hskDirCtl | hskTagBase | shfPart | shfPause | shfRingBase
  | shfRingCtl | shfRingHead | shfRingTail | slcPoolFree | slcPoolWm | slcPoolEvict | slcPoolSkipCnt
  | slcPoolDemoteFailCnt | slcPoolRefusedCnt | slcBindRefusedCnt | slcReconFenceCnt | slcMtrSeq | slcCore
  | slcCtl | slcPorts | slcJob | slcSrKey | slcFrameMin | slcFrameMax | slcFrameHeld | slcDemoteCnt
  | slcDropCnt | slcMtr | slcMtrSnap
deriving DecidableEq, Repr

/-- One register: its name, its block instance and its two indices (R496). -/
structure Csr where
  reg : RegName
  n : Nat := 0
  j : Nat := 0
  l : Nat := 0
deriving DecidableEq, Repr

/-- The operand fields of one slot word (Tables 14-1 and 14-2); the opcode is the command's. -/
structure Slot where
  pred : Fin 8 := 0
  ctr : Option (Fin 32) := none
  x : Fin 64 := 0
  y : Fin 64 := 0
  z : Fin 64 := 0
  w : Fin 64 := 0
  v : Fin 64 := 0
  imm : BitVec 32 := 0
  mod : BitVec 12 := 0
  tgt : Fin 4096 := 0
deriving DecidableEq, Repr

/-- Why a receiver declares a wavelength failed (R306): it lost clock lock; symbol errors among the symbols of 1 ms before
correction; a calibration that cannot keep it within margin (R323). Feed power comes with FEED_MEASURE. -/
inductive WaveFault where
  | lockLost
  | symbolErrors (errors symbols : Nat)
  | margin
deriving DecidableEq, Repr

/-- A wavelength that fails and what fails of it (R306). -/
structure WaveLoss where
  wave : Fin 9
  fault : WaveFault
deriving DecidableEq, Repr

/-- A remap request as it arrives (R305, R306): the lane to move, and which lanes' control channels bring it. -/
structure RemapRequest where
  lane : Fin 8
  heard : List Bool
deriving DecidableEq, Repr

/-- What a port's receive direction has after training (R307): which wavelengths lock, and the partner's HALF_OK. -/
structure TrainedRx where
  locked : List Bool
  peerHalf : Bool
deriving DecidableEq, Repr

/-- What a port's receiver takes in (R305, R310): a codeword as its logical lanes bring it, each with its skew in ns and its
symbols, or a flit as the decoder passes it upward (log entry 39). -/
inductive Received where
  | flit (bytes : List Byte)
  | codeword (lanes : List (Nat × List (BitVec 10)))
deriving DecidableEq, Repr

/-- A request message (Table 11-3) with its payload, the port it came by (none inside the device) and its arrival
time stamp. `reserved` says that a reserved header bit was set; `plen` is the PLEN field as sent. `len` is the number of
bytes a load, copy read or atomic concerns, which Table 11-3 gives no field, and `poison` the mark of R436 that its
data carries (log entry 13). -/
structure Req where
  op : Nat
  subop : Nat := 0
  cls : Nat := 0
  resync : Bool := false
  ord : Bool := false
  reserved : Bool := false
  src : Nat := 0
  tag : Nat := 0
  plen : Nat := 0
  addr : Word := 0
  job : Nat := 0
  seq : Nat := 0
  payload : List Byte := []
  len : Nat := 0
  poison : Bool := false
  port : Option PortId := none
  stamp : Nat := 0
deriving DecidableEq, Repr

/-- A response message (Table 11-4) with its payload, its arrival port and its arrival time stamp. -/
structure Rsp where
  op : Nat
  status : Nat := 0
  poison : Bool := false
  src : Nat := 0
  tag : Nat := 0
  plen : Nat := 0
  arg0 : Nat := 0
  arg1 : Nat := 0
  cause : Nat := 0
  empty : Bool := false
  underrun : Bool := false
  used : Nat := 0
  cls : Nat := 0
  payload : List Byte := []
  port : Option PortId := none
  stamp : Nat := 0
deriving DecidableEq, Repr

/-- A unit the Reeves and Headland name (R401): class 0 to 5 and index. -/
inductive UnitId where
  | furrow (n : FurrowId)
  | thresher (k : ArrayId)
  | port (p : PortId)
  | core (c : CoreId)
  | sievePair (i : Fin 2)
  | winnowPair (i : Fin 2)
deriving DecidableEq, Repr

/-- Why the device enters Fallow mode (R413). -/
inductive FallowCause where
  | heartbeat
  | machineChecks
  | command
deriving DecidableEq, Repr

/-- What a read of an SRAM structure finds (Table 17-1, Table 17-2). -/
inductive EccOutcome where
  | clean
  | corrected
  | uncorrectable
deriving DecidableEq, Repr

/-- A line of an SRAM structure (Table 17-2). -/
inductive SramLine where
  | hull (f : FurrowId) (line : Nat)
  | operand (k : ArrayId) (line : Nat)
  | glean (f : FurrowId) (addr : Nat)
  | instruction (f : FurrowId) (bundle : Fin 4096)
  | registers (f : FurrowId)
  | sheaf (e : EntryId) (word : Fin 32)
  | coreCache (c : CoreId) (line : Nat)
  | sharedCache (line : Nat)
deriving DecidableEq, Repr

/-- A load or a store of a control core: the core, the physical address of Table 15-5, its bytes, and what a store writes. -/
structure CoreAccess where
  core : CoreId
  addr : Nat
  size : Nat
  data : Option Word
deriving DecidableEq, Repr

/-- The size in bytes of a core's access, and the data of a store (none: a load). -/
structure CoreData where
  size : Nat
  data : Option Word
deriving DecidableEq, Repr

/-- A product that an array forms wrong (R115, R130): streaming row, index k, column n, and the product it delivers, a
two's-complement integer or an FP32 code in the low half. -/
structure LaneFault where
  row : Nat
  k : Nat
  col : Nat
  product : BitVec 64
deriving DecidableEq, Repr

/-- A cell of the stationary operand that holds a wrong code after a load (R129): index k, column n, the code. -/
structure CellFault where
  k : Nat
  col : Nat
  code : Nat
deriving DecidableEq, Repr

/-- What a spare column under the gleaning test delivers in place of its column's output (R446): streaming row, place among
the free spares, and the output. -/
structure SpareFault where
  row : Nat
  spare : Nat
  output : Int
deriving DecidableEq, Repr

/-- The faults an array's circuits have while it runs a tile, in the first pass and in the repetition that a comparison which
fails leads to (R129 to R131, R446). Whether a comparison fails is the array's own finding. -/
structure TileFaults where
  rows : List LaneFault := []
  rowsAgain : List LaneFault := []
  load : List CellFault := []
  loadAgain : List CellFault := []
  glean : List SpareFault := []
  gleanAgain : List SpareFault := []
deriving DecidableEq, Repr

/-- The commands of the operation table, one constructor per row, in the table's order. -/
inductive Instr where
  /-- REGISTER_WRITE (R10). -/
  | registerWrite (who : Who) (r : Csr) (v : Word)
  /-- RC_REGISTER_READ (R10). -/
  | rcRegisterRead (who : Who) (r : Csr)
  /-- RESERVED_OFFSET_ACCESS (R491). -/
  | reservedOffsetAccess (core : CoreId) (addr : Nat) (what : CoreData)
  /-- REEVE_MSG_READ (R490). -/
  | reeveMsgRead (who : Who) (f : FieldId) (high : Bool)
  /-- SEC_MEAS_READ (R490). -/
  | secMeasRead (who : Who) (m : Fin 8) (w : Fin 6)
  /-- CHP_NODE_ID_WRITE (R497). -/
  | chpNodeIdWrite (who : Who) (v : Word)
  /-- SHF_PART_WRITE (R44). -/
  | shfPartWrite (who : Who) (sl : SliceId) (v : Word)
  /-- SHF_RING_CONFIG_WRITE (R43). -/
  | shfRingConfigWrite (who : Who) (sl : SliceId) (base : Bool) (v : Word)
  /-- SHF_RING_HEAD_WRITE (R43). -/
  | shfRingHeadWrite (who : Who) (sl : SliceId) (v : Word)
  /-- SHF_ADMIT (R45). -/
  | shfAdmit (f : FurrowId) (o : Slot)
  /-- SHF_LOOKUP (R34). -/
  | shfLookup (f : FurrowId) (o : Slot)
  /-- SHF_RD (R383). -/
  | shfRd (f : FurrowId) (o : Slot)
  /-- SHF_WRITE (R384). -/
  | shfWrite (f : FurrowId) (o : Slot)
  /-- SHF_SETSTATE (R42). -/
  | shfSetstate (f : FurrowId) (o : Slot)
  /-- SHF_FREE (R42). -/
  | shfFree (f : FurrowId) (o : Slot)
  /-- SHF_BATCH (R50). -/
  | shfBatch (f : FurrowId) (o : Slot)
  /-- SHF_COMMIT (R53). -/
  | shfCommit (f : FurrowId) (o : Slot)
  /-- PT_INIT (R515). -/
  | ptInit (f : FurrowId) (o : Slot)
  /-- PT_LAYER (R71). -/
  | ptLayer (f : FurrowId) (o : Slot)
  /-- PT_APPEND (R72). -/
  | ptAppend (f : FurrowId) (o : Slot)
  /-- PT_SET (R78). -/
  | ptSet (f : FurrowId) (o : Slot)
  /-- PT_FREE (R78). -/
  | ptFree (f : FurrowId) (o : Slot)
  /-- PT_GET (R81). -/
  | ptGet (f : FurrowId) (o : Slot)
  /-- PT_TAIL (R83). -/
  | ptTail (f : FurrowId) (o : Slot)
  /-- PT_VCOMMIT (R86). -/
  | ptVcommit (f : FurrowId) (o : Slot)
  /-- PT_GEOSET (R67). -/
  | ptGeoset (f : FurrowId) (o : Slot)
  /-- DEFERRED_EDIT_APPLY (R78). -/
  | deferredEditApply (f : FieldId) (id : Nat)
  /-- WALK_LATCH (R73). -/
  | walkLatch (id : Nat)
  /-- WALK_FRAME_RELEASE (R74). -/
  | walkFrameRelease (id : Nat) (frame : Nat)
  /-- COMMAND_TAKE (R88). -/
  | commandTake (f : FurrowId)
  /-- DESCRIPTOR_PREFETCH (R92). -/
  | descriptorPrefetch (f : FurrowId)
  /-- FRW_CQ_TAIL_WRITE (R94). -/
  | frwCqTailWrite (who : Who) (f : FurrowId) (q : QueueId) (v : Word)
  /-- FRW_CQ_ABORT (R107). -/
  | frwCqAbort (who : Who) (f : FurrowId) (q : QueueId)
  /-- FRW_CQ_RESTART (R94). -/
  | frwCqRestart (who : Who) (f : FurrowId) (q : QueueId)
  /-- BUNDLE_FETCH (R368). -/
  | bundleFetch (f : FurrowId)
  /-- BUNDLE_ISSUE (R97). -/
  | bundleIssue (f : FurrowId)
  /-- EXCEPTION_COMPLETE (R108). -/
  | exceptionComplete (f : FurrowId)
  /-- WATCHDOG_EXPIRY (R107). -/
  | watchdogExpiry (f : FurrowId)
  /-- PROGRAM_COMPLETE (R93). -/
  | programComplete (f : FurrowId)
  /-- B (R376). -/
  | b (f : FurrowId) (o : Slot)
  /-- BEQ (R376). -/
  | beq (f : FurrowId) (o : Slot)
  /-- BNE (R376). -/
  | bne (f : FurrowId) (o : Slot)
  /-- BLT (R376). -/
  | blt (f : FurrowId) (o : Slot)
  /-- BGE (R376). -/
  | bge (f : FurrowId) (o : Slot)
  /-- BLTU (R376). -/
  | bltu (f : FurrowId) (o : Slot)
  /-- BGEU (R376). -/
  | bgeu (f : FurrowId) (o : Slot)
  /-- BR (R376). -/
  | br (f : FurrowId) (o : Slot)
  /-- END (R93). -/
  | end_ (f : FurrowId) (o : Slot)
  /-- END_CANCEL (R93). -/
  | endCancel (f : FurrowId) (o : Slot)
  /-- ADD (R376). -/
  | add (f : FurrowId) (o : Slot)
  /-- SUB (R376). -/
  | sub (f : FurrowId) (o : Slot)
  /-- AND (R376). -/
  | and_ (f : FurrowId) (o : Slot)
  /-- OR (R376). -/
  | or_ (f : FurrowId) (o : Slot)
  /-- XOR (R376). -/
  | xor (f : FurrowId) (o : Slot)
  /-- SLL (R376). -/
  | sll (f : FurrowId) (o : Slot)
  /-- SRL (R376). -/
  | srl (f : FurrowId) (o : Slot)
  /-- SRA (R376). -/
  | sra (f : FurrowId) (o : Slot)
  /-- ADDI (R376). -/
  | addi (f : FurrowId) (o : Slot)
  /-- SUBI (R376). -/
  | subi (f : FurrowId) (o : Slot)
  /-- ANDI (R376). -/
  | andi (f : FurrowId) (o : Slot)
  /-- ORI (R376). -/
  | ori (f : FurrowId) (o : Slot)
  /-- XORI (R376). -/
  | xori (f : FurrowId) (o : Slot)
  /-- SLLI (R376). -/
  | slli (f : FurrowId) (o : Slot)
  /-- SRLI (R376). -/
  | srli (f : FurrowId) (o : Slot)
  /-- SRAI (R376). -/
  | srai (f : FurrowId) (o : Slot)
  /-- MOVI (R376). -/
  | movi (f : FurrowId) (o : Slot)
  /-- MOVHI (R376). -/
  | movhi (f : FurrowId) (o : Slot)
  /-- SEQ (R376). -/
  | seq (f : FurrowId) (o : Slot)
  /-- SNE (R376). -/
  | sne (f : FurrowId) (o : Slot)
  /-- SLT (R376). -/
  | slt (f : FurrowId) (o : Slot)
  /-- SLTU (R376). -/
  | sltu (f : FurrowId) (o : Slot)
  /-- SEQI (R376). -/
  | seqi (f : FurrowId) (o : Slot)
  /-- SLTI (R376). -/
  | slti (f : FurrowId) (o : Slot)
  /-- SLTUI (R376). -/
  | sltui (f : FurrowId) (o : Slot)
  /-- PAND (R376). -/
  | pand (f : FurrowId) (o : Slot)
  /-- POR (R376). -/
  | por (f : FurrowId) (o : Slot)
  /-- PNOT (R376). -/
  | pnot (f : FurrowId) (o : Slot)
  /-- MUL (R376). -/
  | mul (f : FurrowId) (o : Slot)
  /-- MULHU (R376). -/
  | mulhu (f : FurrowId) (o : Slot)
  /-- MOVGH (R376). -/
  | movgh (f : FurrowId) (o : Slot)
  /-- MOVHG (R376). -/
  | movhg (f : FurrowId) (o : Slot)
  /-- VLD (R377). -/
  | vld (f : FurrowId) (o : Slot)
  /-- VST (R377). -/
  | vst (f : FurrowId) (o : Slot)
  /-- VBCAST (R377). -/
  | vbcast (f : FurrowId) (o : Slot)
  /-- VEXT (R377). -/
  | vext (f : FurrowId) (o : Slot)
  /-- VADD (R377). -/
  | vadd (f : FurrowId) (o : Slot)
  /-- VSUB (R377). -/
  | vsub (f : FurrowId) (o : Slot)
  /-- VMUL (R377). -/
  | vmul (f : FurrowId) (o : Slot)
  /-- VFMA (R377). -/
  | vfma (f : FurrowId) (o : Slot)
  /-- VMAX (R377). -/
  | vmax (f : FurrowId) (o : Slot)
  /-- VMIN (R377). -/
  | vmin (f : FurrowId) (o : Slot)
  /-- VEXP (R377). -/
  | vexp (f : FurrowId) (o : Slot)
  /-- VRSUM (R377). -/
  | vrsum (f : FurrowId) (o : Slot)
  /-- VAND (R377). -/
  | vand (f : FurrowId) (o : Slot)
  /-- VOR (R377). -/
  | vor (f : FurrowId) (o : Slot)
  /-- VXOR (R377). -/
  | vxor (f : FurrowId) (o : Slot)
  /-- CVT_Q (R155). -/
  | cvtQ (f : FurrowId) (o : Slot)
  /-- CVT_DQ (R155). -/
  | cvtDq (f : FurrowId) (o : Slot)
  /-- CVT_F (R155). -/
  | cvtF (f : FurrowId) (o : Slot)
  /-- MOV_GH (R378). -/
  | movGh (f : FurrowId) (o : Slot)
  /-- MOV_HG (R378). -/
  | movHg (f : FurrowId) (o : Slot)
  /-- MOV_HH (R378). -/
  | movHh (f : FurrowId) (o : Slot)
  /-- MOV_GG (R378). -/
  | movGg (f : FurrowId) (o : Slot)
  /-- GLN_FILL (R243). -/
  | glnFill (f : FurrowId) (o : Slot)
  /-- GLN_INVAL (R244). -/
  | glnInval (f : FurrowId) (o : Slot)
  /-- CVT_BLK (R155). -/
  | cvtBlk (f : FurrowId) (o : Slot)
  /-- EMB_GATHER (R249). -/
  | embGather (f : FurrowId) (o : Slot)
  /-- ADP_LD (R257). -/
  | adpLd (f : FurrowId) (o : Slot)
  /-- MOVE_COMPLETE (R102). -/
  | moveComplete (f : FurrowId) (id : Nat)
  /-- FAB_LD (R279). -/
  | fabLd (f : FurrowId) (o : Slot)
  /-- FAB_ST (R279). -/
  | fabSt (f : FurrowId) (o : Slot)
  /-- FAB_PUT (R380). -/
  | fabPut (f : FurrowId) (o : Slot)
  /-- FAB_ATOM (R280). -/
  | fabAtom (f : FurrowId) (o : Slot)
  /-- FAB_COPY (R281). -/
  | fabCopy (f : FurrowId) (o : Slot)
  /-- FAB_PULL (R282). -/
  | fabPull (f : FurrowId) (o : Slot)
  /-- FAB_QSHIP (R183). -/
  | fabQship (f : FurrowId) (o : Slot)
  /-- FAB_NOTIFY (R284). -/
  | fabNotify (f : FurrowId) (o : Slot)
  /-- FAB_WSTREAM (R239). -/
  | fabWstream (f : FurrowId) (o : Slot)
  /-- ROW_ST (R258). -/
  | rowSt (f : FurrowId) (o : Slot)
  /-- ROW_ADD (R258). -/
  | rowAdd (f : FurrowId) (o : Slot)
  /-- ROW_FLUSH (R260). -/
  | rowFlush (f : FurrowId) (o : Slot)
  /-- MIR_PUSH (R352). -/
  | mirPush (f : FurrowId) (o : Slot)
  /-- MIR_DROP (R355). -/
  | mirDrop (f : FurrowId) (o : Slot)
  /-- RB_START (R357). -/
  | rbStart (f : FurrowId) (o : Slot)
  /-- ENG_FENCE (R360). -/
  | engFence (f : FurrowId) (o : Slot)
  /-- HSK_ENC (R210). -/
  | hskEnc (f : FurrowId) (o : Slot)
  /-- HSK_ENC_BLK (R211). -/
  | hskEncBlk (f : FurrowId) (o : Slot)
  /-- HSK_DEC (R381). -/
  | hskDec (f : FurrowId) (o : Slot)
  /-- HUSK_OP_COMPLETE (R210). -/
  | huskOpComplete (f : FurrowId) (id : Nat)
  /-- WIN_TOPK (R214). -/
  | winTopk (f : FurrowId) (o : Slot)
  /-- WIN_MERGE (R219). -/
  | winMerge (f : FurrowId) (o : Slot)
  /-- WINNOW_OP_START (R213). -/
  | winnowOpStart (f : FieldId)
  /-- WINNOW_QUANTUM_END (R213). -/
  | winnowQuantumEnd (f : FieldId)
  /-- WINNOW_OP_COMPLETE (R217). -/
  | winnowOpComplete (f : FieldId) (cycles : Nat)
  /-- SIEVE_MASK (R265). -/
  | sieveMask (f : FurrowId) (o : Slot)
  /-- SMP_DRAW (R270). -/
  | smpDraw (f : FurrowId) (o : Slot)
  /-- SIEVE_OP_START (R272). -/
  | sieveOpStart (f : FieldId)
  /-- SIEVE_OP_COMPLETE (R270). -/
  | sieveOpComplete (f : FieldId) (cycles : Nat)
  /-- TILE_MM (R116). -/
  | tileMm (f : FurrowId) (o : Slot)
  /-- TILE_MM_ACC (R116). -/
  | tileMmAcc (f : FurrowId) (o : Slot)
  /-- ATTN_PART (R165). -/
  | attnPart (f : FurrowId) (o : Slot)
  /-- ATTN_MERGE (R176). -/
  | attnMerge (f : FurrowId) (o : Slot)
  /-- TILE_START (R124). -/
  | tileStart (k : ArrayId) (faults : TileFaults)
  /-- TILE_COMPLETE (R127). -/
  | tileComplete (k : ArrayId) (faults : TileFaults) (cycles : Nat)
  /-- ATTN_PART_COMPLETE (R167). -/
  | attnPartComplete (f : FurrowId) (id : Nat)
  /-- ATTN_MERGE_COMPLETE (R178). -/
  | attnMergeComplete (f : FurrowId) (id : Nat)
  /-- FENCED_TILE_REQUEUE (R137). -/
  | fencedTileRequeue (k : ArrayId)
  /-- WAIT (R104). -/
  | wait (f : FurrowId) (o : Slot)
  /-- FENCE (R104). -/
  | fence (f : FurrowId) (o : Slot)
  /-- ACNT_SET (R102). -/
  | acntSet (f : FurrowId) (o : Slot)
  /-- ACNT_STAT (R106). -/
  | acntStat (f : FurrowId) (o : Slot)
  /-- RA_CANCEL (R112). -/
  | raCancel (f : FurrowId) (o : Slot)
  /-- MTR_RD (R395). -/
  | mtrRd (f : FurrowId) (o : Slot)
  /-- QST_RD (R156). -/
  | qstRd (f : FurrowId) (o : Slot)
  /-- QST_CLR (R156). -/
  | qstClr (f : FurrowId) (o : Slot)
  /-- FRW_QST_CLR_WRITE (R158). -/
  | frwQstClrWrite (who : Who) (f : FurrowId) (j : Fin 4) (v : Word)
  /-- FRM_ALLOC (R228). -/
  | frmAlloc (f : FurrowId) (o : Slot)
  /-- FRM_FREE (R229). -/
  | frmFree (f : FurrowId) (o : Slot)
  /-- FRAME_ZERO_COMPLETE (R444). -/
  | frameZeroComplete (frame : Nat) (badRow : Bool)
  /-- MG_OPEN (R186). -/
  | mgOpen (f : FurrowId) (o : Slot)
  /-- MG_CLOSE (R186). -/
  | mgClose (f : FurrowId) (o : Slot)
  /-- MG_STAT (R186). -/
  | mgStat (f : FurrowId) (o : Slot)
  /-- CB_LOAD (R202). -/
  | cbLoad (f : FurrowId) (o : Slot)
  /-- CB_RETIRE (R204). -/
  | cbRetire (f : FurrowId) (o : Slot)
  /-- CB_STAT (R206). -/
  | cbStat (f : FurrowId) (o : Slot)
  /-- EMB_PUBLISH (R248). -/
  | embPublish (f : FurrowId) (o : Slot)
  /-- ADP_PUBLISH (R254). -/
  | adpPublish (f : FurrowId) (o : Slot)
  /-- ADP_RETIRE (R254). -/
  | adpRetire (f : FurrowId) (o : Slot)
  /-- HO_OFFER (R341). -/
  | hoOffer (f : FurrowId) (o : Slot)
  /-- HO_ACCEPT (R343). -/
  | hoAccept (f : FurrowId) (o : Slot)
  /-- HO_REFUSE (R343). -/
  | hoRefuse (f : FurrowId) (o : Slot)
  /-- HO_CONFIRM (R350). -/
  | hoConfirm (f : FurrowId) (o : Slot)
  /-- HO_LOSE (R356). -/
  | hoLose (f : FurrowId) (o : Slot)
  /-- HO_ADOPT (R359). -/
  | hoAdopt (f : FurrowId) (o : Slot)
  /-- ADOPT_LOOKUP_COMPLETE (R359). -/
  | adoptLookupComplete (id : Nat)
  /-- HO_STAT (R383). -/
  | hoStat (f : FurrowId) (o : Slot)
  /-- LD_REQUEST (R279). -/
  | ldRequest (m : Req)
  /-- ST_REQUEST (R291). -/
  | stRequest (m : Req)
  /-- ATOM_ADD (R280). -/
  | atomAdd (m : Req)
  /-- ATOM_SMIN (R280). -/
  | atomSmin (m : Req)
  /-- ATOM_SMAX (R280). -/
  | atomSmax (m : Req)
  /-- ATOM_UMIN (R280). -/
  | atomUmin (m : Req)
  /-- ATOM_UMAX (R280). -/
  | atomUmax (m : Req)
  /-- ATOM_SWAP (R280). -/
  | atomSwap (m : Req)
  /-- ATOM_CAS (R280). -/
  | atomCas (m : Req)
  /-- ATOM_FADD_FP32 (R280). -/
  | atomFaddFp32 (m : Req)
  /-- ATOM_FADD_BF16 (R280). -/
  | atomFaddBf16 (m : Req)
  /-- COPY_RD (R281). -/
  | copyRd (m : Req)
  /-- COPY_WR (R281). -/
  | copyWr (m : Req)
  /-- PULL (R282). -/
  | pull (m : Req)
  /-- QSHIP (R184). -/
  | qship (m : Req)
  /-- QSHIP_SERVICE_COMPLETE (R184). -/
  | qshipServiceComplete (f : FurrowId) (id : Nat)
  /-- NOTIFY_COUNTER (R284). -/
  | notifyCounter (m : Req)
  /-- NOTIFY_SLOT_RELEASE (R284). -/
  | notifySlotRelease (m : Req)
  /-- ROW_UPDATE (R261). -/
  | rowUpdate (m : Req)
  /-- PAGE_WR (R352). -/
  | pageWr (m : Req)
  /-- ABORT (R189). -/
  | abort (m : Req)
  /-- LD_RESPONSE (R299). -/
  | ldResponse (m : Rsp)
  /-- WRITE_ACK (R291). -/
  | writeAck (m : Rsp)
  /-- ATOM_RESPONSE (R280). -/
  | atomResponse (m : Rsp)
  /-- COPY_RD_RESPONSE (R281). -/
  | copyRdResponse (m : Rsp)
  /-- PAGE_RESPONSE (R282). -/
  | pageResponse (m : Rsp)
  /-- PAGE_WR_ACK (R352). -/
  | pageWrAck (m : Rsp)
  /-- PARITY_DELTA_RESOLVE (R353). -/
  | parityDeltaResolve (id : Nat)
  /-- QSHIP_ANSWER (R185). -/
  | qshipAnswer (m : Rsp)
  /-- MG_WINDOW_EXPIRY (R188). -/
  | mgWindowExpiry (g : GroupId)
  /-- SERVICE_DEADLINE_EXPIRY (R189). -/
  | serviceDeadlineExpiry (id : Nat)
  /-- ABORT_FILTER_EXPIRY (R189). -/
  | abortFilterExpiry (group : BitVec 32)
  /-- ABORT_RESEND (R190). -/
  | abortResend (id : Nat)
  /-- EPOCH_SET_ANSWER (R347). -/
  | epochSetAnswer (m : Rsp)
  /-- LOOKUP_ANSWER (R354). -/
  | lookupAnswer (m : Rsp)
  /-- FAB_OP_TIMEOUT (R297). -/
  | fabOpTimeout (id : Nat)
  /-- FAB_RETRY_RESEND (R292). -/
  | fabRetryResend (id : Nat)
  /-- SEQ_HOLE_TIMEOUT (R293). -/
  | seqHoleTimeout (src : NodeId) (slice : SliceId) (cls : Fin 8)
  /-- FAB_STT_WORD0_WRITE (R287). -/
  | fabSttWord0Write (who : Who) (sl : SliceId) (e : Fin 1024) (v : Word)
  /-- FAB_TIMEOUT_WRITE (R297). -/
  | fabTimeoutWrite (who : Who) (v : Word)
  /-- FAB_HO_LEASE_WRITE (R29). -/
  | fabHoLeaseWrite (who : Who) (v : Word)
  /-- OFFER (R342). -/
  | offer (m : Req)
  /-- ACCEPT (R344). -/
  | accept (m : Req)
  /-- REFUSE (R344). -/
  | refuse (m : Req)
  /-- COMMIT (R345). -/
  | commit (m : Req)
  /-- ACK (R346). -/
  | ack (m : Req)
  /-- CONFIRM (R347). -/
  | confirm (m : Req)
  /-- STEPPED (R348). -/
  | stepped (m : Req)
  /-- RELEASED (R347). -/
  | released (m : Req)
  /-- RECLAIM (R349). -/
  | reclaim (m : Req)
  /-- RECLAIM_ACK (R349). -/
  | reclaimAck (m : Req)
  /-- EPOCH_SET (R337). -/
  | epochSet (m : Req)
  /-- COVER (R352). -/
  | cover (m : Req)
  /-- DROP (R355). -/
  | drop (m : Req)
  /-- LOOKUP (R354). -/
  | lookup (m : Req)
  /-- LOSS (R356). -/
  | loss (m : Req)
  /-- PAGE_OPEN (R335). -/
  | pageOpen (m : Req)
  /-- HOLDER_FENCE (R357). -/
  | holderFence (m : Req)
  /-- HO_RESEND (R339). -/
  | hoResend (id : Nat)
  /-- HO_RESEND_END (R339). -/
  | hoResendEnd (id : Nat)
  /-- OFFER_DEADLINE (R344). -/
  | offerDeadline (sl : SliceId) (j : Nat)
  /-- LEASE_EXPIRY (R349). -/
  | leaseExpiry (sl : SliceId) (j : Nat)
  /-- ACCEPT_WINDOW_EXPIRY (R345). -/
  | acceptWindowExpiry (sl : SliceId) (j : Nat)
  /-- RECEIVER_UNRESOLVED (R350). -/
  | receiverUnresolved (sl : SliceId) (j : Nat)
  /-- JOURNAL_RETAIN_EXPIRY (R348). -/
  | journalRetainExpiry (sl : SliceId) (j : Nat)
  /-- HOLD_EXPIRY (R355). -/
  | holdExpiry (sl : SliceId) (h : Nat)
  /-- REBUILD_PAGE (R357). -/
  | rebuildPage (id : Nat)
  /-- REBUILD_END (R357). -/
  | rebuildEnd (id : Nat)
  /-- ENGINE_FENCE_ANSWER (R360). -/
  | engineFenceAnswer (p : PortId)
  /-- WSTREAM_LAYER_START (R240). -/
  | wstreamLayerStart (f : FurrowId) (k : Fin 4)
  /-- WSTREAM_END (R240). -/
  | wstreamEnd (f : FurrowId) (k : Fin 4)
  /-- AGEING_TICK (R233). -/
  | ageingTick
  /-- EVICTION_PASS (R234). -/
  | evictionPass
  /-- DEMOTION_COMMIT (R236). -/
  | demotionCommit (frame : Nat)
  /-- SLC_FRAME_MIN_WRITE (R232). -/
  | slcFrameMinWrite (who : Who) (sl : SliceId) (v : Word)
  /-- GLEAN_REFRESH (R243). -/
  | gleanRefresh (f : FurrowId) (j : Fin 16)
  /-- FRW_GLN_REG_WRITE (R243). -/
  | frwGlnRegWrite (who : Who) (f : FurrowId) (j : Fin 16) (v : Word)
  /-- WAVELENGTH_FAIL (R306). -/
  | wavelengthFail (p : PortId) (w : WaveLoss)
  /-- LANE_REMAP_REQUEST (R306). -/
  | laneRemapRequest (p : PortId) (r : RemapRequest)
  /-- FLIT_RECEIVE (R316). -/
  | flitReceive (p : PortId) (what : Received)
  /-- REASSEMBLY_TIMEOUT (R312). -/
  | reassemblyTimeout (f : FieldId) (id : Nat)
  /-- CTRL_INIT (R320). -/
  | ctrlInit (p : PortId) (payload : List Byte)
  /-- CTRL_ACK (R316). -/
  | ctrlAck (p : PortId) (payload : List Byte)
  /-- CTRL_NAK (R316). -/
  | ctrlNak (p : PortId) (payload : List Byte)
  /-- CTRL_CREDIT (R315). -/
  | ctrlCredit (p : PortId) (payload : List Byte)
  /-- BEACON (R326). -/
  | beacon (p : PortId) (payload : List Byte)
  /-- BEACON_REPLY (R326). -/
  | beaconReply (p : PortId) (payload : List Byte)
  /-- BEACON_TIMER (R326). -/
  | beaconTimer (p : PortId)
  /-- ACK_TIMER (R316). -/
  | ackTimer (p : PortId)
  /-- NAK_RESEND (R316). -/
  | nakResend (p : PortId)
  /-- EGRESS_SCHEDULE (R328). -/
  | egressSchedule (p : PortId)
  /-- PORT_ENABLE (R319). -/
  | portEnable (p : PortId)
  /-- PORT_DISABLE (R319). -/
  | portDisable (p : PortId)
  /-- PORT_RETRAIN (R319). -/
  | portRetrain (p : PortId)
  /-- FEED_CHECK_COMPLETE (R319). -/
  | feedCheckComplete (p : PortId) (power : List Nat)
  /-- PHY_TRAIN_COMPLETE (R319). -/
  | phyTrainComplete (p : PortId) (tx : List Bool) (rx : TrainedRx)
  /-- ALIGN_COMPLETE (R319). -/
  | alignComplete (p : PortId) (ok : Bool)
  /-- INIT_SEND_TIMER (R319). -/
  | initSendTimer (p : PortId)
  /-- TRAINING_TIMEOUT (R319). -/
  | trainingTimeout (p : PortId)
  /-- QUARANTINE_END (R319). -/
  | quarantineEnd (p : PortId)
  /-- FAILED_AUTO_RETRY (R319). -/
  | failedAutoRetry (p : PortId)
  /-- RING_TUNING (R323). -/
  | ringTuning (p : PortId)
  /-- FEED_MEASURE (R325). -/
  | feedMeasure (p : PortId) (power : List Nat)
  /-- SHP_CFG_WRITE (R332). -/
  | shpCfgWrite (who : Who) (p : PortId) (sl : SliceId) (v : Word)
  /-- PRT_POL_WRITE (R333). -/
  | prtPolWrite (who : Who) (p : PortId) (sl : SliceId) (v : Word)
  /-- CREATE (R390). -/
  | create (who : Who) (sl : SliceId)
  /-- START (R390). -/
  | start (who : Who) (sl : SliceId)
  /-- DRAIN (R390). -/
  | drain (who : Who) (sl : SliceId)
  /-- RESUME (R390). -/
  | resume (who : Who) (sl : SliceId)
  /-- TEARDOWN (R394). -/
  | teardown (who : Who) (sl : SliceId)
  /-- TEARDOWN_COMPLETE (R394). -/
  | teardownComplete (sl : SliceId)
  /-- FRW_SLICE_WRITE (R391). -/
  | frwSliceWrite (who : Who) (f : FurrowId) (v : Word)
  /-- SLC_CORE_WRITE (R391). -/
  | slcCoreWrite (who : Who) (c : CoreId) (v : Word)
  /-- METER_SNAPSHOT (R396). -/
  | meterSnapshot
  /-- REEVE_STATUS (R401). -/
  | reeveStatus (who : Who) (f : FieldId) (u : UnitId)
  /-- REEVE_POWER_ON (R469). -/
  | reevePowerOn (who : Who) (f : FieldId) (u : UnitId)
  /-- REEVE_POWER_OFF (R469). -/
  | reevePowerOff (who : Who) (f : FieldId) (u : UnitId)
  /-- REEVE_FENCE (R401). -/
  | reeveFence (who : Who) (f : FieldId) (u : UnitId)
  /-- REEVE_UNFENCE (R401). -/
  | reeveUnfence (who : Who) (f : FieldId) (u : UnitId)
  /-- REEVE_SELFTEST (R401). -/
  | reeveSelftest (who : Who) (f : FieldId) (u : UnitId)
  /-- DOMAIN_ON_COMPLETE (R469). -/
  | domainOnComplete (d : DomainId)
  /-- SELFTEST_COMPLETE (R411). -/
  | selftestComplete (u : UnitId) (pass : Bool)
  /-- VIEW_COMPARE (R409). -/
  | viewCompare
  /-- FAIL_POWER_CHECK (R409). -/
  | failPowerCheck (u : UnitId)
  /-- HELLO (R407). -/
  | hello (c : Sender) (body : List Byte)
  /-- CSR_READ (R407). -/
  | csrRead (c : Sender) (body : List Byte)
  /-- CSR_WRITE (R492). -/
  | csrWrite (c : Sender) (body : List Byte)
  /-- ALMANAC_READ (R464). -/
  | almanacRead (c : Sender) (body : List Byte)
  /-- UNIT_STATUS (R407). -/
  | unitStatus (c : Sender) (body : List Byte)
  /-- UNIT_SET (R410). -/
  | unitSet (c : Sender) (body : List Byte)
  /-- UNIT_RECONCILE (R411). -/
  | unitReconcile (c : Sender) (body : List Byte)
  /-- METER_READ (R397). -/
  | meterRead (c : Sender) (body : List Byte)
  /-- JOURNAL_READ (R350). -/
  | journalRead (c : Sender) (body : List Byte)
  /-- POWER_CAP (R475). -/
  | powerCap (c : Sender) (body : List Byte)
  /-- SESSION_CFG (R407). -/
  | sessionCfg (c : Sender) (body : List Byte)
  /-- SESSION_OPEN (R404): a connection to a TCP port and its handshake. -/
  | sessionOpen (port : Nat) (h : Handshake)
  /-- PTP_MESSAGE (R405). -/
  | ptpMessage (offset : Option Int)
  /-- HEARTBEAT (R412). -/
  | heartbeat (who : Who) (v : Word)
  /-- HEARTBEAT_HALF_LAPSE (R412). -/
  | heartbeatHalfLapse
  /-- HEARTBEAT_EXPIRY (R413). -/
  | heartbeatExpiry
  /-- FALLOW_ENTER (R413). -/
  | fallowEnter (cause : FallowCause)
  /-- FALLOW_EXIT (R415). -/
  | fallowExit (who : Who)
  /-- CORE_MACHINE_CHECK (R434). -/
  | coreMachineCheck (c : CoreId) (cause : Word)
  /-- VERIFY_OS (R428). -/
  | verifyOs (who : Who)
  /-- SOWER_LOAD (R427). -/
  | sowerLoad (who : Who)
  /-- LOCK_CONFIG (R424). -/
  | lockConfig (who : Who)
  /-- QUOTE (R429). -/
  | quote (who : Who)
  /-- MEASURE (R425). -/
  | measure (who : Who)
  /-- LOCK_DEADLINE_EXPIRY (R424). -/
  | lockDeadlineExpiry
  /-- ATTEST (R429). -/
  | attest (c : Sender) (body : List Byte)
  /-- ATTESTATION_REPORT (R430). -/
  | attestationReport
  /-- HSS_TREE_GENERATE (R430). -/
  | hssTreeGenerate
  /-- CHALLENGE (R432). -/
  | challenge (c : Sender) (body : List Byte)
  /-- CHALLENGE_LAPSE (R432). -/
  | challengeLapse (c : SessionId)
  /-- IMAGE_PUT (R432). -/
  | imagePut (c : Sender) (body : List Byte)
  /-- IMAGE_ACTIVATE (R432). -/
  | imageActivate (c : Sender) (body : List Byte)
  /-- ROLLBACK_COMMIT (R421). -/
  | rollbackCommit (c : Sender) (body : List Byte)
  /-- OWNER_KEY_SET (R432). -/
  | ownerKeySet (c : Sender) (body : List Byte)
  /-- MGMT_KEY_SET (R432). -/
  | mgmtKeySet (c : Sender) (body : List Byte)
  /-- ZEROISE (R432). -/
  | zeroise (c : Sender) (body : List Byte)
  /-- PATROL_SCRUB (R440). -/
  | patrolScrub (channel : Fin 1024) (errors : List (Fin 72 × BitVec 8))
  /-- SRAM_SCRUB (R439). -/
  | sramScrub (a : SramLine) (outcome : EccOutcome)
  /-- GRANARY_REFRESH (R442). -/
  | granaryRefresh (channel : Fin 1024) (rank : Fin 4) (bank : Nat)
  /-- ROW_ACTIVATION_THRESHOLD (R442). -/
  | rowActivationThreshold (channel : Fin 1024) (rank : Fin 4) (bank row : Nat)
  /-- ROW_SPARE (R455). -/
  | rowSpare (channel : Fin 1024) (rank : Fin 4) (bank row : Nat)
  /-- CHANNEL_MIGRATION (R455). -/
  | channelMigration (channel : Fin 1024)
  /-- CHANNEL_MIGRATION_SWITCH (R455). -/
  | channelMigrationSwitch (channel : Fin 1024)
  /-- BIN_SAMPLE (R451). -/
  | binSample (f : FieldId) (celsius : Int) (millivolt : Nat)
  /-- EXCLUSION_RELEASE (R451). -/
  | exclusionRelease (u : UnitId)
  /-- TREND_RECORD (R457). -/
  | trendRecord (p : PortId) (feed heater errors : List Nat)
  /-- ECC_CE_SUMMARY (R433). -/
  | eccCeSummary
  /-- ALMANAC_COMMIT (R460). -/
  | almanacCommit
  /-- ALM_READ (R464). -/
  | almRead (who : Who) (v : Word)
  /-- ALM_SW_APPEND (R465). -/
  | almSwAppend (who : Who) (v : Word)
  /-- POWER_LOSS (R461). -/
  | powerLoss
  /-- PMBUS_TRANSACTION (R467): whether the first attempt succeeds, and its at most three retries. -/
  | pmbusTransaction (rail : Fin 8) (first : Bool) (retries : List Bool)
  /-- SMBALERT (R467). -/
  | smbalert (rail : Fin 8) (status : Word)
  /-- TILTH_ESTIMATE (R471). -/
  | tilthEstimate (domains : List Nat) (slices : List Nat)
  /-- TILTH_CALIBRATE (R471). -/
  | tilthCalibrate (milliamp : List Nat)
  /-- TILTH_EVALUATE (R472). -/
  | tilthEvaluate
  /-- VCORE_SETTING_CHANGE (R477). -/
  | vcoreSettingChange
  /-- CCLK_STATE_WRITE (R478). -/
  | cclkStateWrite (who : Who) (c : CoreId) (v : Word)
  /-- DROOP_DETECT (R473). -/
  | droopDetect (f : FieldId)
  /-- THERMAL_SAMPLE (R474). -/
  | thermalSample (celsius : List Int)
  /-- MINIMAL_POWER_ENTRY (R482). -/
  | minimalPowerEntry (cause : Nat)
  /-- COLD_RESET (R481). -/
  | coldReset (cause : Nat)
  /-- POWER_UP_STEP_OVERRUN (R481). -/
  | powerUpStepOverrun (step : Nat)
  /-- WARM_RESET (R484). -/
  | warmReset (cause : Nat)
  /-- CLUSTER_RESET (R415). -/
  | clusterReset (cause : Nat)
  /-- JOURNAL_RESOLVE (R486). -/
  | journalResolve (sl : SliceId) (j : Nat)
  /-- SESSION_CLOSE (R403). -/
  | sessionClose (c : SessionId)
  /-- HMP_BAD_MESSAGE (R407). -/
  | hmpBadMessage (c : Sender) (type version length : Nat)
  /-- RESERVED_OP_REQUEST (R302). -/
  | reservedOpRequest (m : Req)
deriving DecidableEq, Repr

end Sys2Proof
end

