-- ==== Sys2Proof/Machine/Bits.lean ====
section
/-! DEFINITION. Bit fields, byte order and tables: the helpers every rule uses (R6, R7). -/

namespace Sys2Proof

/-- Bits [hi:lo] of a number, as a number (R6). -/
def bits (w : Nat) (hi lo : Nat) : Nat := (w >>> lo) % 2 ^ (hi + 1 - lo)

/-- Bit i of a number. -/
def bitAt (w : Nat) (i : Nat) : Bool := w.testBit i

/-- `w` with bits [hi:lo] replaced by the low bits of `v`. -/
def setBits (w hi lo v : Nat) : Nat :=
  let width := hi + 1 - lo
  w - (bits w hi lo) * 2 ^ lo + (v % 2 ^ width) * 2 ^ lo

/-- Bits [hi:lo] of a 64-bit word, as a number. -/
def fld (w : Word) (hi lo : Nat) : Nat := bits w.toNat hi lo

/-- A 64-bit word with bits [hi:lo] replaced. -/
def setFld (w : Word) (hi lo v : Nat) : Word := BitVec.ofNat 64 (setBits w.toNat hi lo v)

/-- The two's-complement reading of the low `n` bits of a number. -/
def signed (n v : Nat) : Int :=
  let u := v % 2 ^ n
  if u < 2 ^ (n - 1) then (u : Int) else (u : Int) - (2 ^ n : Nat)

/-- The low `n` bits of an integer in two's complement. -/
def unsigned (n : Nat) (i : Int) : Nat := (i % ((2 ^ n : Nat) : Int)).toNat

/-- Division rounding up. -/
def ceilDiv (a b : Nat) : Nat := (a + b - 1) / b

/-- `n` bytes of a number, least significant first (R7). -/
def toBytes : (n : Nat) → Nat → List Byte
  | 0, _ => []
  | n + 1, v => BitVec.ofNat 8 v :: toBytes n (v / 256)

/-- The number that bytes, least significant first, spell (R7). -/
def fromBytes : List Byte → Nat
  | [] => 0
  | b :: bs => b.toNat + 256 * fromBytes bs

/-- The little-endian number in bytes [off, off + n) of a byte string. -/
def leAt (bs : List Byte) (off n : Nat) : Nat := fromBytes ((bs.drop off).take n)

/-- The 64-bit little-endian word at byte `off` of a byte string. -/
def wordAt (bs : List Byte) (off : Nat) : Word := BitVec.ofNat 64 (leAt bs off 8)

/-- A byte string with the bytes from `off` replaced by `new`; it never grows. -/
def patchBytes (bs : List Byte) (off : Nat) (new : List Byte) : List Byte :=
  bs.take off ++ (new.take (bs.length - off)) ++ bs.drop (off + new.length)

/-- `n` copies of one byte. -/
def fillBytes (n : Nat) (b : Byte) : List Byte := List.replicate n b

/-- Split a list into chunks of `n`; `fuel` bounds the number of chunks. -/
def chunksFuel {α : Type} (n : Nat) : (fuel : Nat) → List α → List (List α)
  | 0, _ => []
  | f + 1, xs => if xs.isEmpty then [] else xs.take n :: chunksFuel n f (xs.drop n)

/-- Split a list into chunks of `n`, the last perhaps shorter. -/
def chunks {α : Type} (n : Nat) (xs : List α) : List (List α) := chunksFuel n xs.length xs

/-- Saturating increment of a `w`-bit counter. -/
def satInc (w : Nat) (v by' : Nat) : Nat := min (v + by') (2 ^ w - 1)

namespace Table

/-- The value at key `k`, or `d` where the key is not listed. -/
def get {α : Type} (d : α) : Table α → Nat → α
  | [], _ => d
  | (j, v) :: t, k => if j = k then v else get d t k

/-- Put `v` at key `k`, keeping the keys rising. -/
def set {α : Type} : Table α → Nat → α → Table α
  | [], k, v => [(k, v)]
  | (j, u) :: t, k, v =>
    if j = k then (k, v) :: t else if k < j then (k, v) :: (j, u) :: t else (j, u) :: set t k v

/-- Take key `k` out. -/
def erase {α : Type} (t : Table α) (k : Nat) : Table α := t.filter (fun p => p.1 != k)

/-- Whether key `k` is listed. -/
def has {α : Type} (t : Table α) (k : Nat) : Bool := t.any (fun p => p.1 == k)

/-- The value at key `k`, if listed. -/
def find {α : Type} (t : Table α) (k : Nat) : Option α := (t.find? (fun p => p.1 == k)).map (·.2)

/-- Change the value at key `k`. -/
def upd {α : Type} (d : α) (t : Table α) (k : Nat) (f : α → α) : Table α := set t k (f (get d t k))

end Table

/-- The least number below `n` that passes a test. -/
def firstBelow (n : Nat) (p : Nat → Bool) : Option Nat := (List.range n).find? p

/-- A truth value as a bit at a place. -/
def bitVal (b : Bool) (k : Nat) : Nat := if b then 2 ^ k else 0

end Sys2Proof
end

