-- ==== Sys2Proof/Config.lean ====
section
/-! DEFINITION. What one part fixes and what the spec leaves open: opaque constants with no body, so that no
proof can see a value of them. Every free value of the model is one of these (log entries 2 to 6). -/

namespace Sys2Proof.Config

/-- A value the spec leaves undefined: the n-th the machine meets, n being a counter of State (log entry 2). -/
opaque freeValue : Nat → BitVec 64

/-- Which of the four FP32 values within 2 units in the last place of the exact one the exponential of R377 or Table 10-7
is: 1 the nearest one not above it, 0 the one below that, 2 and 3 the two above (log entry 3). -/
opaque expUlp : BitVec 32 → Fin 4

/-- How many units in the last place a chunk's FP32 sum of R156 lies from its exact value: the spec states neither the
order nor the roundings inside a chunk of at most 64 elements (log entry 10). Indexed by the draw. -/
opaque sumUlp : Nat → Fin 257

/-- What the header of a Winnow result block says of the block's Q and k, which the spec states nowhere (log entry 19). -/
opaque blockShape : List (BitVec 8) → BitVec 64

/-- The serial number CHP_SERIAL of the part (Table 19-2: the factory's value). -/
opaque chipSerial : BitVec 64

/-- SHA-384 of a byte string (R425): the standard is not reproduced by the spec (log entry 4). -/
opaque sha384 : List (BitVec 8) → BitVec 384

/-- Whether an ECDSA P-384 signature with SHA-384 over a message verifies under a public key (R419). -/
opaque ecdsaVerify : (key message signature : List (BitVec 8)) → Bool

/-- Whether an HSS signature with SHA-256 over a message verifies under a public key (R419). -/
opaque hssVerify : (key message signature : List (BitVec 8)) → Bool

/-- Signature of a message by a P-384 private scalar (R416, R429). -/
opaque ecdsaSign : (scalar : Nat) → List (BitVec 8) → List (BitVec 8)

/-- Signature of a message with leaf `index` by the HSS key of a seed and identifier (R416, R430). -/
opaque hssSign : (key : List (BitVec 8)) → (index : Nat) → List (BitVec 8) → List (BitVec 8)

/-- The digests of the VENDOR slot's two public keys, fixed in the boot ROM (R418). -/
opaque vendorEcdsa : BitVec 384

/-- The digest of the VENDOR slot's HSS public key (R418). -/
opaque vendorHss : BitVec 384

/-- The digest of the boot ROM, measured into M0 (Table 16-4). -/
opaque romDigest : BitVec 384

/-- The device seed that the PUF and its helper data give at cold boot n, and the check value stored at manufacture (R416). -/
opaque pufSeed : Nat → BitVec 256
opaque pufCheck : BitVec 384

/-- The two identity public keys and their certificates, as HELLO returns them (R416). -/
opaque identityKeys : List (BitVec 8)

/-- What the repair set of the n-th cold boot holds beside the arrays' repair maps: the SRAM macros, channels, banks and
cores, with their results (R454). -/
opaque repairRest : Nat → List (BitVec 8)

/-- How many spares that part of the repair set uses (R454). -/
opaque repairSpares : Nat → Nat

/-- Whether the faults of a unit, named by its 16-bit unit ID, exceed its spares at the n-th cold boot (R454). -/
opaque repairFails : (boot unit : Nat) → Bool

/-- Whether the self-test of the n-th cold boot finds a physical row of an array faulty, 0 to 128 (R134). -/
opaque faultyRow : (boot array row : Nat) → Bool

/-- Whether it finds one of the row's multipliers faulty, two for each column (R115). -/
opaque faultyMultiplier : (boot array row multiplier : Nat) → Bool

/-- Whether it finds a physical column of an array faulty, 0 to 512 (R134). -/
opaque faultyColumn : (boot array column : Nat) → Bool

/-- Whether it finds a fault in an array's accumulators, control or operand SRAM that sparing cannot repair (R134). -/
opaque arrayFault : (boot array : Nat) → Bool

/-- The management key a part leaves the factory with, and returns to at ZEROISE (R432). -/
opaque factoryManagementKey : BitVec 256

/-- Unwrapping a management key sealed under a key of the session (R432): none when its seal does not verify. -/
opaque unsealKey : (session : BitVec 256) → List (BitVec 8) → Option (BitVec 256)

/-- The secret of a session that the n-th draw's handshake under a management key agrees, and the tag with which TLS 1.3 seals the
session's n-th message (R397, R404). -/
opaque sessionSecret : (key : BitVec 256) → Nat → BitVec 256
opaque sessionTag : (secret : BitVec 256) → Nat → List (BitVec 8) → BitVec 128

/-- The n-th 48-byte random challenge the part draws (R432). -/
opaque randomNonce : Nat → BitVec 384

/-- The bank that holds a line of a channel's rank: the spec gives the rank of a line and not its bank (log entry 28). -/
opaque lineBank : Nat → Nat

/-- Record i of the Almanac's IDENTITY region, written at manufacture (R458). -/
opaque identityRecord : Nat → List (BitVec 8)

end Sys2Proof.Config
end

