-- ==== Sys2Proof/Machine/Float.lean ====
section
/-! DEFINITION. Number formats and exact arithmetic with one rounding (R120, R121, R151 to R154, R377, R271). A finite
value is an integer times a power of two, so sums and products are exact until they are rounded. -/

namespace Sys2Proof

/-- A floating-point format: `eb` exponent bits, `mb` stored mantissa bits; `inf` says whether the top exponent
holds infinities and NaNs (false for FP8 E4M3, whose one NaN magnitude is all ones). -/
structure FFmt where
  eb : Nat
  mb : Nat
  inf : Bool
deriving DecidableEq, Repr

/-- FP32. -/
def fp32 : FFmt := ⟨8, 23, true⟩
/-- BF16. -/
def bf16 : FFmt := ⟨8, 7, true⟩
/-- FP16. -/
def fp16 : FFmt := ⟨5, 10, true⟩
/-- FP8 E5M2. -/
def e5m2 : FFmt := ⟨5, 2, true⟩
/-- FP8 E4M3. -/
def e4m3 : FFmt := ⟨4, 3, false⟩

/-- An exact value: a NaN, an infinity of a sign, or ±m × 2^e (the sign of a zero is kept). -/
inductive FVal where
  | nan
  | inf (neg : Bool)
  | fin (neg : Bool) (m : Nat) (e : Int)
deriving DecidableEq, Repr

/-- How a narrowing rounds (Table 6-5); the stochastic mode carries its 16-bit draw r (R152). -/
inductive RMode where
  | nearest
  | zero
  | stochastic (r : Nat)
deriving DecidableEq, Repr

/-- Total width of a format in bits. -/
def FFmt.width (f : FFmt) : Nat := 1 + f.eb + f.mb

/-- The exponent of the least bit of a subnormal. -/
def FFmt.qmin (f : FFmt) : Int := 2 - (2 ^ (f.eb - 1) : Nat) - f.mb

/-- The magnitude code of the largest finite value. -/
def FFmt.maxCode (f : FFmt) : Nat :=
  if f.inf then (2 ^ f.eb - 1) * 2 ^ f.mb - 1 else 2 ^ (f.eb + f.mb) - 2

/-- The magnitude code of infinity (for a format that has one). -/
def FFmt.infCode (f : FFmt) : Nat := (2 ^ f.eb - 1) * 2 ^ f.mb

/-- The NaN a rule writes: the canonical quiet NaN, and 0x7F in E4M3 (R154). -/
def FFmt.nanCode (f : FFmt) : Nat :=
  if f.inf then f.infCode + 2 ^ (f.mb - 1) else 2 ^ (f.eb + f.mb) - 1

/-- The value a code of the format spells; subnormals are kept (R377). -/
def FFmt.decode (f : FFmt) (c : Nat) : FVal :=
  let mag := c % 2 ^ (f.eb + f.mb)
  let neg := c.testBit (f.eb + f.mb)
  let ex := mag / 2 ^ f.mb
  let man := mag % 2 ^ f.mb
  if f.inf && ex == 2 ^ f.eb - 1 then (if man = 0 then .inf neg else .nan)
  else if !f.inf && mag == 2 ^ (f.eb + f.mb) - 1 then .nan
  else if ex = 0 then .fin neg man f.qmin
  else .fin neg (man + 2 ^ f.mb) (f.qmin + (ex - 1 : Nat))

/-- Round a magnitude m × 2^e to a multiple of 2^q and answer how many units it holds (R151, R152). -/
def roundUnits (r : RMode) (m : Nat) (e q : Int) : Nat :=
  if q ≤ e then m * 2 ^ (e - q).toNat
  else
    let sh := (q - e).toNat
    let kept := m / 2 ^ sh
    let rem := m % 2 ^ sh
    match r with
    | .nearest =>
      let half := 2 ^ (sh - 1)
      if rem > half || (rem == half && kept % 2 == 1) then kept + 1 else kept
    | .zero => kept
    | .stochastic d =>
      let top := if 16 ≤ sh then rem / 2 ^ (sh - 16) else rem * 2 ^ (16 - sh)
      if 65536 ≤ top + d then kept + 1 else kept

/-- The magnitude code a finite magnitude rounds to, before any overflow is looked at. -/
def FFmt.roundMag (f : FFmt) (r : RMode) (m : Nat) (e : Int) : Nat :=
  if m = 0 then 0
  else
    let top : Int := (Nat.log2 m : Int) + e
    let q : Int := max (top - f.mb) f.qmin
    (q - f.qmin).toNat * 2 ^ f.mb + roundUnits r m e q

/-- The code of a sign and a magnitude code. -/
def FFmt.pack (f : FFmt) (neg : Bool) (mag : Nat) : Nat := (if neg then 2 ^ (f.eb + f.mb) else 0) + mag

/-- Arithmetic rounding, nearest-even: overflow gives infinity (IEEE 754, R377, R121). -/
def FFmt.encode (f : FFmt) (v : FVal) : Nat :=
  match v with
  | .nan => f.nanCode
  | .inf neg => f.pack neg (if f.inf then f.infCode else f.maxCode)
  | .fin neg m e =>
    let mag := f.roundMag .nearest m e
    f.pack neg (if mag ≤ f.maxCode then mag else if f.inf then f.infCode else f.maxCode)

/-- Narrowing into a format under a rounding mode, and whether the element is clipped (Table 6-6). -/
def FFmt.narrow (f : FFmt) (r : RMode) (v : FVal) : Nat × Bool :=
  match v with
  | .nan => (f.nanCode, false)
  | .inf neg => if f.inf then (f.pack neg f.infCode, false) else (f.pack neg f.maxCode, true)
  | .fin neg m e =>
    let mag := f.roundMag r m e
    if mag ≤ f.maxCode then (f.pack neg mag, false) else (f.pack neg f.maxCode, true)

namespace FVal

/-- Positive zero. -/
def zero : FVal := .fin false 0 0

/-- The exact value of an integer. -/
def ofInt (i : Int) : FVal := .fin (i < 0) i.natAbs 0

/-- The negated value. -/
def neg : FVal → FVal
  | .nan => .nan
  | .inf s => .inf (!s)
  | .fin s m e => .fin (!s) m e

/-- The magnitude. -/
def abs : FVal → FVal
  | .nan => .nan
  | .inf _ => .inf false
  | .fin _ m e => .fin false m e

/-- The signed mantissa of a finite value at exponent `q ≤ e`. -/
def scaled (s : Bool) (m : Nat) (e q : Int) : Int :=
  let x : Int := (m * 2 ^ (e - q).toNat : Nat)
  if s then -x else x

/-- Exact addition. A zero sum of opposite signs is +0 (nearest-even). -/
def add : FVal → FVal → FVal
  | .nan, _ => .nan
  | _, .nan => .nan
  | .inf a, .inf b => if a == b then .inf a else .nan
  | .inf a, _ => .inf a
  | _, .inf b => .inf b
  | .fin s m e, .fin t n g =>
    let q := min e g
    let x := scaled s m e q + scaled t n g q
    if x = 0 then .fin (s && t) 0 0 else .fin (x < 0) x.natAbs q

/-- Exact product. -/
def mul : FVal → FVal → FVal
  | .nan, _ => .nan
  | _, .nan => .nan
  | .inf a, .inf b => .inf (a != b)
  | .inf a, .fin t n _ => if n = 0 then .nan else .inf (a != t)
  | .fin s m _, .inf b => if m = 0 then .nan else .inf (s != b)
  | .fin s m e, .fin t n g => .fin (s != t) (m * n) (e + g)

/-- Quotient kept to 64 bits and a sticky bit, so that one rounding after it is exact. -/
def div : FVal → FVal → FVal
  | .nan, _ => .nan
  | _, .nan => .nan
  | .inf _, .inf _ => .nan
  | .inf a, .fin t _ _ => .inf (a != t)
  | .fin s _ _, .inf b => .fin (s != b) 0 0
  | .fin s m e, .fin t n g =>
    if n = 0 then (if m = 0 then .nan else .inf (s != t))
    else if m = 0 then .fin (s != t) 0 0
    else
      let k := 64 + Nat.log2 n
      let q := m * 2 ^ k / n
      let sticky := if m * 2 ^ k % n = 0 then 0 else 1
      .fin (s != t) (2 * q + sticky) (e - g - k - 1)

/-- Multiply by 2^k exactly. -/
def scale (k : Int) : FVal → FVal
  | .fin s m e => .fin s m (e + k)
  | v => v

/-- Numerical order of two values that are no NaN; zeros are equal. -/
def lt : FVal → FVal → Bool
  | .nan, _ => false
  | _, .nan => false
  | .inf a, .inf b => a && !b
  | .inf a, _ => a
  | _, .inf b => !b
  | .fin s m e, .fin t n g =>
    let q := min e g
    scaled s m e q < scaled t n g q

/-- The sign. -/
def isNeg : FVal → Bool
  | .nan => false
  | .inf s => s
  | .fin s _ _ => s

/-- Neither a NaN nor an infinity. -/
def isFinite : FVal → Bool
  | .fin _ _ _ => true
  | _ => false

/-- A NaN. -/
def isNaN : FVal → Bool
  | .nan => true
  | _ => false

/-- A zero of either sign. -/
def isZero : FVal → Bool
  | .fin _ 0 _ => true
  | _ => false

/-- maximumNumber of IEEE 754-2019: −0 counts as less than +0, a NaN yields the other input (R377). -/
def maxNum (a b : FVal) : FVal :=
  if a.isNaN then b else if b.isNaN then a
  else if lt a b then b else if lt b a then a else if a.isNeg then b else a

/-- minimumNumber of IEEE 754-2019 (R377). -/
def minNum (a b : FVal) : FVal :=
  if a.isNaN then b else if b.isNaN then a
  else if lt a b then a else if lt b a then b else if a.isNeg then a else b

/-- floor(log2 |x|) of a finite non-zero value. -/
def log2Floor : FVal → Int
  | .fin _ m e => (Nat.log2 m : Int) + e
  | _ => 0

end FVal

/-- FP32 addition with one rounding, on codes. -/
def f32add (a b : Nat) : Nat := fp32.encode (FVal.add (fp32.decode a) (fp32.decode b))
/-- FP32 subtraction. -/
def f32sub (a b : Nat) : Nat := fp32.encode (FVal.add (fp32.decode a) (FVal.neg (fp32.decode b)))
/-- FP32 multiplication. -/
def f32mul (a b : Nat) : Nat := fp32.encode (FVal.mul (fp32.decode a) (fp32.decode b))
/-- FP32 division. -/
def f32div (a b : Nat) : Nat := fp32.encode (FVal.div (fp32.decode a) (fp32.decode b))
/-- Whether one FP32 code is less than another. -/
def f32lt (a b : Nat) : Bool := FVal.lt (fp32.decode a) (fp32.decode b)

/-- ln 2 times 2^160, rounded down (a constant of arithmetic, not of the part). -/
def ln2Fixed : Nat := 1013035739299659071135698605846798551586536899366

/-- exp of r × 2^-160 for 0 ≤ r < ln 2, in the same fixed point: terms of the series down to zero. -/
def expSeries : (fuel : Nat) → (r term k acc : Nat) → Nat
  | 0, _, _, _, acc => acc
  | n + 1, r, term, k, acc => expSeries n r (term * r / 2 ^ 160 / (k + 1)) (k + 1) (acc + term)

/-- The exponential to well below half a unit of FP32, as an exact dyadic number. -/
def expExact (v : FVal) : FVal :=
  match v with
  | .nan => .nan
  | .inf s => if s then .fin false 0 0 else .inf false
  | .fin s m e =>
    if m = 0 then .fin false 1 0
    else if 8 ≤ (Nat.log2 m : Int) + e then (if s then .fin false 1 (-400) else .fin false 1 400)
    else
      let x : Int := if 0 ≤ e + 160 then ((m * 2 ^ (e + 160).toNat : Nat) : Int) else ((m / 2 ^ (-(e + 160)).toNat : Nat) : Int)
      let x := if s then -x else x
      let n : Int := Int.fdiv x ln2Fixed
      let r := (x - n * ln2Fixed).toNat
      .fin false (expSeries 48 r (2 ^ 160) 0 0) (n - 160)

/-- The FP32 exponential of R377 and Table 10-7: within 2 units in the last place of the exact value; which of those
values is left open (`Config.expUlp`). NaN, infinities and results out of range follow IEEE 754. -/
def f32exp (a : Nat) : Nat :=
  let v := fp32.decode a
  let x := expExact v
  let c := fp32.encode x
  match v with
  | .fin _ m _ =>
    if m = 0 || c = fp32.infCode then c
    else
      let below := if FVal.lt x (fp32.decode c) then c - 1 else c
      min (below + (Config.expUlp (BitVec.ofNat 32 a)).val - 1) fp32.infCode
  | _ => c

/-- Narrow a value that is scaled into an integer target of `w` bits under a rounding mode: the code in two's complement
and whether it is clipped (R152, R154, Table 6-6). -/
def narrowInt (w : Nat) (isSigned : Bool) (r : RMode) (v : FVal) : Int × Bool :=
  let lo : Int := if isSigned then -((2 ^ (w - 1) : Nat) : Int) else 0
  let hi : Int := if isSigned then ((2 ^ (w - 1) : Nat) : Int) - 1 else ((2 ^ w : Nat) : Int) - 1
  match v with
  | .nan => (0, true)
  | .inf s => (if s then lo else hi, true)
  | .fin s m e =>
    let x : Int :=
      if 0 ≤ e then (if s then -((m * 2 ^ e.toNat : Nat) : Int) else ((m * 2 ^ e.toNat : Nat) : Int))
      else
        let sh := (-e).toNat
        match r with
        | .stochastic d =>
          let y : Int := if s then -(m : Int) else m
          let fl := Int.fdiv y (2 ^ sh : Nat)
          let rem := (y - fl * (2 ^ sh : Nat)).toNat
          let top := if 16 ≤ sh then rem / 2 ^ (sh - 16) else rem * 2 ^ (16 - sh)
          if 65536 ≤ top + d then fl + 1 else fl
        | _ =>
          let u := roundUnits r m e 0
          if s then -(u : Int) else u
    if x < lo then (lo, true) else if hi < x then (hi, true) else (x, false)

/-- One round of Philox4x32 on (counter, key). -/
def philoxRound (c : Nat × Nat × Nat × Nat) (k0 k1 : Nat) : Nat × Nat × Nat × Nat :=
  let (c0, c1, c2, c3) := c
  let p0 := 0xD2511F53 * c0
  let p1 := 0xCD9E8D57 * c2
  (((p1 / 2 ^ 32) ^^^ c1 ^^^ k0) % 2 ^ 32, p1 % 2 ^ 32, ((p0 / 2 ^ 32) ^^^ c3 ^^^ k1) % 2 ^ 32, p0 % 2 ^ 32)

/-- `n` rounds of Philox4x32, the key bumped between rounds. -/
def philoxRounds : (n : Nat) → Nat × Nat × Nat × Nat → Nat → Nat → Nat × Nat × Nat × Nat
  | 0, c, _, _ => c
  | n + 1, c, k0, k1 =>
    philoxRounds n (philoxRound c k0 k1) ((k0 + 0x9E3779B9) % 2 ^ 32) ((k1 + 0xBB67AE85) % 2 ^ 32)

/-- Philox4x32-10: the 128 bits of a counter under a 64-bit key, word 0 lowest (R153, R270). The function is named by
the spec and its constants come from outside it (log entry 5). -/
def philox (counter key : Nat) : Nat :=
  let r := philoxRounds 10 (bits counter 31 0, bits counter 63 32, bits counter 95 64, bits counter 127 96)
    (bits key 31 0) (bits key 63 32)
  r.1 + r.2.1 * 2 ^ 32 + r.2.2.1 * 2 ^ 64 + r.2.2.2 * 2 ^ 96

/-- One byte step of the reflected CRC-32 of R310. -/
def crcByte : (n : Nat) → Nat → Nat
  | 0, c => c
  | n + 1, c => crcByte n (if c % 2 = 1 then (c / 2) ^^^ 0xEDB88320 else c / 2)

/-- CRC-32 of a byte string (R310). -/
def crc32 (bs : List Byte) : Nat :=
  (bs.foldl (fun c b => crcByte 8 (c ^^^ b.toNat)) 0xFFFFFFFF) ^^^ 0xFFFFFFFF

/-- Product in GF(2^8) modulo 0x11D: `n` bits of b from its lowest (R353, R357). -/
def gfMulBits : (n : Nat) → Nat → Nat → Nat → Nat
  | 0, _, _, acc => acc
  | n + 1, a, b, acc =>
    gfMulBits n (if 128 ≤ a then ((a * 2) ^^^ 0x11D) % 256 else a * 2) (b / 2) (if b % 2 = 1 then acc ^^^ a else acc)

/-- Product in GF(2^8) modulo 0x11D. -/
def gfMul (a b : Nat) : Nat := gfMulBits 8 a b 0

/-- 2^i in GF(2^8): the coefficient of data member i in the second parity. -/
def gfPow : Nat → Nat
  | 0 => 1
  | n + 1 => gfMul 2 (gfPow n)

/-- The inverse in GF(2^8) by search (0 where there is none). -/
def gfInv (a : Nat) : Nat := ((List.range 256).find? (fun b => gfMul a b == 1)).getD 0

end Sys2Proof
end

