-- ==== Sys2Proof/Machine/State.lean ====
section
/-! DEFINITION. The machine's state: every piece of state the spec gives the block, as plain data, and the state
right after reset. Registers of the control space stand in one table (`csr`): a register that is not listed holds its
Reset column's value. -/

namespace Sys2Proof.Machine

/-- Byte-addressed memory: the bytes that are not zero, addresses rising, the 64-byte lines that carry the poison mark of
R436, rising, and the lines that hold an uncorrectable error which no read and no scrub has found yet (R437, log entry 11).
An unlisted byte reads zero: Granary frames are zeroed before they count as free (R228) and POWER_ON zeroes SRAM (R469);
log entry 7. -/
structure Memory where
  cells : List Host.Cell := []
  poison : List Nat := []
  upset : List Nat := []
deriving DecidableEq, Repr

/-- The states of Table 2-2. -/
inductive ReqState where
  | free | admitted | prefill | parked | decode | paused | handoverOut | handoverIn | expired | done | lost | aborted
deriving DecidableEq, Repr

/-- A Sheaf entry (Table 2-1) and, below `held`, what the device keeps for an in-step entry (Table 2-12, R86). -/
structure SheafEntry where
  reqId : Word := 0
  state : ReqState := .free
  reason : Nat := 0
  priority : Nat := 0
  inStep : Bool := false
  rePin : Bool := false
  changePending : Bool := false
  slice : Nat := 0
  tail : Nat := 0
  epoch : Nat := 0
  model : Nat := 0
  adapter : Nat := 0
  customer : Nat := 0
  mirrorPolicy : Nat := 0
  deadline : Nat := 0
  len : Nat := 0
  maxLen : Nat := 0
  floor : Nat := 0
  returnState : ReqState := .free
  root : Word := 0
  admitTime : Nat := 0
  lastTime : Nat := 0
  /-- words 0x40, 0x48 and 0x50: ten members of 16 bits -/
  mirror0 : Word := 0
  mirror1 : Word := 0
  mirror2 : Word := 0
  maskPtr : Word := 0
  automaton : Nat := 0
  maskMode : Nat := 0
  /-- word 0x68: temperature and top-p -/
  sampling0 : Word := 0
  /-- word 0x70: min-p and top-k -/
  sampling1 : Word := 0
  /-- word 0x78: stop tokens and their enables -/
  stops : Word := 0
  rngKey : Word := 0
  rngCounter : Nat := 0
  partner : Nat := 0
  batchTag : Nat := 0
  lease : Nat := 0
  scratch0 : Word := 0
  scratch1 : Word := 0
  scratch2 : Word := 0
  generated : Nat := 0
  steps : Nat := 0
  proposed : Nat := 0
  accepted : Nat := 0
  pauses : Nat := 0
  expiries : Nat := 0
  groupAborts : Nat := 0
  underruns : Nat := 0
  maskEmpty : Nat := 0
  handovers : Nat := 0
  /-- pending SHF.SETSTATE target code (R60) -/
  pendingState : Option Nat := none
  /-- held SHF.WRITEs: word, value, mask (R60), oldest first -/
  heldWrites : List (Nat × Word × Word) := []
  /-- a loss of state recorded during the step (R60) -/
  lossRecorded : Bool := false
  /-- a slice teardown recorded during the step (R60) -/
  teardownRecorded : Bool := false
  /-- the accepted count PT.VCOMMIT recorded (R86) -/
  vcommit : Option Nat := none
  /-- received by handover and not yet eligible, and the nodes whose EPOCH_SET is not yet answered (R345, R347) -/
  epochRound : Bool := false
  epochWaits : List Nat := []
  /-- C of the last MIR.PUSH of the request (R351) -/
  chunk : Nat := 1
  /-- the entry counts in REFS of its adapter version (R255) -/
  adpHeld : Bool := false
deriving DecidableEq, Repr

/-- A frame descriptor (Tables 3-3 and 9-4). Frames 0 to 1,535 hold the descriptors; only device units reach them. -/
structure FrameDesc where
  gen : Nat := 0
  stamp : Nat := 0
  kind : Nat := 0
  poisoned : Bool := false
  walks : Nat := 0
  age : Nat := 0
  slice : Nat := 0
  pin : Bool := false
  weight : Bool := false
  pool : Nat := 0
  backV : Bool := false
  sheaf : Nat := 0
  layer : Nat := 0
  entry : Nat := 0
deriving DecidableEq, Repr

/-- An arrival counter: 32 bits signed and its 16-bit status (Table 4-4, Table 4-6). -/
structure Arrival where
  val : Int := 0
  stat : Nat := 0
deriving DecidableEq, Repr

/-- The five asynchronous classes of Table 4-3. -/
inductive OpClass where
  | mov | fab | cod | mat | sys
deriving DecidableEq, Repr

/-- How an operation completed (R106): its code and the status bits it sets. -/
structure Done where
  code : Nat := 0
  poison : Bool := false
  timeout : Bool := false
  refused : Bool := false
  cancelled : Bool := false
  check : Bool := false
  /-- the code names the cause of a poisoned record and sets no STATUS (R167) -/
  soft : Bool := false
deriving DecidableEq, Repr

/-- An outstanding asynchronous operation: its opcode and modifiers, its register operands and the Hull descriptors
read at issue (R101), its counter, and how far it has come. -/
structure AsyncOp where
  id : Nat
  opc : Nat
  cls : OpClass
  mod : Nat := 0
  x : Word := 0
  y : Word := 0
  z : Word := 0
  w : Word := 0
  slice : Nat := 0
  counter : Option Nat := none
  ra : Bool := false
  desc : List (List Byte) := []
  /-- units (bytes, messages, pages) handled and outstanding -/
  pos : Nat := 0
  left : Nat := 0
  /-- the first failure met, kept until completion -/
  fail : Option Done := none
  /-- state latched by the operation (a record's version, a base address, a chosen unit) -/
  latch : List Nat := []
  started : Bool := false
deriving DecidableEq, Repr

/-- An exception raised and not yet completed (R107, R108). -/
structure Exc where
  code : Nat
  slot : Nat
  pc : Nat
  info : Word
deriving DecidableEq, Repr

/-- Where a program stands. -/
inductive Phase where
  | running
  /-- END issued; outstanding operations complete (R93) -/
  | ending
  /-- an exception was raised; outstanding operations complete (R108) -/
  | excepting (e : Exc)
deriving DecidableEq, Repr

/-- The program a Sower runs (R88 to R93). -/
structure Program where
  queue : Nat
  index : Nat
  addr : Nat
  slice : Nat
  irq : Bool
  tag : Nat
  pc : Nat
  issued : Nat := 0
  phase : Phase := .running
  /-- the bundle fetched and checked at `pc`, not yet issued -/
  fetched : Option (BitVec 512) := none
  /-- system time at which the present stall began -/
  stallSince : Option Nat := none
deriving DecidableEq, Repr

/-- A Glean line (R242): address, bytes, poison, region, whether something other than a GLN.FILL without .RA brought it (R233),
the embedding table and version that tag it (R252), when it was last used (for LRU) and when its bytes stood in Granary. -/
structure GleanLine where
  addr : Nat
  data : List Byte
  poison : Bool := false
  region : Nat := 0
  ra : Bool := false
  tag : Option (Nat × Nat) := none
  used : Nat := 0
  /-- system time of its bytes -/
  time : Nat := 0
deriving DecidableEq, Repr

/-- A row update in a Furrow's update buffer (R258, R260); `wide` says that the row's elements are FP32. -/
structure RowUpd where
  node : Nat
  key : Nat
  version : Nat
  row : Nat
  slice : Nat
  cls : Nat
  wide : Bool
  add : Bool
  data : List Byte
  poison : Bool := false
  /-- the asynchronous operations that complete with it -/
  ops : List Nat := []
deriving DecidableEq, Repr

/-- A weight stream of a Furrow (R239 to R241), kept after its end for the releases its engine still owes. -/
structure WStream where
  k : Nat
  op : Nat
  slice : Nat
  cls : Nat
  desc : List Byte
  ra : Bool
  /-- next layer to start -/
  next : Nat
  /-- layers whose slots the engine has not released, and layers released -/
  awaiting : List Nat := []
  released : List Nat := []
  /-- place in the round-robin over its ports, messages not yet acknowledged -/
  turn : Nat := 0
  unacked : Nat := 0
  fail : Option Done := none
  poison : Bool := false
  ended : Bool := false
deriving DecidableEq, Repr

/-- A Furrow: its Sower, its SRAM, and the engines it owns (chapters 4, 8, 9 and 10). -/
structure Furrow where
  g : Table Word := []
  h : Table Word := []
  p : Table Bool := []
  v : Table VecWord := []
  a : Table Arrival := []
  prog : Option Program := none
  /-- operations outstanding, oldest first -/
  ops : List AsyncOp := []
  nextOp : Nat := 0
  /-- descriptors prefetched: queue to ring index and bytes (R92) -/
  prefetch : Table (Nat × List Byte) := []
  /-- instruction memory: bundle index to bundle, and the image's length in bundles (R95) -/
  imem : Table (BitVec 512) := []
  imageLen : Nat := 0
  hull : Memory := {}
  glean : List GleanLine := []
  gleanClock : Nat := 0
  /-- system time of each region's last refresh pass (R243) -/
  refreshed : Table Nat := []
  rows : List RowUpd := []
  streams : List WStream := []
  /-- count of stochastic operations since cold boot (R153) -/
  srCount : Nat := 0
deriving DecidableEq, Repr

/-- The kinds of walk of Table 3-9. -/
inductive WalkKind where
  | attn
  | qship
  | pull
  | push
deriving DecidableEq, Repr

/-- Where a walk takes its latched length from (Table 3-9): an entry's committed length, with or without its tail, or
the COVERED of hold record `i` of a slice's table. -/
inductive LenSource where
  | entry (i : Nat) (tail : Bool)
  | hold (slice i : Nat)
deriving DecidableEq, Repr

/-- A position's keys and values by KV head; `seg` only in a packed block (R175). -/
structure KvPos where
  index : Nat
  pos : Nat
  seg : Option Nat
  k : List (List FVal)
  v : List (List FVal)
deriving DecidableEq, Repr

/-- What an attention walk has read of one page before it released the page's frame (R74): the failure met, if any, and
the positions. -/
structure PageRead where
  page : Nat
  cause : Nat
  kv : List KvPos
deriving DecidableEq, Repr

/-- A walk, waiting or latched (R73 to R75): the asynchronous operation (of `furrow`) or the arrived request it
serves, its range, and, once latched, the table generation, the layer entry, the handles of its range, the frames
it still holds and the latched length. `parity` marks a pull at a parity member, whose indices are stripes (R336). -/
structure Walk where
  id : Nat
  kind : WalkKind
  furrow : Nat
  op : Nat := 0
  req : Option Req := none
  slice : Nat := 0
  root : Word
  layer : Nat
  first : Nat
  cap : Nat
  src : LenSource
  parity : Bool := false
  latched : Bool := false
  len : Nat := 0
  gen : Nat := 0
  listFrame : Word := 0
  layerWord : Word := 0
  entries : List (Nat × Word) := []
  held : List Nat := []
  /-- pages read before the end -/
  reads : List PageRead := []
  /-- codebook records whose QUEUED it holds (R203), and when a ship's service ends without an answer: its deadline, or
  2 µs after its group's ABORT (R189) -/
  keys : List Nat := []
  stopAt : Option Nat := none
deriving DecidableEq, Repr

/-- An edit that waits in a Field's deferred-edit queue (R78, R79). -/
structure DeferredEdit where
  id : Nat
  opc : Nat
  /-- the frame whose walk count must reach 0 -/
  frame : Nat
  sel : Word
  handle : Word
  param : Word
  slice : Nat
  furrow : Nat
  op : Nat
deriving DecidableEq, Repr

/-- A record on its way to the Almanac (R459, R460). -/
structure AlmRec where
  type : Nat
  severity : Nat := 0
  unit : Nat := 0xFFFF
  time : Nat := 0
  body : List Byte := []
deriving DecidableEq, Repr

/-- What a fabric operation in flight belongs to: an asynchronous operation of a Furrow's program, one of the device's
own jobs, named by number, a weight stream of a Furrow, named by its operation, or nothing that waits for it. -/
inductive FabOwner where
  | op (furrow id : Nat)
  | job (id : Nat)
  | stream (furrow op : Nat)
  | none
deriving DecidableEq, Repr

/-- A fabric operation that awaits its response (R297): its tag, owner, destination node, its place in the owner's
result, the engine port it is bound to, its deadline (none for a ship of a merge group and for a resent message of
the handover protocol), how often it has been resent and when it is to be resent next (R292), the pages of a pull
answered, and the merge group it belongs to. -/
structure FabOp where
  tag : Nat
  owner : FabOwner
  dst : Nat
  slice : Nat
  req : Req
  part : Nat := 0
  fixed : Option Nat := none
  deadline : Option Nat := none
  retries : Nat := 0
  resendAt : Option Nat := none
  /-- the resend due answers a RETRY (R292) -/
  again : Bool := false
  pages : List Nat := []
  group : Option Nat := none
  /-- waits for a place among the 256 unacknowledged requests of its stream (R291) -/
  unsent : Bool := false
deriving DecidableEq, Repr

/-- Why a tag no longer names an operation in flight: its deadline passed (R299), a response completed it (R302),
its group was aborted (R191), or responses to it are
discarded in silence, since an acknowledgement of a later SEQ covered it (R291) or its run-ahead action was cancelled
(R112). -/
inductive TagEnd where
  | late
  | answered
  | aborted
  | silent
deriving DecidableEq, Repr

/-- A stream's sender side: next SEQ and whether the next request carries RESYNC (R291, R293). Keyed by destination
node, destination slice and class. -/
structure TxStream where
  next : Nat := 0
  resync : Bool := false
deriving DecidableEq, Repr

/-- What the translation step made of a request (R287, R290): the target of its first byte. -/
inductive Target where
  /-- an address of Granary -/
  | granary (addr : Nat)
  /-- byte `off` of the frame that a handle of the list names, and the handle after it, as the translation step read them -/
  | viaHandle (handle next : Word) (off : Nat)
  /-- an offset in a Furrow's Hull -/
  | hull (furrow off : Nat)
deriving DecidableEq, Repr

/-- A stream's receiver side (R291 to R293): next SEQ expected, early arrivals held with their translation (none for a
request already refused), since when a hole persists, and whether a SEQ_LOST is outstanding. Keyed by source node,
slice and class. -/
structure RxStream where
  next : Nat := 0
  held : List (Req × Option Target) := []
  holeSince : Option Nat := none
  /-- FAB_TIMEOUT when the hole began (R27) -/
  holeWait : Nat := 0
  /-- ordered loads that wait for held requests, as translated (R290, R294) -/
  loads : List (Req × Target) := []
  lost : Bool := false
  /-- the PAGE_OPEN that directly precedes the next PAGE_WR (R352) -/
  opened : Option Req := none
deriving DecidableEq, Repr

/-- A merge group of this node (R186): its members, its response window in ns and its slice; the rest is its status
register. -/
structure MergeGroup where
  members : List Nat
  window : Nat
  slice : Nat
deriving DecidableEq, Repr

/-- A packet waiting at a port (R311): class, slice billed, message header, payload part, its offset in 8-byte units,
whether it is the message's last. -/
structure Packet where
  vc : Nat
  slice : Nat
  header : List Byte
  payload : List Byte
  segoff : Nat
  last : Bool
deriving DecidableEq, Repr

/-- A flit (Table 12-3): header fields and the 112-byte body. -/
structure Flit where
  kind : Nat := 0
  vc : Nat := 0
  fseq : Nat := 0
  ack : Nat := 0
  ackv : Bool := false
  cvc : Nat := 0
  ccum : Nat := 0
  cv : Bool := false
  nflit : Nat := 0
  last : Bool := false
  segoff : Nat := 0
  body : List Byte := []
deriving DecidableEq, Repr

/-- A token bucket (R331): its level in thousandths of a byte and the system time it was last brought up to date. -/
structure Bucket where
  level : Int := 0
  at' : Nat := 0
deriving DecidableEq, Repr

/-- An optical port beside its registers (chapter 12). -/
structure Port where
  /-- packets waiting, in the order they were enqueued -/
  queue : List Packet := []
  /-- start-time fair queuing: S_c, F_c, V, the class heads that were eligible at the last decision (R328, R329) -/
  start : Table Nat := []
  finish : Table Nat := []
  vtime : Nat := 0
  awake : List Nat := []
  /-- slice served last in each class (R327) -/
  served : Table Nat := []
  /-- the packets that make up the last 4,096 flits sent, newest first: flits and whether of class 7 (R330) -/
  recent : List (Nat × Bool) := []
  shapers : Table Bucket := []
  policers : Table Bucket := []
  /-- sender: flits sent and counts reported freed, by VC (R315); next FSEQ; flits not covered by an ACK (R316) -/
  sent : Table Nat := []
  freedByPeer : Table Nat := []
  nextFseq : Nat := 0
  replay : List Flit := []
  /-- how often the FSEQ last NAKed has been NAKed in a row (R318) -/
  nakRun : Nat × Nat := (0, 0)
  /-- receiver: FSEQ expected next, flits accepted and not yet acknowledged and since when, the flits of the packet being
  received and its stamp, packets whose message store is full with their stamps, flits received and freed by VC, the VC
  reported last, and when an outstanding NAK is sent again -/
  expect : Nat := 0
  toAck : Nat := 0
  ackSince : Nat := 0
  partialPkt : List Flit := []
  partialStamp : Nat := 0
  waiting : List (List Flit × Nat) := []
  received : Table Nat := []
  freed : Table Nat := []
  lastCvc : Nat := 0
  nakSince : Option Nat := none
  /-- training: own and partner's link incarnation (R321), the partner of the last INIT accepted, the INIT of the
  training under way, failures in a row, whether the port passed through OFF or FAILED since it was last ACTIVE,
  whether coefficients are stored, wavelengths found good, and low feed readings in a row by wavelength -/
  incarnation : Nat := 0
  peerIncarnation : Option (Nat × Nat) := none
  failures : Nat := 0
  dropped : Bool := true
  coefficients : Bool := false
  txMap : Table Nat := []
  feedLow : Table Nat := []
  feedWarn : Table Nat := []
  /-- times of threshold violations, and whether the quarantine they led to waits for NAKs to leave (R303) -/
  violations : List Nat := []
  quarantineDue : Bool := false
  /-- when the rings were last tuned (R323), the flits the last sending put on the transmit fibre, and the lane and
  wavelength last asked of the partner over the lane control channel (R306) -/
  tunedAt : Nat := 0
  line : List (List Byte) := []
  laneAsk : Option (Nat × Nat) := none
  /-- the logical lanes whose control channels carry that message (R305) -/
  askLanes : List Nat := []
  /-- FEC mode in effect, taken at training: low-latency (R308), and the bits received that no whole flit has claimed yet, none
  where a codeword was discarded (R309) -/
  lowFec : Bool := false
  rxBits : List (Option Bool) := []
  /-- until the port next leaves ACTIVE: that a warm reset took it down (R484) -/
  warmed : Bool := false
  /-- offset measured since the port became ACTIVE, in ns (R326) -/
  offset : Option Int := none
deriving DecidableEq, Repr

/-- A message being reassembled in a Field's reorder store (R312). -/
structure Reassembly where
  id : Nat
  field : Nat
  port : Nat
  stamp : Nat
  header : List Byte
  parts : List (Nat × List Byte) := []
  total : Option Nat := none
  /-- FAB_TIMEOUT when its first packet arrived (R27) -/
  limit : Nat := 0
deriving DecidableEq, Repr

/-- Headland's management view of a unit (Table 15-11). -/
inductive MgmtView where
  | inService | fenced | off | failed
deriving DecidableEq, Repr

/-- What is recorded of a unit: its management view, whether it is fenced and whether its data path has failed, how many
comparisons in a row found its views in disagreement, when the last command reached it, since when it is HELD, when
a failed unit was fenced (R409), how far a reconciliation has come (R411: 0 none, 1 off, 2 on, 3 self-test), whether a
self-test runs, whether the unit's domain goes off once what it runs has ended (R136, R469), and since when it has been
last inside one of its excluded bins (R451), and the session that a reconciliation answers. -/
structure UnitState where
  mgmt : MgmtView := .inService
  fenced : Bool := false
  failed : Bool := false
  disagree : Nat := 0
  lastCmd : Option Nat := none
  heldSince : Option Nat := none
  failFence : Option Nat := none
  recon : Nat := 0
  testing : Bool := false
  offDue : Bool := false
  inBin : Option Nat := none
  reconFor : Option Sender := none
deriving DecidableEq, Repr

/-- What an array queues (R124, R166, R516). -/
inductive JobKind where
  | tile | part | merge | ship
deriving DecidableEq, Repr

/-- A place in an array's queue: the issuing (or serving) Furrow and the operation, or the walk of a query ship. -/
structure ArrayJob where
  kind : JobKind
  furrow : Nat
  op : Nat
deriving DecidableEq, Repr

/-- A stationary buffer of an array (R126): what names its contents, the codes its cells hold, the codes that entered, of which
the checksum column formed s_k and u_k, and whether the load read poison (R123). -/
structure StatBuf where
  key : List Nat
  cells : List (List Nat)
  entered : List (List Nat)
  poison : Bool
deriving DecidableEq, Repr

/-- What a tile began with: RETRY, t of its format, LOG2N and SLC_SR_KEY (R27), and b's exponents by column and group and
zero points by column, read with the load (R144). -/
structure TileLatch where
  retry : Bool := true
  tol : Nat := 16
  log2n : Nat := 0
  srKey : Word := 0
  eb : List (List Nat) := []
  zb : List Int := []
deriving DecidableEq, Repr

/-- A Thresher array beside its registers (chapter 5, R445, R446): jobs not started, tiles waiting for a place in the
other array's queue (R137), the job that runs and what a tile began with, the Furrow served last, the two stationary buffers (the one used last
first), operand SRAM, THR_OPS_OWN writes held for a tile (R138), tiles started, tiles selected for gleaning, spare
columns' mismatches, stochastic operations (R153) and when the last TILE_CHECK record was written. -/
structure ThrArray where
  queue : List ArrayJob := []
  moved : List ArrayJob := []
  running : Option ArrayJob := none
  begun : TileLatch := {}
  lastFurrow : Nat := 15
  bufs : List StatBuf := []
  sram : Memory := {}
  heldOwn : List (Nat × Word) := []
  tiles : Nat := 0
  gleaned : Nat := 0
  spareMiss : Table Nat := []
  srCount : Nat := 0
  checkRec : Option Nat := none
deriving DecidableEq, Repr

/-- A place in the queue of a Winnow or Sieve unit (R213, R272): an encoder's search or another operation, its Furrow
and operation. -/
structure UnitJob where
  enc : Bool
  furrow : Nat
  op : Nat
deriving DecidableEq, Repr

/-- A Winnow or Sieve unit: operations waiting, in arrival order, and the one that runs. -/
structure UnitQueue where
  queue : List UnitJob := []
  running : Option UnitJob := none
deriving DecidableEq, Repr

/-- A handover message sent again every RETRY µs (R339, Table 13-5): its kind, slice and journal record, where it goes,
when it is sent next and when that ends. `query` marks the COMMIT of COMMIT_UNKNOWN (R487). -/
structure Exchange where
  id : Nat
  kind : Nat
  slice : Nat
  jnl : Nat
  addr : Word
  payload : List Byte
  next : Nat
  limit : Nat
  query : Bool := false
  /-- RETRY when it was first sent (R27) -/
  every : Nat := 0
deriving DecidableEq, Repr

/-- An HO.ADOPT that waits for its LOOKUPs (R359): its Furrow, operation and destination register, the template, the
members asked and not yet answered, and each answer's member, epoch and COVERED. -/
structure Adoption where
  furrow : Nat
  op : Nat
  dest : Nat
  slice : Nat
  template : SheafEntry
  waiting : List Nat
  got : List (Nat × Nat × Nat) := []
deriving DecidableEq, Repr

/-- A page of a push (R352): its layer and index, the handle it had, the members it goes to and those that have not
answered, the handle a member gave, and the members that failed. -/
structure PushPage where
  layer : Nat
  index : Nat
  handle : Word
  to' : List Nat
  waiting : List Nat
  copy : Option Word := none
  failed : List Nat := []
deriving DecidableEq, Repr

/-- A push: an operation of a Furrow, or the demotion of a frame (R236); its entry and request, policy, C, committed
length at issue, its walks not yet ended, its pages, the members to which COVER has gone and those that have answered
it, and the first failure. -/
structure Push where
  furrow : Nat := 0
  op : Nat := 0
  demote : Option Nat := none
  slice : Nat
  entry : Nat
  request : Word
  epoch : Nat
  policy : Nat
  chunk : Nat
  len : Nat
  walks : List Nat := []
  pages : List PushPage := []
  covering : Bool := false
  coverWait : List Nat := []
  coverOk : List Nat := []
  fail : Option Done := none
deriving DecidableEq, Repr

/-- A new version of a coded page at its data member, waiting for its parity members (R353): the PAGE_WR, the slice, the
request, the layer and index, the frame it will be written to and whether that frame was allocated for it, the parity
members and the stripe's message, whether its delta has been sent, those that have not answered, those that applied
it, the first failing code, and whether the restoring deltas are under way or one of them failed. -/
structure Delta where
  id : Nat
  req : Req
  slice : Nat
  request : Word
  layer : Nat
  index : Nat
  frame : Nat
  made : Bool
  parity : List Nat
  opens : Req
  sent : Bool := false
  diff : List Byte := []
  waiting : List Nat := []
  applied : List Nat := []
  fail : Nat := 0
  back : Bool := false
  lost : Bool := false
deriving DecidableEq, Repr

/-- What a rebuild job has of one source for its present page: nothing yet, the page's tag and bytes with their poison, a
missing page (a hole), or no readable page (R357, R358). -/
inductive Fetched where
  | asked
  | page (tag : Word) (data : List Byte)
  | hole
  | bad
deriving DecidableEq, Repr

/-- A rebuild job (R357, R358): its Furrow and operation, its descriptor, the pages still to do, members whose FENCE or
LOOKUP is not yet answered (each listed once for either), the COVERED of each source, the sources that have failed, what
the present page's sources have given, the first code, and whether pages were lost. -/
structure Rebuild where
  furrow : Nat
  op : Nat
  slice : Nat
  desc : List Byte
  todo : List (Nat × Nat) := []
  waiting : List Nat := []
  covered : List (Nat × Nat) := []
  failed : List Nat := []
  got : Table Fetched := []
  code : Nat := 0
  lost : Bool := false
deriving DecidableEq, Repr

/-- What a message of the device that expects an acknowledgement is for. -/
inductive Errand where
  /-- nothing waits for it -/
  | notice
  /-- a handover message resent until it is acknowledged -/
  | exchange (id : Nat)
  /-- EPOCH_SET to a member, for an entry that was confirmed or adopted -/
  | epochSet (entry : Nat) (request : Word) (node : Nat)
  /-- a DROP of MIR.DROP, or the ENGINE_FENCE of ENG.FENCE: an operation that ends with its last answer -/
  | ofOp (furrow op : Nat)
  | lookupDemote (frame : Nat)
  | lookupAdopt (adopt member : Nat)
  | fence (rebuild member : Nat)
  | lookupSource (rebuild member : Nat)
  | source (rebuild member : Nat)
  | pageOpen (push key member : Nat)
  | pageWr (push key member : Nat)
  | cover (push member : Nat)
  | deltaOpen (delta member : Nat)
  | delta (delta member : Nat)
deriving DecidableEq, Repr

/-- What the device itself has asked of the fabric, beside operations of programs. -/
inductive Job where
  /-- a row update sent, with the operations of a Furrow that complete with it (R260) -/
  | row (furrow : Nat) (ops : List Nat)
  /-- a message of the handover and copy protocol, sent `tries` times -/
  | errand (tries : Nat) (e : Errand)
deriving DecidableEq, Repr

/-- A command in a Reeve's hands (R401): its code (Table 15-7), its unit, whether a core sent it and reads the answer in
FLD_REEVE_RSP, the session that Headland answers for it, and the management view that Headland sets with it. -/
structure ReeveCmd where
  code : Nat
  unit : UnitId
  core : Bool := false
  session : Option Nat := none
  view : Option MgmtView := none
deriving DecidableEq, Repr

/-- A check or ECC event of a unit, in its operating bin (R449): when it came, bits [23:0] of its bin word, and the
channel of a Granary error. -/
structure BinEvent where
  unit : UnitId
  time : Nat
  key : Nat
  channel : Option Nat := none
deriving DecidableEq, Repr

/-- A corrected error of Granary: the channel, the row, the symbols corrected, when (R455). -/
structure RowError where
  channel : Nat
  row : Nat
  symbols : List Nat
  time : Nat
deriving DecidableEq, Repr

/-- An HMP message that Headland has sent: session, TYPE, STATUS, SEQ and body (Table 15-8), and the tag of the TLS record that carries
it, which the session's key authenticates (R397). -/
structure HmpMsg where
  session : Nat
  type : Nat
  status : Nat
  seq : BitVec 32
  body : List Byte
  tag : BitVec 128
deriving DecidableEq, Repr

/-- A management session (R403, R404): the reports and events it asked for, its live challenge with the time it was issued
(R432), the management key it was opened under, the secret its handshake agreed (R404), and how many messages it has carried. -/
structure Session where
  reports : Bool := false
  events : Bool := false
  challenge : Option (BitVec 384 × Nat) := none
  key : BitVec 256
  secret : BitVec 256
  carried : Nat := 0
deriving DecidableEq, Repr

/-- The platform-level interrupt controller (R400): priority of each source; the sources enabled, as bits, and the threshold of
each context; requests pending, and sources claimed and not yet completed. PRESUMED: reset values zero (log entry 40). -/
structure Plic where
  prio : Table Nat := []
  enable : Table Nat := []
  threshold : Table Nat := []
  requests : List Nat := []
  claimed : List Nat := []
deriving DecidableEq, Repr

/-- A line of the control cluster's caches: its address over 64, whether it has been written since it was filled, and in L3 the
slice binding of the core that filled it (R391). -/
structure CacheLine where
  line : Nat
  dirty : Bool
  slice : Option Nat
deriving DecidableEq, Repr

/-- The access-fault exception a core raised last: a store's or a load's, and the address (R393, R398, R490). -/
structure CoreTrap where
  store : Bool
  addr : Nat
deriving DecidableEq, Repr

/-- The modes of a control core (R398). -/
inductive CoreMode where
  | machine
  | supervisor
  | user
deriving DecidableEq, Repr

/-- How a hart was started: its mode, where, and a0 and a1 where the spec gives them (R399). -/
structure Hart where
  mode : CoreMode
  entry : Nat
  args : Option (Word × Word)
deriving DecidableEq, Repr

/-- A meter snapshot that Headland keeps (R397). -/
structure Snapshot where
  seq : Nat
  last : Bool
  counts : List Word
deriving DecidableEq, Repr

/-- An operation of chapter 16 in progress or waiting for the one in progress (R430, R432): a report for a session or, with
no session, for the mailbox, which writes it after the nonce at `addr`; a protected operation of a session, with the nonce
of the challenge it consumed; a mailbox command. -/
inductive SecOp where
  | report (session : Option Sender) (addr : Nat) (nonce : List Byte)
  | hmp (session : Sender) (type : Nat) (body : List Byte) (nonce : Option (BitVec 384))
  | mbox (cmd : Nat) (arg : Word)
deriving DecidableEq, Repr

/-- The Almanac (R458 to R463): the rings, oldest record first, with how many records each has taken since manufacture, the
SEQ of the last commit, and the STATE and REPAIR regions. `banks` holds the image of type t of bank b at 8 × b + t.
The factory gives the management key. -/
structure Almanac where
  seq : Nat := 0
  trend : List (List Byte) := []
  protect : List (List Byte) := []
  event : List (List Byte) := []
  trendHead : Nat := 0
  protHead : Nat := 0
  eventHead : Nat := 0
  /-- STATE: its generation, anti-rollback counters, HSS index q, OWNER slot, management key, active bank, cold boots -/
  generation : Nat := 0
  rollback : Table Nat := []
  leaf : Nat := 0
  owner : Option (BitVec 384 × BitVec 384) := none
  key : BitVec 256 := Config.factoryManagementKey
  bank : Nat := 0
  boots : Nat := 0
  /-- REPAIR: the last four repair sets, newest first, and exclusions: unit, and TEMP, VOLT and ACLK of the bin -/
  repairs : List (List Byte) := []
  exclusions : List (UnitId × Nat) := []
  banks : Table (List Byte) := []
deriving DecidableEq, Repr

/-- Why the block stops: the spec gives no command a stop, so no meaning raises one; the constructor names the one stop
the interface of the host provides for a command outside the operand types, and nothing raises it (safe). -/
inductive Fault where
  /-- raised by nothing: every command of the table has an effect (safe) -/
  | unreachable
deriving DecidableEq, Repr

/-- Why a command is refused. -/
inductive Refusal where
  /-- a command whose meaning is not written yet: raised by its arm of `exec` alone (safe: no claim can be proved of it) -/
  | notModelled (mnemonic : String)
deriving DecidableEq, Repr

/-- The block. -/
structure State where
  /-- commands waiting, first in first out -/
  pending : List Instr := []
  /-- whether the cold power-up sequence has run since the supplies came up (R481) -/
  powered : Bool := false
  /-- system time in ns (R30); `timeHold` is how far a correction may not yet move it back (R32) -/
  time : Nat := 0
  timeHold : Nat := 0
  /-- when system time was last steered forward (R326) -/
  steeredAt : Nat := 0
  /-- the millisecond of system time whose ageing sweep came last (R233) -/
  aged : Nat := 0
  /-- the period of system time in which a duty that Headland repeats at a fixed rate was last done, by 64 × duty + part: 0
  VIEW_COMPARE, 1 TILTH_EVALUATE, 2 TILTH_ESTIMATE, 3 TILTH_CALIBRATE, 4 THERMAL_SAMPLE, 5 BIN_SAMPLE by Field, 6
  ECC_CE_SUMMARY, 7 TREND_RECORD and 8 BEACON_TIMER by port -/
  paced : Table Nat := []
  /-- LEASE when a journal record was taken, by slice × 65,536 + record (R27) -/
  leases : Table Nat := []
  /-- the model's own: how many free values have been drawn (log entry 2) and the next internal name of an operation -/
  freeCount : Nat := 0
  nextId : Nat := 0
  /-- control-space registers that do not hold their reset value -/
  csr : List (Csr × Word) := []
  /-- what the last register read, HMP command or command status returned to its sender -/
  csrData : List Word := []
  /-- FLD_REEVE_MSG_f's latch and SEC_MEAS_i's latch (R490) -/
  msgLatch : Table (BitVec 128) := []
  measLatch : Table (BitVec 384) := []
  /-- Granary (R223) and its frame descriptors (R64) -/
  mem : Memory := {}
  desc : Table FrameDesc := []
  /-- spare rows used, by bank (R455) -/
  spareRows : Table Nat := []
  /-- frames freed and not yet zeroed (R228), and frames retired (R444) -/
  zeroing : List Nat := []
  retired : List Nat := []
  /-- system frames removed from the pool at the configuration lock, beside frames 0 to 1,535 (R226) -/
  sysFrames : Nat := 0
  /-- frames of LIVE codebook records, with the record that protects them (R202) -/
  cbFrames : Table Nat := []
  /-- the group last used in each stack (R228) -/
  lastGroup : Table Nat := []
  /-- frames being demoted, with the handle of the copy once it is known and whether it was pushed for this demotion
  (R236), and whether an eviction pass is under way (R234) -/
  demoting : Table (Option Word × Bool) := []
  evicting : Bool := false
  furrows : Table Furrow := []
  sheaf : Table SheafEntry := []
  /-- the batch tag counter (R386) -/
  batchTag : Nat := 0
  walks : List Walk := []
  deferred : Table (List DeferredEdit) := []
  /-- queue tails latched at entry to Fallow mode, at 4 × Furrow + queue (R414) -/
  fallowTails : Table Nat := []
  /-- the two views of every unit that has left its reset condition (R408 to R411) -/
  units : List (UnitId × UnitState) := []
  /-- records handed to the Almanac controller (R460) -/
  almQueue : List AlmRec := []
  /-- records dropped since the last LOST_RECORDS record, by type (R460) -/
  almDrops : Table Nat := []
  /-- asserted interrupt sources of Table 15-6 -/
  irqs : List Nat := []
  /-- Reeve message rings, one to a Field, oldest first (R402) -/
  reeveMsgs : Table (List (BitVec 128)) := []
  /-- powered domains (R19) -/
  domains : List Nat := []
  /-- fabric: operations in flight, what became of tags no longer in flight, the next tag, streams of both sides,
  requests and responses that have arrived and wait to be served, refusal records written per node and code (R289),
  the place in the port set a destination's next packet takes (R295) -/
  fabOps : List FabOp := []
  closedTags : Table (Nat × TagEnd) := []
  nextTag : Nat := 0
  tx : List ((Nat × Nat × Nat) × TxStream) := []
  rx : List ((Nat × Nat × Nat) × RxStream) := []
  arrived : List Req := []
  answers : List Rsp := []
  refusalTimes : List ((Nat × Nat) × Nat) := []
  spread : Table Nat := []
  /-- committed Slice Translation Table entries, at 1,024 × slice + entry; FAB_STT_s_e_1 to _3 hold what is staged (R287) -/
  stt : Table (Word × Word × Word × Word) := []
  /-- merge groups open here, by slot (R186), and the abort filter: group IDs with the time their entry lapses (R189) -/
  groups : Table MergeGroup := []
  abortFilter : List (Nat × Nat) := []
  /-- ports and the messages being reassembled (chapter 12) -/
  ports : Table Port := []
  reasm : List Reassembly := []
  /-- Thresher arrays, by number (chapter 5) -/
  arrays : Table ThrArray := []
  /-- Winnow and Sieve units, by Field (R213, R272) -/
  winnow : Table UnitQueue := []
  sieve : Table UnitQueue := []
  /-- the device's own fabric jobs, by number; for each row updated here, by its address, the last sender and when its
  update arrived (R261) -/
  jobs : Table Job := []
  rowSenders : Table (Nat × Nat) := []
  /-- the handover protocol and copies (chapter 13): messages being resent, adoptions, pushes, parity updates and rebuild
  jobs in progress, by number -/
  exchanges : List Exchange := []
  adoptions : Table Adoption := []
  pushes : Table Push := []
  deltas : List Delta := []
  rebuilds : Table Rebuild := []
  /-- journal records, by slice and index, that the resolution after a warm reset has not reached (R486) -/
  resolving : List (Nat × Nat) := []
  /-- commands that each Field's Reeve has received, the first of them in progress (R401); domains turning on and those
  that wait for the inrush limit, in arrival order (R469) -/
  reeves : Table (List ReeveCmd) := []
  turningOn : List Nat := []
  onWaiting : List Nat := []
  /-- operating bins (R447 to R452): TEMP and VOLT last sampled, by Field, and the events of the window -/
  binSample : Table (Nat × Nat) := []
  binEvents : List BinEvent := []
  /-- patrol scrub (R440): lines visited in this pass by channel, lines corrected and lines poisoned; corrected errors
  since the last summary, by structure (Furrow, then 64 for Granary of Furrow 0, …) (R433) -/
  scrubbed : Table Nat := []
  scrubFixed : Nat := 0
  scrubPoisoned : Nat := 0
  corrected : Table Nat := []
  /-- corrected errors of Granary in the last hour, and rows, by channel, that are due to move to a spare row; channels being
  migrated, and spare channels used by stack (R455); the first TREND feed powers after a cold boot, at
  9 × port + wavelength (R457) -/
  rowErrors : List RowError := []
  rowsDue : List (Nat × Nat) := []
  migrating : List Nat := []
  spareChannels : Table Nat := []
  trendFeed : Table Nat := []
  almanac : Almanac := {}
  /-- physical core of each hart ID (R398, R456), and when hart 0 was released (R424) -/
  harts : List Nat := []
  hartFrom : Option Nat := none
  /-- control cluster: harts that have been started, by hart ID (R399); the interrupt controller (R400); each core's L2 and the
  shared L3, least recently filled first (R391); the access fault each core raised last -/
  started : Table Hart := []
  plic : Plic := {}
  l2 : Table (List CacheLine) := []
  l3 : List CacheLine := []
  coreTraps : Table CoreTrap := []
  /-- heartbeat: when it was last written, and whether it has been since Fallow mode was entered (R412, R415) -/
  beatAt : Nat := 0
  beatSince : Bool := false
  /-- management: sessions by place, messages that Headland sent in the last command in which it sent any, snapshots kept by slice, handshake failures and
  when one was last recorded (R404) -/
  sessions : Table Session := []
  /-- the last whole second of system time at which meters were latched (R396) -/
  snapped : Option Nat := none
  hmpSent : List HmpMsg := []
  snapshots : Table (List Snapshot) := []
  handshakeFails : Nat := 0
  handshakeRec : Option Nat := none
  /-- security: digests measured into M5 and M6 (R426), operations in progress and waiting (R428, R432), bottom trees generated (R430),
  challenges drawn, recovery (R422), management settings of a configuration image by word (R423), the firmware VERSION -/
  osDigests : List (BitVec 384) := []
  sowerDigests : List (BitVec 384) := []
  secQueue : List SecOp := []
  trees : Nat := 1
  drawn : Nat := 0
  recovery : Bool := false
  mgmtNet : Table Word := []
  versions : Table Nat := []
  /-- power: minimal-power mode (R482), rails on, and since when a regulator has been unreachable, by rail (R467); Tilth's estimates of the last ms, newest first: mW by domain and by slice (R471); duties of domains, slices and
  the package, the state each Field's ACLK is held to by the package and the thermal limiter, and since when a limiter's
  condition has been below its release point, by limiter (R472); the correction of the last calibration, when the
  hottest Field was last slowed, samples in a row at TJ_TRIP, when Fields have been
  slow since, and when an event was last recorded, by Field (Table 18-8) -/
  minimal : Bool := false
  rails : List Nat := []
  railBad : Table Nat := []
  estimates : List (List Nat × List Nat) := []
  calibration : Nat := 1000
  domDuty : Table Nat := []
  sliceDuty : Table Nat := []
  pkgDuty : Nat := 64
  /-- the Fields that the package limiter slowed by one state each, the last of them first (R472) -/
  pkgSlow : List Nat := []
  heatSlow : Table Nat := []
  coolSince : Table Nat := []
  pkgStepAt : Nat := 0
  trips : Nat := 0
  slowSince : Option Nat := none
  powerRec : Table Nat := []
  /-- when each bank was last refreshed, and the rows of it refreshed ahead since, by bank (R442) -/
  refreshed : Table Nat := []
  ahead : Table (List Nat) := []
  /-- payload, LOAD and entry point of the images booted, by type, with which a warm reset repeats its stages (R422) -/
  bootImages : Table (List Byte × Nat × Nat) := []
deriving DecidableEq, Repr

/-- The block right after reset: every register at its Reset column's value, every store empty, the supplies not yet
brought up; COLD_RESET runs the power-up sequence (log entry 1). -/
def State.reset : State := {}

end Sys2Proof.Machine
end

