-- ==== Sys2Proof/Machine/Mem.lean ====
section
/-! DEFINITION. Byte memory: reads, writes and the poison mark (R7, R436). Every operation keeps the canonical form
`Memory.wf`. -/

namespace Sys2Proof.Machine

/-- Addresses rise strictly from above `lo`. -/
def cellsRise : Nat → List Host.Cell → Bool
  | _, [] => true
  | lo, (a, b) :: t => lo ≤ a && b != 0 && cellsRise (a + 1) t

/-- Line numbers rise strictly. -/
def linesRise : Nat → List Nat → Bool
  | _, [] => true
  | lo, a :: t => lo ≤ a && linesRise (a + 1) t

/-- The canonical form: addresses rise strictly, no listed byte is zero, marked lines and lines in error rise strictly. -/
def Memory.wf (m : Memory) : Bool := cellsRise 0 m.cells && linesRise 0 m.poison && linesRise 0 m.upset

/-- The byte a cell list holds at `a`; an unlisted byte reads zero. -/
def cellsAt : List Host.Cell → Nat → Byte
  | [], _ => 0
  | (k, b) :: t, a => if k = a then b else cellsAt t a

/-- The byte at an address, poison aside. -/
def Memory.byte (m : Memory) (a : Nat) : Byte := cellsAt m.cells a

/-- Lines that a reader cannot read: those that carry the poison mark (R436), and those whose error the read itself finds
(R437). -/
def Memory.spoilt (m : Memory) : List Nat := m.poison ++ m.upset

/-- Whether the line that holds an address reads as poison. -/
def Memory.marked (m : Memory) (a : Nat) : Bool := m.spoilt.contains (a / 64)

/-- The byte a reader sees: 0xFF in a marked line (R436, R437). -/
def Memory.read (m : Memory) (a : Nat) : Byte := if m.marked a then 0xFF else m.byte a

/-- `n` bytes as a reader sees them. -/
def Memory.readBytes (m : Memory) (a : Nat) : (n : Nat) → List Byte
  | 0 => []
  | n + 1 => m.read a :: m.readBytes (a + 1) n

/-- A little-endian number of `n` bytes. -/
def Memory.readNat (m : Memory) (a n : Nat) : Nat := fromBytes (m.readBytes a n)

/-- The 64-bit word at an address. -/
def Memory.word (m : Memory) (a : Nat) : Word := BitVec.ofNat 64 (m.readNat a 8)

/-- Whether any line of [a, a + n) reads as poison. -/
def Memory.anyPoison (m : Memory) (a n : Nat) : Bool :=
  0 < n && m.spoilt.any (fun l => a / 64 ≤ l && l ≤ (a + n - 1) / 64)

/-- The first line of [a, a + n) whose uncorrectable error nothing has found yet (R437). -/
def Memory.firstUpset (m : Memory) (a n : Nat) : Option Nat :=
  if n = 0 then none else m.upset.find? (fun l => a / 64 ≤ l && l ≤ (a + n - 1) / 64)

/-- The non-zero bytes of a string placed at `a`, as cells. -/
def cellsOf : Nat → List Byte → List Host.Cell
  | _, [] => []
  | a, b :: bs => if b = 0 then cellsOf (a + 1) bs else (a, b) :: cellsOf (a + 1) bs

/-- Cells below `lo`. -/
def cellsBelow (lo : Nat) : List Host.Cell → List Host.Cell
  | [] => []
  | c :: t => if c.1 < lo then c :: cellsBelow lo t else []

/-- Cells at or above `hi`. -/
def cellsFrom (hi : Nat) : List Host.Cell → List Host.Cell
  | [] => []
  | c :: t => if hi ≤ c.1 then c :: t else cellsFrom hi t

/-- Put a line into a rising list of lines. -/
def lineInsert (l : Nat) : List Nat → List Nat
  | [] => [l]
  | k :: t => if k = l then k :: t else if l < k then l :: k :: t else k :: lineInsert l t

/-- Set or clear the mark of `count` lines from `first` on; either way an error not yet found in them is gone. -/
def Memory.markLines (m : Memory) (first count : Nat) (on : Bool) : Memory :=
  let rest := fun (l : Nat) => l < first || first + count ≤ l
  if on then
    { m with poison := (List.range count).foldl (fun p i => lineInsert (first + i) p) m.poison, upset := m.upset.filter rest }
  else { m with poison := m.poison.filter rest, upset := m.upset.filter rest }

/-- Store bytes; a line the bytes cover whole loses its mark, another keeps it (R436). -/
def Memory.writeBytes (m : Memory) (a : Nat) (bs : List Byte) : Memory :=
  let n := bs.length
  let m1 : Memory :=
    { m with cells := cellsBelow a m.cells ++ cellsOf a bs ++ cellsFrom (a + n) m.cells }
  let first := (a + 63) / 64
  m1.markLines first ((a + n) / 64 - first) false

/-- Store bytes and set the mark of every line they touch (R436: a write of poisoned data writes the mark). -/
def Memory.writePoison (m : Memory) (a : Nat) (bs : List Byte) : Memory :=
  if bs.isEmpty then m
  else (m.writeBytes a bs).markLines (a / 64) ((a + bs.length - 1) / 64 - a / 64 + 1) true

/-- Store bytes, poisoned or not. -/
def Memory.store (m : Memory) (a : Nat) (bs : List Byte) (poison : Bool) : Memory :=
  if poison then m.writePoison a bs else m.writeBytes a bs

/-- Store a little-endian number of `n` bytes. -/
def Memory.writeNat (m : Memory) (a n v : Nat) : Memory := m.writeBytes a (toBytes n v)

/-- Store a 64-bit word. -/
def Memory.writeWord (m : Memory) (a : Nat) (w : Word) : Memory := m.writeNat a 8 w.toNat

/-- Store bytes and leave every mark as it is. -/
def Memory.patch (m : Memory) (a : Nat) (bs : List Byte) : Memory :=
  { m with cells := cellsBelow a m.cells ++ cellsOf a bs ++ cellsFrom (a + bs.length) m.cells }

/-- Zero [a, a + n) and clear its marks and errors. -/
def Memory.clear (m : Memory) (a n : Nat) : Memory :=
  { cells := cellsBelow a m.cells ++ cellsFrom (a + n) m.cells
    poison := m.poison.filter (fun l => l < a / 64 || (a + n + 63) / 64 ≤ l)
    upset := m.upset.filter (fun l => l < a / 64 || (a + n + 63) / 64 ≤ l) }

/-- Copy `n` bytes from one memory to another, 64-byte line by line, each line carrying its mark (R436); `n` and the
addresses are multiples of 64. -/
def copyLines (src : Memory) (from' : Nat) (dst : Memory) (to' : Nat) : (lines : Nat) → Memory
  | 0 => dst
  | k + 1 =>
    copyLines src (from' + 64) (dst.store to' (src.readBytes from' 64) (src.marked from')) (to' + 64) k

end Sys2Proof.Machine
end

