-- ==== Sys2Proof/Machine/Regs.lean ====
section
/-! DEFINITION. The register map: where each register lies, its fields, their access types, permitted values and
reset values (Tables 19-1 to 19-11 and the register tables of the owning chapters). -/

namespace Sys2Proof

/-- Access types of R10. -/
inductive Access where
  | ro | rw | rwl | wo | w1c | rc
deriving DecidableEq, Repr

/-- The values a field permits (R511). -/
inductive Permit where
  | any
  | span (lo hi : Nat)
  | zeroOr (lo hi : Nat)
  | pow2OrZero
  /-- above, or below, what the same write gives the field [hi:lo] -/
  | above (hi lo : Nat)
  | below (hi lo : Nat)
deriving DecidableEq, Repr

/-- One field of a register; bits no field lists are reserved (R8). -/
structure RegField where
  name : String
  hi : Nat
  lo : Nat
  acc : Access
  permit : Permit
deriving DecidableEq, Repr

/-- The block whose instance holds a register (Table 19-1). -/
inductive RegBlock where
  | dev | furrow | field | array | port | slice
deriving DecidableEq, Repr

/-- One register: block, offset in the block, counts and strides of its two indices, reset value, fields. -/
structure RegSpec where
  blk : RegBlock
  off : Nat
  cj : Nat
  sj : Nat
  cl : Nat
  sl : Nat
  reset : Word
  fields : List RegField

/-- CHP_ID (chapter 19 Table 19-2). -/
def chpIdSpec : RegSpec := ⟨.dev, 0x0, 1, 0x0, 1, 0x0, 0x4018041009a4,
    [⟨"PART", 15, 0, .ro, .any⟩, ⟨"STEPPING", 23, 16, .ro, .any⟩, ⟨"FIELDS", 31, 24, .ro, .any⟩,
     ⟨"PORTS", 39, 32, .ro, .any⟩, ⟨"FURROWS", 47, 40, .ro, .any⟩]⟩

/-- CHP_SERIAL (chapter 19 Table 19-2). -/
def chpSerialSpec : RegSpec := ⟨.dev, 0x8, 1, 0x0, 1, 0x0, Config.chipSerial,
    [⟨"SERIAL", 63, 0, .ro, .any⟩]⟩

/-- CHP_NODE_ID (chapter 19 Table 19-2, R497). -/
def chpNodeIdSpec : RegSpec := ⟨.dev, 0x10, 1, 0x0, 1, 0x0, 0,
    [⟨"NODE", 13, 0, .rwl, .any⟩, ⟨"VALID", 14, 14, .ro, .any⟩]⟩

/-- CHP_BOOT_CNT (chapter 19 Table 19-2). -/
def chpBootCntSpec : RegSpec := ⟨.dev, 0x18, 1, 0x0, 1, 0x0, 0,
    [⟨"COUNT", 31, 0, .ro, .any⟩]⟩

/-- CHP_HEARTBEAT (chapter 15 R412). -/
def chpHeartbeatSpec : RegSpec := ⟨.dev, 0x20, 1, 0x0, 1, 0x0, 0,
    [⟨"BEAT", 0, 0, .wo, .any⟩]⟩

/-- CHP_HB_CTL (chapter 15 Table 15-13). -/
def chpHbCtlSpec : RegSpec := ⟨.dev, 0x28, 1, 0x0, 1, 0x0, 0x64,
    [⟨"HB_PERIOD", 15, 0, .rw, (.span 10 10000)⟩]⟩

/-- CHP_FALLOW (chapter 15 R413, R415). -/
def chpFallowSpec : RegSpec := ⟨.dev, 0x30, 1, 0x0, 1, 0x0, 0,
    [⟨"FALLOW", 0, 0, .ro, .any⟩, ⟨"EXIT", 1, 1, .wo, .any⟩]⟩

/-- CHP_RECON_CTL (chapter 15 R408, R409). -/
def chpReconCtlSpec : RegSpec := ⟨.dev, 0x38, 1, 0x0, 1, 0x0, 0x3e8000a,
    [⟨"RECON_SETTLE", 7, 0, .rw, (.span 1 255)⟩, ⟨"HELD_LIMIT", 31, 16, .rw, (.span 1 65535)⟩]⟩

/-- CHP_RAS_SCRUB (chapter 17 Table 17-10). -/
def chpRasScrubSpec : RegSpec := ⟨.dev, 0x40, 1, 0x0, 1, 0x0, 0x8000800020018,
    [⟨"PASS_H", 7, 0, .rw, (.span 1 168)⟩, ⟨"SCRUB_CEIL", 23, 8, .rw, (.span 1 8192)⟩,
     ⟨"MIGRATE_CEIL", 39, 24, .rw, (.span 64 8192)⟩, ⟨"ACT_TH", 55, 40, .rw, (.span 256 32768)⟩]⟩

/-- CHP_RAS_SCRUB_STATUS (chapter 17 R440). -/
def chpRasScrubStatusSpec : RegSpec := ⟨.dev, 0x48, 1, 0x0, 1, 0x0, 0,
    [⟨"PASSES", 31, 0, .ro, .any⟩, ⟨"PROGRESS", 38, 32, .ro, .any⟩]⟩

/-- CHP_RAS_GLEAN (chapter 17 R445). -/
def chpRasGleanSpec : RegSpec := ⟨.dev, 0x50, 1, 0x0, 1, 0x0, 0xc,
    [⟨"LOG2N", 4, 0, .rw, (.span 8 16)⟩]⟩

/-- CHP_RAS_BIN (chapter 17 R449). -/
def chpRasBinSpec : RegSpec := ⟨.dev, 0x58, 1, 0x0, 1, 0x0, 0x64b080e10,
    [⟨"WINDOW", 15, 0, .rw, (.span 60 65535)⟩, ⟨"MIN", 23, 16, .rw, (.span 2 255)⟩,
     ⟨"SHARE", 30, 24, .rw, (.span 50 100)⟩, ⟨"TREND_H", 39, 32, .rw, (.span 1 168)⟩]⟩

/-- CHP_RAS_EXCL_CNT (chapter 17 R450). -/
def chpRasExclCntSpec : RegSpec := ⟨.dev, 0x60, 1, 0x0, 1, 0x0, 0,
    [⟨"COUNT", 31, 0, .rc, .any⟩]⟩

/-- CHP_CSR_ERR (chapter 19 R491). -/
def chpCsrErrSpec : RegSpec := ⟨.dev, 0x70, 1, 0x0, 1, 0x0, 0,
    [⟨"OFFSET", 26, 0, .ro, .any⟩, ⟨"WRITE", 27, 27, .ro, .any⟩, ⟨"VALID", 28, 28, .w1c, .any⟩]⟩

/-- CHP_CSR_ERR_CNT (chapter 19 R491). -/
def chpCsrErrCntSpec : RegSpec := ⟨.dev, 0x78, 1, 0x0, 1, 0x0, 0,
    [⟨"COUNT", 31, 0, .rc, .any⟩]⟩

/-- TLT_PKG_CAP (chapter 18 R475). -/
def tltPkgCapSpec : RegSpec := ⟨.dev, 0x100000, 1, 0x0, 1, 0x0, 0x10334,
    [⟨"WATTS", 15, 0, .rw, (.span 300 820)⟩, ⟨"EN", 16, 16, .rw, .any⟩]⟩

/-- TLT_EST (chapter 18 R471). -/
def tltEstSpec : RegSpec := ⟨.dev, 0x100008, 1, 0x0, 1, 0x0, 0,
    [⟨"PKG_W", 15, 0, .ro, .any⟩, ⟨"CORE_A", 31, 16, .ro, .any⟩]⟩

/-- TLT_LIMIT (chapter 18 Table 18-13). -/
def tltLimitSpec : RegSpec := ⟨.dev, 0x100010, 1, 0x0, 1, 0x0, 0,
    [⟨"ACTIVE", 3, 0, .ro, .any⟩]⟩

/-- TLT_THERM (chapter 18 R472, R474). -/
def tltThermSpec : RegSpec := ⟨.dev, 0x100018, 1, 0x0, 1, 0x0, 0x6e64,
    [⟨"TJ_HIGH", 7, 0, .rw, (.span 80 105)⟩, ⟨"TJ_TRIP", 15, 8, .rwl, (.span 100 115)⟩,
     ⟨"TJ_MAX", 23, 16, .ro, .any⟩]⟩

/-- TLT_DROOP (chapter 18 R473). -/
def tltDroopSpec : RegSpec := ⟨.dev, 0x100020, 1, 0x0, 1, 0x0, 0x32,
    [⟨"MARGIN", 5, 0, .rw, (.span 20 63)⟩]⟩

/-- TLT_PMB_ERR_CNT (chapter 18 R467). -/
def tltPmbErrCntSpec : RegSpec := ⟨.dev, 0x100028, 1, 0x0, 1, 0x0, 0,
    [⟨"COUNT", 31, 0, .rc, .any⟩]⟩

/-- TLT_PMB_ADDR (chapter 18 R467). -/
def tltPmbAddrSpec : RegSpec := ⟨.dev, 0x100100, 16, 0x8, 1, 0x0, 0,
    [⟨"ADDR", 6, 0, .rwl, .any⟩, ⟨"RAIL", 10, 8, .rwl, .any⟩, ⟨"PRESENT", 11, 11, .rwl, .any⟩]⟩

/-- TLT_DROOP_CNT (chapter 18 R473). -/
def tltDroopCntSpec : RegSpec := ⟨.dev, 0x100200, 4, 0x8, 1, 0x0, 0,
    [⟨"COUNT", 31, 0, .rc, .any⟩]⟩

/-- TLT_SLICE_CAP (chapter 18 R472). -/
def tltSliceCapSpec : RegSpec := ⟨.dev, 0x100400, 64, 0x8, 1, 0x0, 0,
    [⟨"WATTS", 15, 0, .rw, .any⟩]⟩

/-- TLT_SLICE_EST (chapter 18 R471). -/
def tltSliceEstSpec : RegSpec := ⟨.dev, 0x100600, 64, 0x8, 1, 0x0, 0,
    [⟨"WATTS", 15, 0, .ro, .any⟩]⟩

/-- TLT_DUTY (chapter 18 R472). -/
def tltDutySpec : RegSpec := ⟨.dev, 0x100800, 64, 0x8, 1, 0x0, 0x40,
    [⟨"DUTY", 6, 0, .ro, .any⟩]⟩

/-- TLT_DOM_CAP (chapter 18 R472). -/
def tltDomCapSpec : RegSpec := ⟨.dev, 0x101000, 118, 0x8, 1, 0x0, 0,
    [⟨"CAP", 15, 0, .rw, .any⟩]⟩

/-- CLK_TIME (chapter 18 R480). -/
def clkTimeSpec : RegSpec := ⟨.dev, 0x200000, 1, 0x0, 1, 0x0, 0,
    [⟨"TIME", 63, 0, .ro, .any⟩]⟩

/-- CLK_TIME_STATUS (chapter 18 R480). -/
def clkTimeStatusSpec : RegSpec := ⟨.dev, 0x200008, 1, 0x0, 1, 0x0, 0,
    [⟨"VALID", 0, 0, .ro, .any⟩]⟩

/-- CLK_VCORE (chapter 18 R477). -/
def clkVcoreSpec : RegSpec := ⟨.dev, 0x200010, 1, 0x0, 1, 0x0, 0x2,
    [⟨"LOW", 0, 0, .ro, .any⟩, ⟨"LOW_EN", 1, 1, .rw, .any⟩]⟩

/-- CLK_PLL_STATUS (chapter 18 Table 18-13). -/
def clkPllStatusSpec : RegSpec := ⟨.dev, 0x200018, 1, 0x0, 1, 0x0, 0,
    [⟨"LOCK", 2, 0, .ro, .any⟩]⟩

/-- CLK_RST_CTL (chapter 18 R483). -/
def clkRstCtlSpec : RegSpec := ⟨.dev, 0x200020, 1, 0x0, 1, 0x0, 0,
    [⟨"CMD", 1, 0, .wo, .any⟩, ⟨"CAUSE", 15, 8, .ro, .any⟩]⟩

/-- CLK_RST_SAVE_BASE (chapter 18 R485). -/
def clkRstSaveBaseSpec : RegSpec := ⟨.dev, 0x200028, 1, 0x0, 1, 0x0, 0,
    [⟨"BASE", 63, 0, .rwl, .any⟩]⟩

/-- CLK_RST_STATUS (chapter 18 R485, R486). -/
def clkRstStatusSpec : RegSpec := ⟨.dev, 0x200030, 1, 0x0, 1, 0x0, 0,
    [⟨"SAVE_OK", 0, 0, .ro, .any⟩, ⟨"RESOLVING", 1, 1, .ro, .any⟩, ⟨"WARM_COUNT", 63, 32, .ro, .any⟩]⟩

/-- CLK_DOM_STATUS (chapter 18 Table 18-13). -/
def clkDomStatusSpec : RegSpec := ⟨.dev, 0x200040, 2, 0x8, 1, 0x0, 0,
    [⟨"ON", 63, 0, .ro, .any⟩]⟩

/-- CLK_ACLK (chapter 18 R476). -/
def clkAclkSpec : RegSpec := ⟨.dev, 0x200100, 4, 0x8, 1, 0x0, 0,
    [⟨"STATE", 1, 0, .ro, .any⟩, ⟨"MAX", 3, 2, .rw, .any⟩]⟩

/-- CLK_CCLK (chapter 18 R478). -/
def clkCclkSpec : RegSpec := ⟨.dev, 0x200200, 18, 0x8, 1, 0x0, 0,
    [⟨"STATE", 1, 0, .rw, .any⟩]⟩

/-- ALM_SEQ (chapter 17 R459). -/
def almSeqSpec : RegSpec := ⟨.dev, 0x300000, 1, 0x0, 1, 0x0, 0,
    [⟨"SEQ", 63, 0, .ro, .any⟩]⟩

/-- ALM_PROT_HEAD (chapter 17 Table 17-10). -/
def almProtHeadSpec : RegSpec := ⟨.dev, 0x300008, 1, 0x0, 1, 0x0, 0,
    [⟨"POS", 63, 0, .ro, .any⟩]⟩

/-- ALM_EVENT_HEAD (chapter 17 Table 17-10). -/
def almEventHeadSpec : RegSpec := ⟨.dev, 0x300010, 1, 0x0, 1, 0x0, 0,
    [⟨"POS", 63, 0, .ro, .any⟩]⟩

/-- ALM_READ_CTL (chapter 17 R464). -/
def almReadCtlSpec : RegSpec := ⟨.dev, 0x300018, 1, 0x0, 1, 0x0, 0,
    [⟨"REGION", 2, 0, .rw, .any⟩, ⟨"INDEX", 63, 3, .rw, .any⟩]⟩

/-- ALM_SW_CMD (chapter 17 R465). -/
def almSwCmdSpec : RegSpec := ⟨.dev, 0x300020, 1, 0x0, 1, 0x0, 0,
    [⟨"SEVERITY", 1, 0, .wo, .any⟩]⟩

/-- ALM_DROP_CNT (chapter 17 R460). -/
def almDropCntSpec : RegSpec := ⟨.dev, 0x300028, 1, 0x0, 1, 0x0, 0,
    [⟨"COUNT", 31, 0, .rc, .any⟩]⟩

/-- ALM_PROT_DROP_CNT (chapter 17 R460). -/
def almProtDropCntSpec : RegSpec := ⟨.dev, 0x300030, 1, 0x0, 1, 0x0, 0,
    [⟨"COUNT", 31, 0, .rc, .any⟩]⟩

/-- ALM_TORN_CNT (chapter 17 R461). -/
def almTornCntSpec : RegSpec := ⟨.dev, 0x300038, 1, 0x0, 1, 0x0, 0,
    [⟨"COUNT", 31, 0, .rc, .any⟩]⟩

/-- ALM_READ_DATA (chapter 17 R464). -/
def almReadDataSpec : RegSpec := ⟨.dev, 0x300100, 32, 0x8, 1, 0x0, 0,
    [⟨"WORD", 63, 0, .ro, .any⟩]⟩

/-- ALM_SW_DATA (chapter 17 R465). -/
def almSwDataSpec : RegSpec := ⟨.dev, 0x300200, 24, 0x8, 1, 0x0, 0,
    [⟨"WORD", 63, 0, .rw, .any⟩]⟩

/-- SEC_MBOX_CMD (chapter 16 R428). -/
def secMboxCmdSpec : RegSpec := ⟨.dev, 0x400000, 1, 0x0, 1, 0x0, 0,
    [⟨"CMD", 7, 0, .wo, .any⟩]⟩

/-- SEC_MBOX_ARG (chapter 16 R428). -/
def secMboxArgSpec : RegSpec := ⟨.dev, 0x400008, 1, 0x0, 1, 0x0, 0,
    [⟨"ARG", 63, 0, .rw, .any⟩]⟩

/-- SEC_MBOX_STATUS (chapter 16 R428). -/
def secMboxStatusSpec : RegSpec := ⟨.dev, 0x400010, 1, 0x0, 1, 0x0, 0,
    [⟨"CODE", 7, 0, .ro, .any⟩, ⟨"BUSY", 8, 8, .ro, .any⟩, ⟨"DONE", 9, 9, .w1c, .any⟩,
     ⟨"OVERRUN", 10, 10, .w1c, .any⟩]⟩

/-- SEC_LOCK (chapter 16 R424). -/
def secLockSpec : RegSpec := ⟨.dev, 0x400018, 1, 0x0, 1, 0x0, 0,
    [⟨"REPAIR", 0, 0, .ro, .any⟩, ⟨"CONFIG", 1, 1, .ro, .any⟩]⟩

/-- SEC_LOCK_CTL (chapter 16 R424). -/
def secLockCtlSpec : RegSpec := ⟨.dev, 0x400020, 1, 0x0, 1, 0x0, 0x2710,
    [⟨"LOCK_DEADLINE", 15, 0, .rwl, (.span 100 60000)⟩]⟩

/-- SEC_STATUS (chapter 16 R417, R422). -/
def secStatusSpec : RegSpec := ⟨.dev, 0x400028, 1, 0x0, 1, 0x0, 0,
    [⟨"IDENT_FAIL", 0, 0, .ro, .any⟩, ⟨"BANK", 1, 1, .ro, .any⟩, ⟨"FALLBACK", 2, 2, .ro, .any⟩]⟩

/-- SEC_MEAS (chapter 16 R425). -/
def secMeasSpec : RegSpec := ⟨.dev, 0x400100, 8, 0x30, 6, 0x8, 0,
    [⟨"WORD", 63, 0, .ro, .any⟩]⟩

/-- SEC_ARB (chapter 16 R421). -/
def secArbSpec : RegSpec := ⟨.dev, 0x400300, 16, 0x8, 1, 0x0, 0,
    [⟨"COUNT", 31, 0, .ro, .any⟩]⟩

/-- FRW_CQ_BASE (chapter 04 Table 4-2). -/
def frwCqBaseSpec : RegSpec := ⟨.furrow, 0x0, 4, 0x20, 1, 0x0, 0,
    [⟨"BASE", 63, 0, .rw, .any⟩]⟩

/-- FRW_CQ_CTL (chapter 04 Table 4-2, R94). -/
def frwCqCtlSpec : RegSpec := ⟨.furrow, 0x8, 4, 0x20, 1, 0x0, 0x4,
    [⟨"LOG2SIZE", 3, 0, .rw, (.span 4 12)⟩, ⟨"EN", 4, 4, .rw, .any⟩, ⟨"STOPPED", 5, 5, .w1c, .any⟩,
     ⟨"ABORT", 6, 6, .wo, .any⟩, ⟨"TAIL_ERR", 7, 7, .w1c, .any⟩]⟩

/-- FRW_CQ_HEAD (chapter 04 R94). -/
def frwCqHeadSpec : RegSpec := ⟨.furrow, 0x10, 4, 0x20, 1, 0x0, 0,
    [⟨"HEAD", 11, 0, .ro, .any⟩]⟩

/-- FRW_CQ_TAIL (chapter 04 R94). -/
def frwCqTailSpec : RegSpec := ⟨.furrow, 0x18, 4, 0x20, 1, 0x0, 0,
    [⟨"TAIL", 11, 0, .rw, .any⟩]⟩

/-- FRW_SLICE (chapter 15 R391). -/
def frwSliceSpec : RegSpec := ⟨.furrow, 0x1000, 1, 0x0, 1, 0x0, 0,
    [⟨"SLICE", 5, 0, .rw, .any⟩, ⟨"BOUND", 6, 6, .rw, .any⟩]⟩

/-- FRW_EXC_STATUS (chapter 04 Table 4-7). -/
def frwExcStatusSpec : RegSpec := ⟨.furrow, 0x1008, 1, 0x0, 1, 0x0, 0,
    [⟨"CODE", 7, 0, .ro, .any⟩, ⟨"SLOT", 10, 8, .ro, .any⟩, ⟨"QUEUE", 12, 11, .ro, .any⟩,
     ⟨"VALID", 13, 13, .w1c, .any⟩, ⟨"OVERRUN", 14, 14, .w1c, .any⟩, ⟨"TAG", 63, 32, .ro, .any⟩]⟩

/-- FRW_EXC_PC (chapter 04 Table 4-7). -/
def frwExcPcSpec : RegSpec := ⟨.furrow, 0x1010, 1, 0x0, 1, 0x0, 0,
    [⟨"PC", 11, 0, .ro, .any⟩]⟩

/-- FRW_EXC_INFO (chapter 04 Table 4-7). -/
def frwExcInfoSpec : RegSpec := ⟨.furrow, 0x1018, 1, 0x0, 1, 0x0, 0,
    [⟨"INFO", 63, 0, .ro, .any⟩]⟩

/-- FRW_WDOG (chapter 04 Table 4-7). -/
def frwWdogSpec : RegSpec := ⟨.furrow, 0x1020, 1, 0x0, 1, 0x0, 0x4000,
    [⟨"LIMIT", 31, 0, .rw, .any⟩]⟩

/-- FRW_GLN_HIT_CNT (chapter 09 Table 9-8). -/
def frwGlnHitCntSpec : RegSpec := ⟨.furrow, 0x1028, 1, 0x0, 1, 0x0, 0,
    [⟨"COUNT", 31, 0, .rc, .any⟩]⟩

/-- FRW_GLN_MISS_CNT (chapter 09 Table 9-8). -/
def frwGlnMissCntSpec : RegSpec := ⟨.furrow, 0x1030, 1, 0x0, 1, 0x0, 0,
    [⟨"COUNT", 31, 0, .rc, .any⟩]⟩

/-- FRW_RAS_STATUS (chapter 17 R437). -/
def frwRasStatusSpec : RegSpec := ⟨.furrow, 0x1038, 1, 0x0, 1, 0x0, 0,
    [⟨"POISON_READ", 0, 0, .w1c, .any⟩]⟩

/-- FRW_RAS_CE_CNT (chapter 17 Table 17-10). -/
def frwRasCeCntSpec : RegSpec := ⟨.furrow, 0x1040, 1, 0x0, 1, 0x0, 0,
    [⟨"COUNT", 31, 0, .rc, .any⟩]⟩

/-- FRW_RAS_UE_CNT (chapter 17 Table 17-10). -/
def frwRasUeCntSpec : RegSpec := ⟨.furrow, 0x1048, 1, 0x0, 1, 0x0, 0,
    [⟨"COUNT", 31, 0, .rc, .any⟩]⟩

/-- FRW_GRN_CE_CNT (chapter 17 R440). -/
def frwGrnCeCntSpec : RegSpec := ⟨.furrow, 0x1050, 1, 0x0, 1, 0x0, 0,
    [⟨"COUNT", 31, 0, .rc, .any⟩]⟩

/-- FRW_GRN_UE_CNT (chapter 17 R440). -/
def frwGrnUeCntSpec : RegSpec := ⟨.furrow, 0x1058, 1, 0x0, 1, 0x0, 0,
    [⟨"COUNT", 31, 0, .rc, .any⟩]⟩

/-- HSK_CORRUPT_CNT (chapter 08 R208). -/
def hskCorruptCntSpec : RegSpec := ⟨.furrow, 0x1060, 1, 0x0, 1, 0x0, 0,
    [⟨"COUNT", 31, 0, .rc, .any⟩]⟩

/-- HSK_FLUSH_CNT (chapter 08 R195). -/
def hskFlushCntSpec : RegSpec := ⟨.furrow, 0x1068, 1, 0x0, 1, 0x0, 0,
    [⟨"COUNT", 31, 0, .rc, .any⟩]⟩

/-- HSK_NONFINITE_CNT (chapter 08 R210). -/
def hskNonfiniteCntSpec : RegSpec := ⟨.furrow, 0x1070, 1, 0x0, 1, 0x0, 0,
    [⟨"COUNT", 31, 0, .rc, .any⟩]⟩

/-- HSK_CB_MISS_CNT (chapter 08 R205). -/
def hskCbMissCntSpec : RegSpec := ⟨.furrow, 0x1078, 1, 0x0, 1, 0x0, 0,
    [⟨"COUNT", 31, 0, .rc, .any⟩]⟩

/-- FRW_GLN_REG (chapter 09 R243). -/
def frwGlnRegSpec : RegSpec := ⟨.furrow, 0x1100, 16, 0x8, 1, 0x0, 0xa,
    [⟨"INTERVAL", 9, 0, .rw, (.span 1 1000)⟩, ⟨"PROMOTE", 10, 10, .rw, .any⟩, ⟨"EN", 11, 11, .rw, .any⟩]⟩

/-- FRW_QST_CTL (chapter 06 Table 6-9). -/
def frwQstCtlSpec : RegSpec := ⟨.furrow, 0x1200, 4, 0x200, 1, 0x0, 0xf0,
    [⟨"BASE", 7, 0, .rw, .any⟩, ⟨"CLR", 8, 8, .wo, .any⟩]⟩

/-- FRW_QST_SSE (chapter 06 Table 6-8). -/
def frwQstSseSpec : RegSpec := ⟨.furrow, 0x1208, 4, 0x200, 1, 0x0, 0,
    [⟨"SSE", 31, 0, .ro, .any⟩]⟩

/-- FRW_QST_SSX (chapter 06 Table 6-8). -/
def frwQstSsxSpec : RegSpec := ⟨.furrow, 0x1210, 4, 0x200, 1, 0x0, 0,
    [⟨"SSX", 31, 0, .ro, .any⟩]⟩

/-- FRW_QST_COUNT (chapter 06 Table 6-8). -/
def frwQstCountSpec : RegSpec := ⟨.furrow, 0x1218, 4, 0x200, 1, 0x0, 0,
    [⟨"COUNT", 31, 0, .ro, .any⟩]⟩

/-- FRW_QST_CLIP (chapter 06 Table 6-8). -/
def frwQstClipSpec : RegSpec := ⟨.furrow, 0x1220, 4, 0x200, 1, 0x0, 0,
    [⟨"CLIP", 31, 0, .ro, .any⟩]⟩

/-- FRW_QST_HIST (chapter 06 R157). -/
def frwQstHistSpec : RegSpec := ⟨.furrow, 0x1300, 4, 0x200, 32, 0x8, 0,
    [⟨"COUNT", 31, 0, .ro, .any⟩]⟩

/-- FLD_REEVE_CMD (chapter 15 R401). -/
def fldReeveCmdSpec : RegSpec := ⟨.field, 0x0, 1, 0x0, 1, 0x0, 0,
    [⟨"CMD", 7, 0, .wo, .any⟩, ⟨"UNIT", 23, 8, .wo, .any⟩]⟩

/-- FLD_REEVE_RSP (chapter 15 R401). -/
def fldReeveRspSpec : RegSpec := ⟨.field, 0x8, 1, 0x0, 1, 0x0, 0,
    [⟨"STATUS", 7, 0, .ro, .any⟩, ⟨"DONE", 8, 8, .w1c, .any⟩]⟩

/-- FLD_REEVE_MSG (chapter 15 R402, R490). -/
def fldReeveMsgSpec : RegSpec := ⟨.field, 0x10, 1, 0x0, 1, 0x0, 0,
    [⟨"MSG", 63, 0, .rc, .any⟩]⟩

/-- FLD_REEVE_MSG_HI (chapter 15 R402, R490). -/
def fldReeveMsgHiSpec : RegSpec := ⟨.field, 0x18, 1, 0x0, 1, 0x0, 0,
    [⟨"MSG_HI", 63, 0, .ro, .any⟩]⟩

/-- FLD_REEVE_STATUS (chapter 15 R402). -/
def fldReeveStatusSpec : RegSpec := ⟨.field, 0x20, 1, 0x0, 1, 0x0, 0,
    [⟨"COUNT", 8, 0, .ro, .any⟩, ⟨"OVERRUN", 9, 9, .w1c, .any⟩]⟩

/-- FLD_THR_REDIRECT_CNT (chapter 05 R135). -/
def fldThrRedirectCntSpec : RegSpec := ⟨.field, 0x28, 1, 0x0, 1, 0x0, 0,
    [⟨"COUNT", 31, 0, .rc, .any⟩]⟩

/-- FLD_WIN_STATUS (chapter 08 Table 8-12). -/
def fldWinStatusSpec : RegSpec := ⟨.field, 0x30, 1, 0x0, 1, 0x0, 0,
    [⟨"AVAILABLE", 0, 0, .ro, .any⟩, ⟨"QUEUED", 7, 1, .ro, .any⟩]⟩

/-- FLD_WIN_EXCL_CNT (chapter 08 R216). -/
def fldWinExclCntSpec : RegSpec := ⟨.field, 0x38, 1, 0x0, 1, 0x0, 0,
    [⟨"COUNT", 31, 0, .rc, .any⟩]⟩

/-- FLD_SIEVE_STATUS (chapter 10 Table 10-10). -/
def fldSieveStatusSpec : RegSpec := ⟨.field, 0x40, 1, 0x0, 1, 0x0, 0,
    [⟨"AVAILABLE", 0, 0, .ro, .any⟩, ⟨"QUEUED", 6, 1, .ro, .any⟩]⟩

/-- FLD_SIEVE_DEAD_CNT (chapter 10 R268). -/
def fldSieveDeadCntSpec : RegSpec := ⟨.field, 0x48, 1, 0x0, 1, 0x0, 0,
    [⟨"COUNT", 31, 0, .rc, .any⟩]⟩

/-- FLD_SIEVE_BADID_CNT (chapter 10 R266). -/
def fldSieveBadidCntSpec : RegSpec := ⟨.field, 0x50, 1, 0x0, 1, 0x0, 0,
    [⟨"COUNT", 31, 0, .rc, .any⟩]⟩

/-- FLD_SMP_NAN_CNT (chapter 10 Table 10-7). -/
def fldSmpNanCntSpec : RegSpec := ⟨.field, 0x58, 1, 0x0, 1, 0x0, 0,
    [⟨"COUNT", 31, 0, .rc, .any⟩]⟩

/-- FLD_SMP_FIX_CNT (chapter 10 R271). -/
def fldSmpFixCntSpec : RegSpec := ⟨.field, 0x60, 1, 0x0, 1, 0x0, 0,
    [⟨"COUNT", 31, 0, .rc, .any⟩]⟩

/-- FLD_SMP_TRUNC_CNT (chapter 10 Table 10-7). -/
def fldSmpTruncCntSpec : RegSpec := ⟨.field, 0x68, 1, 0x0, 1, 0x0, 0,
    [⟨"COUNT", 31, 0, .rc, .any⟩]⟩

/-- THR_CTL (chapter 05 R131). -/
def thrCtlSpec : RegSpec := ⟨.array, 0x0, 1, 0x0, 1, 0x0, 0x1,
    [⟨"RETRY", 0, 0, .rw, .any⟩]⟩

/-- THR_TOL (chapter 05 R138). -/
def thrTolSpec : RegSpec := ⟨.array, 0x8, 1, 0x0, 1, 0x0, 0x1010,
    [⟨"T16", 4, 0, .rw, (.span 8 18)⟩, ⟨"T8", 12, 8, .rw, (.span 8 18)⟩]⟩

/-- THR_STATUS (chapter 05 Table 5-7). -/
def thrStatusSpec : RegSpec := ⟨.array, 0x10, 1, 0x0, 1, 0x0, 0,
    [⟨"AVAILABLE", 0, 0, .ro, .any⟩, ⟨"REPAIRED", 1, 1, .ro, .any⟩, ⟨"FAILED", 2, 2, .ro, .any⟩,
     ⟨"FENCED", 3, 3, .ro, .any⟩, ⟨"POWERED", 4, 4, .ro, .any⟩, ⟨"QUEUED", 10, 5, .ro, .any⟩]⟩

/-- THR_RMAP_ROW (chapter 05 R133). -/
def thrRmapRowSpec : RegSpec := ⟨.array, 0x18, 1, 0x0, 1, 0x0, 0,
    [⟨"FROM_0", 7, 0, .rwl, .any⟩, ⟨"FROM_1", 15, 8, .rwl, .any⟩, ⟨"FROM_2", 23, 16, .rwl, .any⟩,
     ⟨"V", 26, 24, .rwl, .any⟩]⟩

/-- THR_RMAP_COL0 (chapter 05 R133). -/
def thrRmapCol0Spec : RegSpec := ⟨.array, 0x20, 1, 0x0, 1, 0x0, 0,
    [⟨"E0", 10, 0, .rwl, .any⟩, ⟨"E1", 21, 11, .rwl, .any⟩, ⟨"E2", 32, 22, .rwl, .any⟩, ⟨"E3", 43, 33, .rwl, .any⟩]⟩

/-- THR_RMAP_COL1 (chapter 05 R133). -/
def thrRmapCol1Spec : RegSpec := ⟨.array, 0x28, 1, 0x0, 1, 0x0, 0,
    [⟨"E4", 10, 0, .rwl, .any⟩, ⟨"E5", 21, 11, .rwl, .any⟩, ⟨"E6", 32, 22, .rwl, .any⟩]⟩

/-- THR_CHK_CNT (chapter 05 R132). -/
def thrChkCntSpec : RegSpec := ⟨.array, 0x30, 1, 0x0, 1, 0x0, 0,
    [⟨"COUNT", 31, 0, .rc, .any⟩]⟩

/-- THR_CHK_TRANS_CNT (chapter 05 R132). -/
def thrChkTransCntSpec : RegSpec := ⟨.array, 0x38, 1, 0x0, 1, 0x0, 0,
    [⟨"COUNT", 31, 0, .rc, .any⟩]⟩

/-- THR_CHK_SKIP_CNT (chapter 05 R130). -/
def thrChkSkipCntSpec : RegSpec := ⟨.array, 0x40, 1, 0x0, 1, 0x0, 0,
    [⟨"COUNT", 31, 0, .rc, .any⟩]⟩

/-- THR_SAT_CNT (chapter 05 R120). -/
def thrSatCntSpec : RegSpec := ⟨.array, 0x48, 1, 0x0, 1, 0x0, 0,
    [⟨"COUNT", 31, 0, .rc, .any⟩]⟩

/-- THR_SSAT_CNT (chapter 06 R145). -/
def thrSsatCntSpec : RegSpec := ⟨.array, 0x50, 1, 0x0, 1, 0x0, 0,
    [⟨"COUNT", 31, 0, .rc, .any⟩]⟩

/-- THR_GLEAN_CNT (chapter 17 R445). -/
def thrGleanCntSpec : RegSpec := ⟨.array, 0x58, 1, 0x0, 1, 0x0, 0,
    [⟨"COUNT", 31, 0, .rc, .any⟩]⟩

/-- THR_GLEAN_MIS_CNT (chapter 17 R446). -/
def thrGleanMisCntSpec : RegSpec := ⟨.array, 0x60, 1, 0x0, 1, 0x0, 0,
    [⟨"COUNT", 31, 0, .rc, .any⟩]⟩

/-- THR_OPS_OWN (chapter 05 R138). -/
def thrOpsOwnSpec : RegSpec := ⟨.array, 0x400, 128, 0x8, 1, 0x0, 0,
    [⟨"SLICE", 5, 0, .rw, .any⟩, ⟨"VALID", 6, 6, .rw, .any⟩]⟩

/-- PRT_CTL (chapter 12 Table 12-7). -/
def prtCtlSpec : RegSpec := ⟨.port, 0x0, 1, 0x0, 1, 0x0, 0xc,
    [⟨"EN", 0, 0, .rw, .any⟩, ⟨"FEC", 1, 1, .rw, .any⟩, ⟨"HALF_OK", 2, 2, .rw, .any⟩, ⟨"AUTO", 3, 3, .rw, .any⟩,
     ⟨"RETRAIN", 4, 4, .wo, .any⟩]⟩

/-- PRT_STATUS (chapter 12 Table 12-7). -/
def prtStatusSpec : RegSpec := ⟨.port, 0x8, 1, 0x0, 1, 0x0, 0,
    [⟨"STATE", 2, 0, .ro, .any⟩, ⟨"REASON", 10, 3, .ro, .any⟩, ⟨"TX_HALF", 11, 11, .ro, .any⟩,
     ⟨"RX_HALF", 12, 12, .ro, .any⟩, ⟨"CHANGE", 13, 13, .w1c, .any⟩, ⟨"PEER", 27, 14, .ro, .any⟩,
     ⟨"PEER_ENGINE", 28, 28, .ro, .any⟩]⟩

/-- PRT_STATUS_TIME (chapter 12 R319). -/
def prtStatusTimeSpec : RegSpec := ⟨.port, 0x10, 1, 0x0, 1, 0x0, 0,
    [⟨"TIME", 63, 0, .ro, .any⟩]⟩

/-- PRT_LANE_MAP (chapter 12 R304). -/
def prtLaneMapSpec : RegSpec := ⟨.port, 0x18, 1, 0x0, 1, 0x0, 0x876543210,
    [⟨"LANES", 31, 0, .ro, .any⟩, ⟨"SPARE", 35, 32, .ro, .any⟩]⟩

/-- PRT_LANE_STATUS (chapter 12 Table 12-7). -/
def prtLaneStatusSpec : RegSpec := ⟨.port, 0x20, 1, 0x0, 1, 0x0, 0,
    [⟨"LANES", 26, 0, .ro, .any⟩, ⟨"FEED_WARN", 35, 27, .ro, .any⟩]⟩

/-- PRT_FEED_TH (chapter 12 R325). -/
def prtFeedThSpec : RegSpec := ⟨.port, 0x28, 1, 0x0, 1, 0x0, 0x9c41388,
    [⟨"WARN", 15, 0, .rw, .any⟩, ⟨"ALARM", 31, 16, .rw, .below 15 0⟩]⟩

/-- PRT_SCHED (chapter 12 R328). -/
def prtSchedSpec : RegSpec := ⟨.port, 0x30, 1, 0x0, 1, 0x0, 0x1010101010101010,
    [⟨"W_0", 7, 0, .rw, (.span 1 255)⟩, ⟨"W_1", 15, 8, .rw, (.span 1 255)⟩, ⟨"W_2", 23, 16, .rw, (.span 1 255)⟩,
     ⟨"W_3", 31, 24, .rw, (.span 1 255)⟩, ⟨"W_4", 39, 32, .rw, (.span 1 255)⟩,
     ⟨"W_5", 47, 40, .rw, (.span 1 255)⟩, ⟨"W_6", 55, 48, .rw, (.span 1 255)⟩, ⟨"W_7", 63, 56, .rw, (.span 1 255)⟩]⟩

/-- PRT_SCHED_CTL (chapter 12 R330). -/
def prtSchedCtlSpec : RegSpec := ⟨.port, 0x38, 1, 0x0, 1, 0x0, 0x1,
    [⟨"STRICT7", 0, 0, .rw, .any⟩]⟩

/-- PRT_TIME (chapter 12 R326). -/
def prtTimeSpec : RegSpec := ⟨.port, 0x40, 1, 0x0, 1, 0x0, 0x1,
    [⟨"BEACON", 0, 0, .rw, .any⟩, ⟨"UPSTREAM", 1, 1, .rw, .any⟩]⟩

/-- PRT_TIME_DELAY (chapter 12 R326). -/
def prtTimeDelaySpec : RegSpec := ⟨.port, 0x48, 1, 0x0, 1, 0x0, 0,
    [⟨"DELAY", 31, 0, .ro, .any⟩]⟩

/-- PRT_TIME_OFF (chapter 12 R326). -/
def prtTimeOffSpec : RegSpec := ⟨.port, 0x50, 1, 0x0, 1, 0x0, 0,
    [⟨"OFFSET", 31, 0, .ro, .any⟩]⟩

/-- PRT_PV_CTL (chapter 11 R303). -/
def prtPvCtlSpec : RegSpec := ⟨.port, 0x58, 1, 0x0, 1, 0x0, 0x110,
    [⟨"THRESH", 7, 0, .rw, (.span 1 255)⟩, ⟨"WINDOW", 15, 8, .rw, (.span 1 255)⟩]⟩

/-- PRT_PV_STATUS (chapter 11 R303). -/
def prtPvStatusSpec : RegSpec := ⟨.port, 0x60, 1, 0x0, 1, 0x0, 0,
    [⟨"QUARANTINED", 0, 0, .ro, .any⟩, ⟨"EVENT", 1, 1, .w1c, .any⟩]⟩

/-- PRT_FEC_CORR_CNT (chapter 12 R309). -/
def prtFecCorrCntSpec : RegSpec := ⟨.port, 0x68, 1, 0x0, 1, 0x0, 0,
    [⟨"COUNT", 31, 0, .rc, .any⟩]⟩

/-- PRT_FEC_UNCORR_CNT (chapter 12 R309). -/
def prtFecUncorrCntSpec : RegSpec := ⟨.port, 0x70, 1, 0x0, 1, 0x0, 0,
    [⟨"COUNT", 31, 0, .rc, .any⟩]⟩

/-- PRT_CRC_CNT (chapter 12 R310). -/
def prtCrcCntSpec : RegSpec := ⟨.port, 0x78, 1, 0x0, 1, 0x0, 0,
    [⟨"COUNT", 31, 0, .rc, .any⟩]⟩

/-- PRT_LINK_ERR_CNT (chapter 12 R310, R314). -/
def prtLinkErrCntSpec : RegSpec := ⟨.port, 0x80, 1, 0x0, 1, 0x0, 0,
    [⟨"COUNT", 31, 0, .rc, .any⟩]⟩

/-- PRT_REPLAY_CNT (chapter 12 R316). -/
def prtReplayCntSpec : RegSpec := ⟨.port, 0x88, 1, 0x0, 1, 0x0, 0,
    [⟨"COUNT", 31, 0, .rc, .any⟩]⟩

/-- PRT_REMAP_CNT (chapter 12 R306). -/
def prtRemapCntSpec : RegSpec := ⟨.port, 0x90, 1, 0x0, 1, 0x0, 0,
    [⟨"COUNT", 31, 0, .rc, .any⟩]⟩

/-- PRT_RETRAIN_CNT (chapter 12 R319). -/
def prtRetrainCntSpec : RegSpec := ⟨.port, 0x98, 1, 0x0, 1, 0x0, 0,
    [⟨"COUNT", 31, 0, .rc, .any⟩]⟩

/-- PRT_FEED_PWR (chapter 12 R324). -/
def prtFeedPwrSpec : RegSpec := ⟨.port, 0x100, 9, 0x8, 1, 0x0, 0,
    [⟨"POWER", 15, 0, .ro, .any⟩]⟩

/-- PRT_CREDIT (chapter 12 R315). -/
def prtCreditSpec : RegSpec := ⟨.port, 0x180, 8, 0x8, 1, 0x0, 0,
    [⟨"FREE", 9, 0, .ro, .any⟩]⟩

/-- PRT_PV_CNT (chapter 11 R302). -/
def prtPvCntSpec : RegSpec := ⟨.port, 0x200, 14, 0x8, 1, 0x0, 0,
    [⟨"COUNT", 31, 0, .rc, .any⟩]⟩

/-- SHP_CFG (chapter 12 R331, R332). -/
def shpCfgSpec : RegSpec := ⟨.port, 0x1000, 64, 0x8, 1, 0x0, 0x23000000,
    [⟨"RATE", 16, 0, .rw, (.span 0 128000)⟩, ⟨"BURST", 39, 17, .rw, (.span 4480 8388607)⟩,
     ⟨"OVERHEAD", 47, 40, .rw, .any⟩, ⟨"EN", 48, 48, .rw, .any⟩, ⟨"FILL", 49, 49, .wo, .any⟩]⟩

/-- SHP_LEVEL (chapter 12 R331). -/
def shpLevelSpec : RegSpec := ⟨.port, 0x1200, 64, 0x8, 1, 0x0, 0,
    [⟨"LEVEL", 31, 0, .ro, .any⟩]⟩

/-- PRT_POL (chapter 12 R333). -/
def prtPolSpec : RegSpec := ⟨.port, 0x1400, 64, 0x8, 1, 0x0, 0x23000000,
    [⟨"RATE", 16, 0, .rw, (.span 0 128000)⟩, ⟨"BURST", 39, 17, .rw, (.span 4480 8388607)⟩,
     ⟨"OVERHEAD", 47, 40, .rw, .any⟩, ⟨"EN", 48, 48, .rw, .any⟩, ⟨"FILL", 49, 49, .wo, .any⟩,
     ⟨"ACTION", 50, 50, .rw, .any⟩]⟩

/-- PRT_POL_CNT (chapter 12 R333). -/
def prtPolCntSpec : RegSpec := ⟨.port, 0x1600, 64, 0x8, 1, 0x0, 0,
    [⟨"MARKED", 31, 0, .rc, .any⟩, ⟨"DROPPED", 63, 32, .rc, .any⟩]⟩

/-- FAB_TIMEOUT (chapter 11 R297). -/
def fabTimeoutSpec : RegSpec := ⟨.dev, 0x3000000, 1, 0x0, 1, 0x0, 0x8,
    [⟨"US", 6, 0, .rw, (.span 1 64)⟩]⟩

/-- FAB_MG_WINDOW (chapter 07 Table 7-6). -/
def fabMgWindowSpec : RegSpec := ⟨.dev, 0x3000008, 1, 0x0, 1, 0x0, 0x64,
    [⟨"WINDOW", 15, 0, .rw, (.span 10 200)⟩]⟩

/-- FAB_ROW_WIN (chapter 10 R261). -/
def fabRowWinSpec : RegSpec := ⟨.dev, 0x3000010, 1, 0x0, 1, 0x0, 0xa,
    [⟨"WIN", 9, 0, .rw, (.span 1 1000)⟩]⟩

/-- FAB_HO_LEASE (chapter 13 Table 13-10, R29). -/
def fabHoLeaseSpec : RegSpec := ⟨.dev, 0x3000018, 1, 0x0, 1, 0x0, 0xc8,
    [⟨"US", 15, 0, .rw, (.span 4 65535)⟩]⟩

/-- FAB_HO_CTL (chapter 13 Table 13-10). -/
def fabHoCtlSpec : RegSpec := ⟨.dev, 0x3000020, 1, 0x0, 1, 0x0, 0x1401f4,
    [⟨"OFFER_TO", 15, 0, .rw, (.span 1 65535)⟩, ⟨"RETRY", 23, 16, .rw, (.span 1 255)⟩]⟩

/-- PRT_REASM_DROP_CNT (chapter 12 R312). -/
def prtReasmDropCntSpec : RegSpec := ⟨.dev, 0x3000028, 1, 0x0, 1, 0x0, 0,
    [⟨"COUNT", 31, 0, .rc, .any⟩]⟩

/-- FAB_STT_REFUSED_CNT (chapter 11 R287). -/
def fabSttRefusedCntSpec : RegSpec := ⟨.dev, 0x3000100, 1, 0x0, 1, 0x0, 0,
    [⟨"COUNT", 31, 0, .rc, .any⟩]⟩

/-- FAB_REFUSE_IN_CNT (chapter 11 R289). -/
def fabRefuseInCntSpec : RegSpec := ⟨.dev, 0x3000108, 1, 0x0, 1, 0x0, 0,
    [⟨"COUNT", 31, 0, .rc, .any⟩]⟩

/-- FAB_REFUSE_OUT_CNT (chapter 11 R289). -/
def fabRefuseOutCntSpec : RegSpec := ⟨.dev, 0x3000110, 1, 0x0, 1, 0x0, 0,
    [⟨"COUNT", 31, 0, .rc, .any⟩]⟩

/-- FAB_TIMEOUT_CNT (chapter 11 R297). -/
def fabTimeoutCntSpec : RegSpec := ⟨.dev, 0x3000118, 1, 0x0, 1, 0x0, 0,
    [⟨"COUNT", 31, 0, .rc, .any⟩]⟩

/-- FAB_LATE_CNT (chapter 11 R299). -/
def fabLateCntSpec : RegSpec := ⟨.dev, 0x3000120, 1, 0x0, 1, 0x0, 0,
    [⟨"COUNT", 31, 0, .rc, .any⟩]⟩

/-- FAB_RETRY_CNT (chapter 11 R292). -/
def fabRetryCntSpec : RegSpec := ⟨.dev, 0x3000128, 1, 0x0, 1, 0x0, 0,
    [⟨"COUNT", 31, 0, .rc, .any⟩]⟩

/-- FAB_SEQ_LOST_CNT (chapter 11 R293). -/
def fabSeqLostCntSpec : RegSpec := ⟨.dev, 0x3000130, 1, 0x0, 1, 0x0, 0,
    [⟨"COUNT", 31, 0, .rc, .any⟩]⟩

/-- FAB_NOTIFY_DROP_CNT (chapter 11 R284). -/
def fabNotifyDropCntSpec : RegSpec := ⟨.dev, 0x3000138, 1, 0x0, 1, 0x0, 0,
    [⟨"COUNT", 31, 0, .rc, .any⟩]⟩

/-- FAB_MG_ABORT_CNT (chapter 07 Table 7-6). -/
def fabMgAbortCntSpec : RegSpec := ⟨.dev, 0x3000140, 1, 0x0, 1, 0x0, 0,
    [⟨"COUNT", 31, 0, .rc, .any⟩]⟩

/-- FAB_MG_LATE_CNT (chapter 07 R191). -/
def fabMgLateCntSpec : RegSpec := ⟨.dev, 0x3000148, 1, 0x0, 1, 0x0, 0,
    [⟨"COUNT", 31, 0, .rc, .any⟩]⟩

/-- FAB_MG_FILTER_CNT (chapter 07 R189). -/
def fabMgFilterCntSpec : RegSpec := ⟨.dev, 0x3000150, 1, 0x0, 1, 0x0, 0,
    [⟨"COUNT", 31, 0, .rc, .any⟩]⟩

/-- FAB_ROW_CONFLICT_CNT (chapter 10 R261). -/
def fabRowConflictCntSpec : RegSpec := ⟨.dev, 0x3000158, 1, 0x0, 1, 0x0, 0,
    [⟨"COUNT", 31, 0, .rc, .any⟩]⟩

/-- FAB_ROW_COALESCE_CNT (chapter 10 R260). -/
def fabRowCoalesceCntSpec : RegSpec := ⟨.dev, 0x3000160, 1, 0x0, 1, 0x0, 0,
    [⟨"COUNT", 31, 0, .rc, .any⟩]⟩

/-- FAB_HO_STALE_CNT (chapter 13 R339). -/
def fabHoStaleCntSpec : RegSpec := ⟨.dev, 0x3000168, 1, 0x0, 1, 0x0, 0,
    [⟨"COUNT", 31, 0, .rc, .any⟩]⟩

/-- FAB_HO_RECLAIM_CNT (chapter 13 R349). -/
def fabHoReclaimCntSpec : RegSpec := ⟨.dev, 0x3000170, 1, 0x0, 1, 0x0, 0,
    [⟨"COUNT", 31, 0, .rc, .any⟩]⟩

/-- FAB_HO_UNRESOLVED_CNT (chapter 13 R350). -/
def fabHoUnresolvedCntSpec : RegSpec := ⟨.dev, 0x3000178, 1, 0x0, 1, 0x0, 0,
    [⟨"COUNT", 31, 0, .rc, .any⟩]⟩

/-- FAB_MIR_REVERT_CNT (chapter 13 R353). -/
def fabMirRevertCntSpec : RegSpec := ⟨.dev, 0x3000180, 1, 0x0, 1, 0x0, 0,
    [⟨"COUNT", 31, 0, .rc, .any⟩]⟩

/-- FAB_RB_LOST_CNT (chapter 13 R358). -/
def fabRbLostCntSpec : RegSpec := ⟨.dev, 0x3000188, 1, 0x0, 1, 0x0, 0,
    [⟨"COUNT", 31, 0, .rc, .any⟩]⟩

/-- FAB_ENG (chapter 11 R275). -/
def fabEngSpec : RegSpec := ⟨.dev, 0x3000400, 24, 0x8, 1, 0x0, 0,
    [⟨"EN", 0, 0, .rw, .any⟩]⟩

/-- FAB_ENG_SLC (chapter 11 R275). -/
def fabEngSlcSpec : RegSpec := ⟨.dev, 0x3000500, 24, 0x8, 1, 0x0, 0,
    [⟨"SLICES", 63, 0, .rw, .any⟩]⟩

/-- FAB_MG_STATUS (chapter 07 Table 7-6). -/
def fabMgStatusSpec : RegSpec := ⟨.dev, 0x3000800, 256, 0x8, 1, 0x0, 0,
    [⟨"OPEN", 0, 0, .ro, .any⟩, ⟨"ABORTED", 1, 1, .ro, .any⟩, ⟨"MEMBER", 7, 2, .ro, .any⟩,
     ⟨"CAUSE", 15, 8, .ro, .any⟩, ⟨"SEQ", 25, 16, .ro, .any⟩, ⟨"FAULTS", 33, 26, .ro, .any⟩]⟩

/-- FAB_HOLD_BASE (chapter 13 R335). -/
def fabHoldBaseSpec : RegSpec := ⟨.dev, 0x3001000, 64, 0x40, 1, 0x0, 0,
    [⟨"BASE", 63, 0, .rw, .any⟩]⟩

/-- FAB_HOLD_CTL (chapter 13 R335). -/
def fabHoldCtlSpec : RegSpec := ⟨.dev, 0x3001008, 64, 0x40, 1, 0x0, 0,
    [⟨"LOG2", 4, 0, .rw, (.zeroOr 10 20)⟩]⟩

/-- FAB_HO_JNL_BASE (chapter 13 R340). -/
def fabHoJnlBaseSpec : RegSpec := ⟨.dev, 0x3001010, 64, 0x40, 1, 0x0, 0,
    [⟨"BASE", 63, 0, .rw, .any⟩]⟩

/-- FAB_HO_JNL_CTL (chapter 13 R340). -/
def fabHoJnlCtlSpec : RegSpec := ⟨.dev, 0x3001018, 64, 0x40, 1, 0x0, 0,
    [⟨"LOG2", 3, 0, .rw, (.zeroOr 4 12)⟩]⟩

/-- FAB_HO_INBOX_BASE (chapter 13 R342). -/
def fabHoInboxBaseSpec : RegSpec := ⟨.dev, 0x3001020, 64, 0x40, 1, 0x0, 0,
    [⟨"BASE", 63, 0, .rw, .any⟩]⟩

/-- FAB_HO_INBOX_CTL (chapter 13 R342). -/
def fabHoInboxCtlSpec : RegSpec := ⟨.dev, 0x3001028, 64, 0x40, 1, 0x0, 0,
    [⟨"LOG2SIZE", 3, 0, .rw, (.zeroOr 4 12)⟩, ⟨"HEAD", 27, 16, .rw, .any⟩, ⟨"TAIL", 43, 32, .ro, .any⟩,
     ⟨"OVERFLOW", 63, 48, .rc, .any⟩]⟩

/-- FAB_ROUTE (chapter 11 R295). -/
def fabRouteSpec : RegSpec := ⟨.dev, 0x3020000, 16384, 0x8, 1, 0x0, 0,
    [⟨"PORTS", 23, 0, .rw, .any⟩]⟩

/-- FAB_STT (chapter 11 R287). -/
def fabSttSpec : RegSpec := ⟨.dev, 0x3100000, 65536, 0x20, 4, 0x8, 0,
    [⟨"WORD", 63, 0, .rw, .any⟩]⟩

/-- SHF_ILLEGAL_CNT (chapter 02 R42, R44). -/
def shfIllegalCntSpec : RegSpec := ⟨.dev, 0x4000000, 1, 0x0, 1, 0x0, 0,
    [⟨"COUNT", 31, 0, .rc, .any⟩]⟩

/-- SHF_GEO_BASE (chapter 03 R66). -/
def shfGeoBaseSpec : RegSpec := ⟨.dev, 0x4000008, 1, 0x0, 1, 0x0, 0,
    [⟨"BASE", 63, 0, .rwl, .any⟩]⟩

/-- SHF_EMB_BASE (chapter 10 R246). -/
def shfEmbBaseSpec : RegSpec := ⟨.dev, 0x4000010, 1, 0x0, 1, 0x0, 0,
    [⟨"BASE", 63, 0, .rwl, .any⟩]⟩

/-- SHF_ADP_BASE (chapter 10 R253). -/
def shfAdpBaseSpec : RegSpec := ⟨.dev, 0x4000018, 1, 0x0, 1, 0x0, 0,
    [⟨"BASE", 63, 0, .rwl, .any⟩]⟩

/-- SHF_ADP_CTL (chapter 10 R253). -/
def shfAdpCtlSpec : RegSpec := ⟨.dev, 0x4000020, 1, 0x0, 1, 0x0, 0,
    [⟨"LOG2", 4, 0, .rwl, (.zeroOr 10 20)⟩]⟩

/-- HSK_DIR_BASE (chapter 08 R201). -/
def hskDirBaseSpec : RegSpec := ⟨.dev, 0x4000028, 1, 0x0, 1, 0x0, 0,
    [⟨"BASE", 63, 0, .rwl, .any⟩]⟩

/-- HSK_DIR_CTL (chapter 08 R201). -/
def hskDirCtlSpec : RegSpec := ⟨.dev, 0x4000030, 1, 0x0, 1, 0x0, 0,
    [⟨"LOG2IDS", 4, 0, .rwl, (.zeroOr 12 20)⟩]⟩

/-- HSK_TAG_BASE (chapter 08 R199). -/
def hskTagBaseSpec : RegSpec := ⟨.dev, 0x4000038, 1, 0x0, 1, 0x0, 0,
    [⟨"BASE", 63, 0, .rwl, .any⟩]⟩

/-- SHF_PART (chapter 02 R44). -/
def shfPartSpec : RegSpec := ⟨.dev, 0x4001000, 64, 0x20, 1, 0x0, 0,
    [⟨"BASE", 14, 0, .rw, .any⟩, ⟨"COUNT", 31, 16, .rw, .any⟩, ⟨"EN", 32, 32, .rw, .any⟩]⟩

/-- SHF_PAUSE (chapter 02 Table 2-7). -/
def shfPauseSpec : RegSpec := ⟨.dev, 0x4001008, 64, 0x20, 1, 0x0, 0,
    [⟨"SLACK_NS", 31, 0, .rw, .any⟩, ⟨"AUTO_RESUME", 32, 32, .rw, .any⟩]⟩

/-- SHF_RING_BASE (chapter 02 R43). -/
def shfRingBaseSpec : RegSpec := ⟨.dev, 0x4001010, 64, 0x20, 1, 0x0, 0,
    [⟨"BASE", 63, 0, .rw, .any⟩]⟩

/-- SHF_RING_CTL (chapter 02 R43). -/
def shfRingCtlSpec : RegSpec := ⟨.dev, 0x4001018, 64, 0x20, 1, 0x0, 0,
    [⟨"SIZE", 15, 0, .rw, .pow2OrZero⟩, ⟨"OVERFLOW", 47, 16, .rc, .any⟩]⟩

/-- SHF_RING_HEAD (chapter 02 R43). -/
def shfRingHeadSpec : RegSpec := ⟨.dev, 0x4002000, 64, 0x10, 1, 0x0, 0,
    [⟨"HEAD", 14, 0, .rw, .any⟩]⟩

/-- SHF_RING_TAIL (chapter 02 R43). -/
def shfRingTailSpec : RegSpec := ⟨.dev, 0x4002008, 64, 0x10, 1, 0x0, 0,
    [⟨"TAIL", 14, 0, .ro, .any⟩]⟩

/-- SLC_POOL_FREE (chapter 09 R231). -/
def slcPoolFreeSpec : RegSpec := ⟨.dev, 0x5000000, 1, 0x0, 1, 0x0, 0,
    [⟨"FREE", 22, 0, .ro, .any⟩, ⟨"RESERVE", 54, 32, .ro, .any⟩]⟩

/-- SLC_POOL_WM (chapter 09 R234). -/
def slcPoolWmSpec : RegSpec := ⟨.dev, 0x5000008, 1, 0x0, 1, 0x0, 0x2000000010000,
    [⟨"LOW", 22, 0, .rw, .any⟩, ⟨"HIGH", 54, 32, .rw, .above 22 0⟩]⟩

/-- SLC_POOL_EVICT (chapter 09 Table 9-8). -/
def slcPoolEvictSpec : RegSpec := ⟨.dev, 0x5000010, 1, 0x0, 1, 0x0, 0x400110,
    [⟨"MIN_AGE", 7, 0, .rw, .any⟩, ⟨"EN", 8, 8, .rw, .any⟩, ⟨"BW", 23, 16, .rw, (.span 1 255)⟩]⟩

/-- SLC_POOL_SKIP_CNT (chapter 09 R235). -/
def slcPoolSkipCntSpec : RegSpec := ⟨.dev, 0x5000018, 1, 0x0, 1, 0x0, 0,
    [⟨"COUNT", 31, 0, .rc, .any⟩]⟩

/-- SLC_POOL_DEMOTE_FAIL_CNT (chapter 09 R236). -/
def slcPoolDemoteFailCntSpec : RegSpec := ⟨.dev, 0x5000020, 1, 0x0, 1, 0x0, 0,
    [⟨"COUNT", 31, 0, .rc, .any⟩]⟩

/-- SLC_POOL_REFUSED_CNT (chapter 09 R232). -/
def slcPoolRefusedCntSpec : RegSpec := ⟨.dev, 0x5000028, 1, 0x0, 1, 0x0, 0,
    [⟨"COUNT", 31, 0, .rc, .any⟩]⟩

/-- SLC_BIND_REFUSED_CNT (chapter 15 R391). -/
def slcBindRefusedCntSpec : RegSpec := ⟨.dev, 0x5000030, 1, 0x0, 1, 0x0, 0,
    [⟨"COUNT", 31, 0, .rc, .any⟩]⟩

/-- SLC_RECON_FENCE_CNT (chapter 15 R409). -/
def slcReconFenceCntSpec : RegSpec := ⟨.dev, 0x5000038, 1, 0x0, 1, 0x0, 0,
    [⟨"COUNT", 31, 0, .rc, .any⟩]⟩

/-- SLC_MTR_SEQ (chapter 15 R396). -/
def slcMtrSeqSpec : RegSpec := ⟨.dev, 0x5000040, 1, 0x0, 1, 0x0, 0,
    [⟨"SEQ", 31, 0, .ro, .any⟩]⟩

/-- SLC_CORE (chapter 15 R391). -/
def slcCoreSpec : RegSpec := ⟨.dev, 0x5000100, 18, 0x8, 1, 0x0, 0x80,
    [⟨"SLICE", 5, 0, .rw, .any⟩, ⟨"BOUND", 6, 6, .rw, .any⟩, ⟨"HOLD", 7, 7, .rw, .any⟩]⟩

/-- SLC_CTL (chapter 15 R390). -/
def slcCtlSpec : RegSpec := ⟨.slice, 0x0, 1, 0x0, 1, 0x0, 0,
    [⟨"STATE", 2, 0, .ro, .any⟩, ⟨"CMD", 6, 4, .wo, .any⟩, ⟨"CMD_ERR", 8, 8, .w1c, .any⟩,
     ⟨"MGMT_LOCK", 9, 9, .rw, .any⟩]⟩

/-- SLC_PORTS (chapter 15 R388). -/
def slcPortsSpec : RegSpec := ⟨.slice, 0x8, 1, 0x0, 1, 0x0, 0xffffff,
    [⟨"PORTS", 23, 0, .rw, .any⟩]⟩

/-- SLC_JOB (chapter 11 R286). -/
def slcJobSpec : RegSpec := ⟨.slice, 0x10, 1, 0x0, 1, 0x0, 0,
    [⟨"JOB", 31, 0, .rw, .any⟩]⟩

/-- SLC_SR_KEY (chapter 06 R153). -/
def slcSrKeySpec : RegSpec := ⟨.slice, 0x18, 1, 0x0, 1, 0x0, 0,
    [⟨"KEY", 63, 0, .wo, .any⟩]⟩

/-- SLC_FRAME_MIN (chapter 09 R232). -/
def slcFrameMinSpec : RegSpec := ⟨.slice, 0x20, 1, 0x0, 1, 0x0, 0,
    [⟨"MIN", 22, 0, .rw, .any⟩]⟩

/-- SLC_FRAME_MAX (chapter 09 R231). -/
def slcFrameMaxSpec : RegSpec := ⟨.slice, 0x28, 1, 0x0, 1, 0x0, 0x7fffff,
    [⟨"MAX", 22, 0, .rw, .any⟩]⟩

/-- SLC_FRAME_HELD (chapter 09 R231). -/
def slcFrameHeldSpec : RegSpec := ⟨.slice, 0x30, 1, 0x0, 1, 0x0, 0,
    [⟨"HELD", 22, 0, .ro, .any⟩]⟩

/-- SLC_DEMOTE_CNT (chapter 09 R236). -/
def slcDemoteCntSpec : RegSpec := ⟨.slice, 0x38, 1, 0x0, 1, 0x0, 0,
    [⟨"COUNT", 31, 0, .rc, .any⟩]⟩

/-- SLC_DROP_CNT (chapter 09 Table 9-8). -/
def slcDropCntSpec : RegSpec := ⟨.slice, 0x40, 1, 0x0, 1, 0x0, 0,
    [⟨"COUNT", 31, 0, .rc, .any⟩]⟩

/-- SLC_MTR (chapter 15 R395). -/
def slcMtrSpec : RegSpec := ⟨.slice, 0x100, 9, 0x8, 1, 0x0, 0,
    [⟨"COUNT", 63, 0, .ro, .any⟩]⟩

/-- SLC_MTR_SNAP (chapter 15 R396). -/
def slcMtrSnapSpec : RegSpec := ⟨.slice, 0x200, 9, 0x8, 1, 0x0, 0,
    [⟨"COUNT", 63, 0, .ro, .any⟩]⟩

/-- The map itself. -/
def RegName.spec : RegName → RegSpec
  | .chpId => chpIdSpec
  | .chpSerial => chpSerialSpec
  | .chpNodeId => chpNodeIdSpec
  | .chpBootCnt => chpBootCntSpec
  | .chpHeartbeat => chpHeartbeatSpec
  | .chpHbCtl => chpHbCtlSpec
  | .chpFallow => chpFallowSpec
  | .chpReconCtl => chpReconCtlSpec
  | .chpRasScrub => chpRasScrubSpec
  | .chpRasScrubStatus => chpRasScrubStatusSpec
  | .chpRasGlean => chpRasGleanSpec
  | .chpRasBin => chpRasBinSpec
  | .chpRasExclCnt => chpRasExclCntSpec
  | .chpCsrErr => chpCsrErrSpec
  | .chpCsrErrCnt => chpCsrErrCntSpec
  | .tltPkgCap => tltPkgCapSpec
  | .tltEst => tltEstSpec
  | .tltLimit => tltLimitSpec
  | .tltTherm => tltThermSpec
  | .tltDroop => tltDroopSpec
  | .tltPmbErrCnt => tltPmbErrCntSpec
  | .tltPmbAddr => tltPmbAddrSpec
  | .tltDroopCnt => tltDroopCntSpec
  | .tltSliceCap => tltSliceCapSpec
  | .tltSliceEst => tltSliceEstSpec
  | .tltDuty => tltDutySpec
  | .tltDomCap => tltDomCapSpec
  | .clkTime => clkTimeSpec
  | .clkTimeStatus => clkTimeStatusSpec
  | .clkVcore => clkVcoreSpec
  | .clkPllStatus => clkPllStatusSpec
  | .clkRstCtl => clkRstCtlSpec
  | .clkRstSaveBase => clkRstSaveBaseSpec
  | .clkRstStatus => clkRstStatusSpec
  | .clkDomStatus => clkDomStatusSpec
  | .clkAclk => clkAclkSpec
  | .clkCclk => clkCclkSpec
  | .almSeq => almSeqSpec
  | .almProtHead => almProtHeadSpec
  | .almEventHead => almEventHeadSpec
  | .almReadCtl => almReadCtlSpec
  | .almSwCmd => almSwCmdSpec
  | .almDropCnt => almDropCntSpec
  | .almProtDropCnt => almProtDropCntSpec
  | .almTornCnt => almTornCntSpec
  | .almReadData => almReadDataSpec
  | .almSwData => almSwDataSpec
  | .secMboxCmd => secMboxCmdSpec
  | .secMboxArg => secMboxArgSpec
  | .secMboxStatus => secMboxStatusSpec
  | .secLock => secLockSpec
  | .secLockCtl => secLockCtlSpec
  | .secStatus => secStatusSpec
  | .secMeas => secMeasSpec
  | .secArb => secArbSpec
  | .frwCqBase => frwCqBaseSpec
  | .frwCqCtl => frwCqCtlSpec
  | .frwCqHead => frwCqHeadSpec
  | .frwCqTail => frwCqTailSpec
  | .frwSlice => frwSliceSpec
  | .frwExcStatus => frwExcStatusSpec
  | .frwExcPc => frwExcPcSpec
  | .frwExcInfo => frwExcInfoSpec
  | .frwWdog => frwWdogSpec
  | .frwGlnHitCnt => frwGlnHitCntSpec
  | .frwGlnMissCnt => frwGlnMissCntSpec
  | .frwRasStatus => frwRasStatusSpec
  | .frwRasCeCnt => frwRasCeCntSpec
  | .frwRasUeCnt => frwRasUeCntSpec
  | .frwGrnCeCnt => frwGrnCeCntSpec
  | .frwGrnUeCnt => frwGrnUeCntSpec
  | .hskCorruptCnt => hskCorruptCntSpec
  | .hskFlushCnt => hskFlushCntSpec
  | .hskNonfiniteCnt => hskNonfiniteCntSpec
  | .hskCbMissCnt => hskCbMissCntSpec
  | .frwGlnReg => frwGlnRegSpec
  | .frwQstCtl => frwQstCtlSpec
  | .frwQstSse => frwQstSseSpec
  | .frwQstSsx => frwQstSsxSpec
  | .frwQstCount => frwQstCountSpec
  | .frwQstClip => frwQstClipSpec
  | .frwQstHist => frwQstHistSpec
  | .fldReeveCmd => fldReeveCmdSpec
  | .fldReeveRsp => fldReeveRspSpec
  | .fldReeveMsg => fldReeveMsgSpec
  | .fldReeveMsgHi => fldReeveMsgHiSpec
  | .fldReeveStatus => fldReeveStatusSpec
  | .fldThrRedirectCnt => fldThrRedirectCntSpec
  | .fldWinStatus => fldWinStatusSpec
  | .fldWinExclCnt => fldWinExclCntSpec
  | .fldSieveStatus => fldSieveStatusSpec
  | .fldSieveDeadCnt => fldSieveDeadCntSpec
  | .fldSieveBadidCnt => fldSieveBadidCntSpec
  | .fldSmpNanCnt => fldSmpNanCntSpec
  | .fldSmpFixCnt => fldSmpFixCntSpec
  | .fldSmpTruncCnt => fldSmpTruncCntSpec
  | .thrCtl => thrCtlSpec
  | .thrTol => thrTolSpec
  | .thrStatus => thrStatusSpec
  | .thrRmapRow => thrRmapRowSpec
  | .thrRmapCol0 => thrRmapCol0Spec
  | .thrRmapCol1 => thrRmapCol1Spec
  | .thrChkCnt => thrChkCntSpec
  | .thrChkTransCnt => thrChkTransCntSpec
  | .thrChkSkipCnt => thrChkSkipCntSpec
  | .thrSatCnt => thrSatCntSpec
  | .thrSsatCnt => thrSsatCntSpec
  | .thrGleanCnt => thrGleanCntSpec
  | .thrGleanMisCnt => thrGleanMisCntSpec
  | .thrOpsOwn => thrOpsOwnSpec
  | .prtCtl => prtCtlSpec
  | .prtStatus => prtStatusSpec
  | .prtStatusTime => prtStatusTimeSpec
  | .prtLaneMap => prtLaneMapSpec
  | .prtLaneStatus => prtLaneStatusSpec
  | .prtFeedTh => prtFeedThSpec
  | .prtSched => prtSchedSpec
  | .prtSchedCtl => prtSchedCtlSpec
  | .prtTime => prtTimeSpec
  | .prtTimeDelay => prtTimeDelaySpec
  | .prtTimeOff => prtTimeOffSpec
  | .prtPvCtl => prtPvCtlSpec
  | .prtPvStatus => prtPvStatusSpec
  | .prtFecCorrCnt => prtFecCorrCntSpec
  | .prtFecUncorrCnt => prtFecUncorrCntSpec
  | .prtCrcCnt => prtCrcCntSpec
  | .prtLinkErrCnt => prtLinkErrCntSpec
  | .prtReplayCnt => prtReplayCntSpec
  | .prtRemapCnt => prtRemapCntSpec
  | .prtRetrainCnt => prtRetrainCntSpec
  | .prtFeedPwr => prtFeedPwrSpec
  | .prtCredit => prtCreditSpec
  | .prtPvCnt => prtPvCntSpec
  | .shpCfg => shpCfgSpec
  | .shpLevel => shpLevelSpec
  | .prtPol => prtPolSpec
  | .prtPolCnt => prtPolCntSpec
  | .fabTimeout => fabTimeoutSpec
  | .fabMgWindow => fabMgWindowSpec
  | .fabRowWin => fabRowWinSpec
  | .fabHoLease => fabHoLeaseSpec
  | .fabHoCtl => fabHoCtlSpec
  | .prtReasmDropCnt => prtReasmDropCntSpec
  | .fabSttRefusedCnt => fabSttRefusedCntSpec
  | .fabRefuseInCnt => fabRefuseInCntSpec
  | .fabRefuseOutCnt => fabRefuseOutCntSpec
  | .fabTimeoutCnt => fabTimeoutCntSpec
  | .fabLateCnt => fabLateCntSpec
  | .fabRetryCnt => fabRetryCntSpec
  | .fabSeqLostCnt => fabSeqLostCntSpec
  | .fabNotifyDropCnt => fabNotifyDropCntSpec
  | .fabMgAbortCnt => fabMgAbortCntSpec
  | .fabMgLateCnt => fabMgLateCntSpec
  | .fabMgFilterCnt => fabMgFilterCntSpec
  | .fabRowConflictCnt => fabRowConflictCntSpec
  | .fabRowCoalesceCnt => fabRowCoalesceCntSpec
  | .fabHoStaleCnt => fabHoStaleCntSpec
  | .fabHoReclaimCnt => fabHoReclaimCntSpec
  | .fabHoUnresolvedCnt => fabHoUnresolvedCntSpec
  | .fabMirRevertCnt => fabMirRevertCntSpec
  | .fabRbLostCnt => fabRbLostCntSpec
  | .fabEng => fabEngSpec
  | .fabEngSlc => fabEngSlcSpec
  | .fabMgStatus => fabMgStatusSpec
  | .fabHoldBase => fabHoldBaseSpec
  | .fabHoldCtl => fabHoldCtlSpec
  | .fabHoJnlBase => fabHoJnlBaseSpec
  | .fabHoJnlCtl => fabHoJnlCtlSpec
  | .fabHoInboxBase => fabHoInboxBaseSpec
  | .fabHoInboxCtl => fabHoInboxCtlSpec
  | .fabRoute => fabRouteSpec
  | .fabStt => fabSttSpec
  | .shfIllegalCnt => shfIllegalCntSpec
  | .shfGeoBase => shfGeoBaseSpec
  | .shfEmbBase => shfEmbBaseSpec
  | .shfAdpBase => shfAdpBaseSpec
  | .shfAdpCtl => shfAdpCtlSpec
  | .hskDirBase => hskDirBaseSpec
  | .hskDirCtl => hskDirCtlSpec
  | .hskTagBase => hskTagBaseSpec
  | .shfPart => shfPartSpec
  | .shfPause => shfPauseSpec
  | .shfRingBase => shfRingBaseSpec
  | .shfRingCtl => shfRingCtlSpec
  | .shfRingHead => shfRingHeadSpec
  | .shfRingTail => shfRingTailSpec
  | .slcPoolFree => slcPoolFreeSpec
  | .slcPoolWm => slcPoolWmSpec
  | .slcPoolEvict => slcPoolEvictSpec
  | .slcPoolSkipCnt => slcPoolSkipCntSpec
  | .slcPoolDemoteFailCnt => slcPoolDemoteFailCntSpec
  | .slcPoolRefusedCnt => slcPoolRefusedCntSpec
  | .slcBindRefusedCnt => slcBindRefusedCntSpec
  | .slcReconFenceCnt => slcReconFenceCntSpec
  | .slcMtrSeq => slcMtrSeqSpec
  | .slcCore => slcCoreSpec
  | .slcCtl => slcCtlSpec
  | .slcPorts => slcPortsSpec
  | .slcJob => slcJobSpec
  | .slcSrKey => slcSrKeySpec
  | .slcFrameMin => slcFrameMinSpec
  | .slcFrameMax => slcFrameMaxSpec
  | .slcFrameHeld => slcFrameHeldSpec
  | .slcDemoteCnt => slcDemoteCntSpec
  | .slcDropCnt => slcDropCntSpec
  | .slcMtr => slcMtrSpec
  | .slcMtrSnap => slcMtrSnapSpec

/-- Register names, part 1. -/
def regsPart1 : List RegName :=
  [.chpId, .chpSerial, .chpNodeId, .chpBootCnt, .chpHeartbeat, .chpHbCtl, .chpFallow, .chpReconCtl,
   .chpRasScrub, .chpRasScrubStatus, .chpRasGlean, .chpRasBin, .chpRasExclCnt, .chpCsrErr,
   .chpCsrErrCnt, .tltPkgCap, .tltEst, .tltLimit, .tltTherm, .tltDroop, .tltPmbErrCnt, .tltPmbAddr,
   .tltDroopCnt, .tltSliceCap, .tltSliceEst, .tltDuty, .tltDomCap, .clkTime, .clkTimeStatus, .clkVcore,
   .clkPllStatus, .clkRstCtl, .clkRstSaveBase, .clkRstStatus, .clkDomStatus, .clkAclk, .clkCclk,
   .almSeq, .almProtHead, .almEventHead, .almReadCtl, .almSwCmd, .almDropCnt, .almProtDropCnt,
   .almTornCnt, .almReadData, .almSwData, .secMboxCmd, .secMboxArg, .secMboxStatus, .secLock,
   .secLockCtl]

/-- Register names, part 2. -/
def regsPart2 : List RegName :=
  [.secStatus, .secMeas, .secArb, .frwCqBase, .frwCqCtl, .frwCqHead, .frwCqTail, .frwSlice, .frwExcStatus,
   .frwExcPc, .frwExcInfo, .frwWdog, .frwGlnHitCnt, .frwGlnMissCnt, .frwRasStatus, .frwRasCeCnt,
   .frwRasUeCnt, .frwGrnCeCnt, .frwGrnUeCnt, .hskCorruptCnt, .hskFlushCnt, .hskNonfiniteCnt,
   .hskCbMissCnt, .frwGlnReg, .frwQstCtl, .frwQstSse, .frwQstSsx, .frwQstCount, .frwQstClip,
   .frwQstHist, .fldReeveCmd, .fldReeveRsp, .fldReeveMsg, .fldReeveMsgHi, .fldReeveStatus,
   .fldThrRedirectCnt, .fldWinStatus, .fldWinExclCnt, .fldSieveStatus, .fldSieveDeadCnt,
   .fldSieveBadidCnt, .fldSmpNanCnt, .fldSmpFixCnt, .fldSmpTruncCnt, .thrCtl, .thrTol, .thrStatus,
   .thrRmapRow, .thrRmapCol0, .thrRmapCol1, .thrChkCnt, .thrChkTransCnt]

/-- Register names, part 3. -/
def regsPart3 : List RegName :=
  [.thrChkSkipCnt, .thrSatCnt, .thrSsatCnt, .thrGleanCnt, .thrGleanMisCnt, .thrOpsOwn, .prtCtl, .prtStatus,
   .prtStatusTime, .prtLaneMap, .prtLaneStatus, .prtFeedTh, .prtSched, .prtSchedCtl, .prtTime,
   .prtTimeDelay, .prtTimeOff, .prtPvCtl, .prtPvStatus, .prtFecCorrCnt, .prtFecUncorrCnt, .prtCrcCnt,
   .prtLinkErrCnt, .prtReplayCnt, .prtRemapCnt, .prtRetrainCnt, .prtFeedPwr, .prtCredit, .prtPvCnt,
   .shpCfg, .shpLevel, .prtPol, .prtPolCnt, .fabTimeout, .fabMgWindow, .fabRowWin, .fabHoLease,
   .fabHoCtl, .prtReasmDropCnt, .fabSttRefusedCnt, .fabRefuseInCnt, .fabRefuseOutCnt, .fabTimeoutCnt,
   .fabLateCnt, .fabRetryCnt, .fabSeqLostCnt, .fabNotifyDropCnt, .fabMgAbortCnt, .fabMgLateCnt,
   .fabMgFilterCnt, .fabRowConflictCnt, .fabRowCoalesceCnt]

/-- Register names, part 4. -/
def regsPart4 : List RegName :=
  [.fabHoStaleCnt, .fabHoReclaimCnt, .fabHoUnresolvedCnt, .fabMirRevertCnt, .fabRbLostCnt, .fabEng,
   .fabEngSlc, .fabMgStatus, .fabHoldBase, .fabHoldCtl, .fabHoJnlBase, .fabHoJnlCtl, .fabHoInboxBase,
   .fabHoInboxCtl, .fabRoute, .fabStt, .shfIllegalCnt, .shfGeoBase, .shfEmbBase, .shfAdpBase,
   .shfAdpCtl, .hskDirBase, .hskDirCtl, .hskTagBase, .shfPart, .shfPause, .shfRingBase, .shfRingCtl,
   .shfRingHead, .shfRingTail, .slcPoolFree, .slcPoolWm, .slcPoolEvict, .slcPoolSkipCnt,
   .slcPoolDemoteFailCnt, .slcPoolRefusedCnt, .slcBindRefusedCnt, .slcReconFenceCnt, .slcMtrSeq,
   .slcCore, .slcCtl, .slcPorts, .slcJob, .slcSrKey, .slcFrameMin, .slcFrameMax, .slcFrameHeld,
   .slcDemoteCnt, .slcDropCnt, .slcMtr, .slcMtrSnap]

/-- Every register name. -/
def allRegs : List RegName := regsPart1 ++ regsPart2 ++ regsPart3 ++ regsPart4

/-- Instances of a block. -/
def RegBlock.count : RegBlock → Nat
  | .dev => 1
  | .furrow => 64
  | .field => 4
  | .array => 8
  | .port => 24
  | .slice => 64

/-- The window offset of a block instance (Table 19-1). -/
def RegBlock.base : RegBlock → Nat → Nat
  | .dev, _ => 0
  | .furrow, n => 0x1000000 + n / 16 * 0x400000 + n % 16 * 0x20000
  | .field, f => 0x1000000 + f * 0x400000 + 0x200000
  | .array, k => 0x1000000 + k / 2 * 0x400000 + 0x300000 + k % 2 * 0x10000
  | .port, p => 0x2000000 + p * 0x10000
  | .slice, s => 0x5100000 + s * 0x1000

/-- The window offset of a register (R489, R496). -/
def Csr.offset (r : Csr) : Nat :=
  let p := r.reg.spec
  p.blk.base r.n + p.off + r.j * p.sj + r.l * p.sl

/-- Whether every index of a register lies in its range (R496). -/
def Csr.inRange (r : Csr) : Bool :=
  let p := r.reg.spec
  r.n < p.blk.count && r.j < p.cj && r.l < p.cl

/-- The index pair of a register of spec `p` at distance `d` from its first instance, if one lies there. -/
def RegSpec.indexAt (p : RegSpec) (d : Nat) : Option (Nat × Nat) :=
  let j := if p.sj = 0 then 0 else d / p.sj
  let r := d - j * p.sj
  let l := if p.sl = 0 then 0 else r / p.sl
  if j < p.cj && l < p.cl && j * p.sj + l * p.sl == d then some (j, l) else none

/-- The block instance an offset lies in, and the offset within it (Table 19-1). -/
def blockAt (off : Nat) : List (RegBlock × Nat × Nat) :=
  if off < 0x1000000 then [(.dev, 0, off)]
  else if off < 0x2000000 then
    let f := (off - 0x1000000) / 0x400000
    let d := (off - 0x1000000) % 0x400000
    if d < 0x200000 then [(.furrow, f * 16 + d / 0x20000, d % 0x20000)]
    else if d < 0x300000 then [(.field, f, d - 0x200000)]
    else if d < 0x320000 then [(.array, f * 2 + (d - 0x300000) / 0x10000, (d - 0x300000) % 0x10000)]
    else []
  else if off < 0x2180000 then [(.port, (off - 0x2000000) / 0x10000, off % 0x10000)]
  else if off < 0x5100000 then [(.dev, 0, off)]
  else if off < 0x5140000 then [(.slice, (off - 0x5100000) / 0x1000, off % 0x1000)]
  else []

/-- The register at a window offset, none where the offset is reserved (R491, R496). -/
def Csr.ofOffset (off : Nat) : Option Csr :=
  (blockAt off).findSome? fun b =>
    allRegs.findSome? fun r =>
      let p := r.spec
      if p.blk = b.1 && p.off ≤ b.2.2 then
        (p.indexAt (b.2.2 - p.off)).map fun jl => ⟨r, b.2.1, jl.1, jl.2⟩
      else none

/-- Whether a field value is permitted in a written word (R511). -/
def Permit.ok (p : Permit) (new : Word) (v : Nat) : Bool :=
  match p with
  | .any => true
  | .span lo hi => lo ≤ v && v ≤ hi
  | .zeroOr lo hi => v == 0 || (lo ≤ v && v ≤ hi)
  | .pow2OrZero => v == 0 || (256 ≤ v && v ≤ 32768 && v == 2 ^ Nat.log2 v)
  | .above hi lo => fld new hi lo < v
  | .below hi lo => v < fld new hi lo

/-- The bits of a field as a mask. -/
def RegField.mask (f : RegField) : Word := BitVec.ofNat 64 ((2 ^ (f.hi + 1 - f.lo) - 1) * 2 ^ f.lo)

/-- The bits of a register whose access type passes a test. -/
def RegSpec.maskOf (p : RegSpec) (t : Access → Bool) : Word :=
  p.fields.foldl (fun m f => if t f.acc then m ||| f.mask else m) 0

/-- Whether a register has a field of an access type. -/
def RegSpec.hasAcc (p : RegSpec) (a : Access) : Bool := p.fields.any (fun f => f.acc = a)

/-- What a read returns: write-only fields and reserved bits read zero (R8, R10). -/
def RegSpec.readMask (p : RegSpec) : Word := p.maskOf (fun a => a != .wo)

/-- The value a read of an RC register leaves: its RC fields cleared (R10). -/
def RegSpec.afterRead (p : RegSpec) (v : Word) : Word := v &&& ~~~ (p.maskOf (fun a => a = .rc))

/-- The value a write leaves: RW and unlocked RWL fields take the written bits, W1C fields clear where a 1 is
written, the rest stand (R10). -/
def RegSpec.afterWrite (p : RegSpec) (unlocked : Bool) (old new : Word) : Word :=
  let rw := p.maskOf (fun a => a = .rw || (a = .rwl && unlocked))
  let w1c := p.maskOf (fun a => a = .w1c)
  ((old &&& ~~~ rw) ||| (new &&& rw)) &&& ~~~ (w1c &&& new)

/-- R511: a write that gives any writable field a value it does not permit is ignored as a whole. -/
def RegSpec.permits (p : RegSpec) (new : Word) : Bool :=
  p.fields.all fun f => (f.acc != .rw && f.acc != .rwl) || f.permit.ok new (fld new f.hi f.lo)

end Sys2Proof
end

