-- ==== Sys2Proof/Machine/Cluster.lean ====
section
/-! DEFINITION. The control cluster beside its cores: the interrupt controller of R400 and the caches of R391 and R434. -/

namespace Sys2Proof.Machine

/-! ### Interrupt controller (R400)

R400 names the RISC-V PLIC specification 1.0.0; its register layout, and that hart h has context 2h for machine and 2h + 1 for
supervisor mode, are PRESUMED from it (log entry 40). -/

/-- Sources of Table 15-6. -/
def plicSources : Nat := 139

/-- Contexts: a machine and a supervisor context for each of 16 harts. -/
def plicContexts : Nat := 32

/-- Each source's gateway forwards an asserted source once, and again only after completion. -/
def Plic.gate (p : Plic) (irqs : List Nat) : Plic :=
  { p with requests := p.requests ++ irqs.filter (fun i => !p.requests.contains i && !p.claimed.contains i) }

/-- Requests that a context may take: pending, enabled, of a priority above `least`. -/
def Plic.takes (p : Plic) (ctx least : Nat) : List Nat :=
  p.requests.filter (fun i => (Table.get 0 p.enable ctx).testBit i && decide (least < Table.get 0 p.prio i))

/-- The better of two requests: higher priority, then lower number. -/
def Plic.better (p : Plic) (i j : Nat) : Nat :=
  if Table.get 0 p.prio i < Table.get 0 p.prio j || (Table.get 0 p.prio i = Table.get 0 p.prio j && j < i) then j else i

/-- The request a claim takes, 0 where there is none. Priority 0 never interrupts; the threshold does not hold a claim back. -/
def Plic.best (p : Plic) (ctx : Nat) : Nat :=
  match p.takes ctx 0 with
  | [] => 0
  | i :: l => l.foldl p.better i

/-- The line to a hart: a request above the context's threshold. -/
def Plic.interrupts (p : Plic) (ctx : Nat) : Bool := !(p.takes ctx (Table.get 0 p.threshold ctx)).isEmpty

/-- A claim takes the request out. -/
def Plic.claim (p : Plic) (ctx : Nat) : Plic :=
  let i := p.best ctx
  if i = 0 then p else { p with requests := p.requests.filter (· != i), claimed := p.claimed ++ [i] }

/-- A completion opens the gateway of a source that is enabled for the context; another is ignored. -/
def Plic.complete (p : Plic) (ctx i : Nat) : Plic :=
  if (Table.get 0 p.enable ctx).testBit i then { p with claimed := p.claimed.filter (· != i) } else p

/-- The places of the controller's window (PRESUMED, log entry 40). -/
inductive PlicReg where
  | priority (source : Nat)
  | pending (word : Nat)
  | enable (ctx word : Nat)
  | threshold (ctx : Nat)
  | claim (ctx : Nat)
  | hole
deriving DecidableEq, Repr

/-- The register at an offset of the window. -/
def plicAt (off : Nat) : PlicReg :=
  if off < 0x1000 then (if 1 ≤ off / 4 && off / 4 ≤ plicSources then .priority (off / 4) else .hole)
  else if off < 0x1080 then .pending ((off - 0x1000) / 4)
  else if off < 0x2000 then .hole
  else if off < 0x2000 + 0x80 * plicContexts then .enable ((off - 0x2000) / 0x80) ((off - 0x2000) % 0x80 / 4)
  else if 0x200000 ≤ off && off < 0x200000 + 0x1000 * plicContexts then
    (match (off - 0x200000) % 0x1000 with
     | 0 => .threshold ((off - 0x200000) / 0x1000)
     | 4 => .claim ((off - 0x200000) / 0x1000)
     | _ => .hole)
  else .hole

/-- A 32-bit read; a claim is its own effect. -/
def Plic.read (p : Plic) (off : Nat) : Nat :=
  match plicAt off with
  | .priority i => Table.get 0 p.prio i
  | .pending w => (p.requests.map (fun i => bitVal (decide (i / 32 = w)) (i % 32))).sum
  | .enable c w => bits (Table.get 0 p.enable c) (32 * w + 31) (32 * w)
  | .threshold c => Table.get 0 p.threshold c
  | .claim c => p.best c
  | .hole => 0

/-- The sources that exist among the 32 of an enable word. -/
def plicEnableMask (w : Nat) : Nat :=
  ((List.range 32).map (fun i => bitVal (decide (1 ≤ 32 * w + i && 32 * w + i ≤ plicSources)) i)).sum

/-- A 32-bit write; 15 priority levels take 4 bits. -/
def Plic.write (p : Plic) (off v : Nat) : Plic :=
  match plicAt off with
  | .priority i => { p with prio := Table.set p.prio i (v % 16) }
  | .enable c w =>
    let old := Table.get 0 p.enable c
    let word := (v % 2 ^ 32) &&& plicEnableMask w
    { p with enable := Table.set p.enable c (old - bits old (32 * w + 31) (32 * w) * 2 ^ (32 * w) + word * 2 ^ (32 * w)) }
  | .threshold c => { p with threshold := Table.set p.threshold c (v % 16) }
  | .claim c => p.complete c v
  | _ => p

/-- Sources whose event has no status register: a completion, and an Almanac record written. Their claim is what clears them
(DESIGN CHOICE, log entry 40). -/
def eventSource (i : Nat) : Bool := (1 ≤ i && i ≤ 64) || i = 138

/-! ### Caches (R391, R434)

The memory holds what a core has written last, whichever cache has the line: which lines are where, which are dirty and which
slice filled them is what the caches hold (log entry 40). -/

/-- Put a line into a cache of `cap` lines: it leaves its old place, and the oldest line leaves a full one. -/
def cachePut (cap : Nat) (l : List CacheLine) (x : CacheLine) : List CacheLine :=
  let old := l.filter (fun y => y.line != x.line)
  (if old.length < cap then old else old.drop 1) ++ [x]

/-- A bound core hits a line of L3 only if a core of its own slice filled it (R391). -/
def State.l3Hit (s : State) (slice : Option Nat) (line : Nat) : Bool :=
  s.l3.any (fun x => x.line = line && (slice.isNone || x.slice = slice))

/-- A core's access fills its L2 (2 MiB), and L3 (32 MiB) with its slice's tag where it does not hit there. -/
def State.cacheFill (s : State) (c : Nat) (slice : Option Nat) (line : Nat) (write : Bool) : State :=
  let own := Table.get [] s.l2 c
  let dirty := write || own.any (fun x => x.line = line && x.dirty)
  let l3 := if s.l3Hit slice line then s.l3
    else cachePut 524288 s.l3 ⟨line, s.l3.any (fun x => x.line = line && x.dirty), slice⟩
  { s with l2 := Table.set s.l2 c (cachePut 32768 own ⟨line, dirty, slice⟩), l3 }

/-- A core's L2 is written back to L3 and invalidated (R391, Table 18-2). -/
def State.flushL2 (s : State) (c : Nat) : State :=
  let l3 := (Table.get [] s.l2 c).foldl (fun l x => if x.dirty then cachePut 524288 l x else l) s.l3
  { s with l2 := Table.erase s.l2 c, l3 }

/-- A reset of the control cluster empties its caches and its interrupt controller (Table 18-9). -/
def State.dropCluster (s : State) : State := { s with l2 := [], l3 := [], plic := {}, started := [], coreTraps := [] }

/-- An access-fault exception on a core; nothing else changes (R393, R398, R490). -/
def State.coreFault (s : State) (c : Nat) (store : Bool) (addr : Nat) : State :=
  { s with coreTraps := Table.set s.coreTraps c ⟨store, addr⟩ }

end Sys2Proof.Machine
end

