-- ==== Sys2Proof/Machine/Ops.lean ====
section
/-! DEFINITION. The named operations over registers, counters, descriptors, records and messages that every meaning
shares. -/

namespace Sys2Proof.Machine

/-! ### Registers -/

/-- The value of a register in a register file; one that is not listed holds its reset value (R493). -/
def csrGet : List (Csr × Word) → Csr → Word
  | [], r => r.reg.spec.reset
  | (k, v) :: t, r => if k = r then v else csrGet t r

/-- Write a register file, in the order of window offsets. -/
def csrSet : List (Csr × Word) → Csr → Word → List (Csr × Word)
  | [], r, v => [(r, v)]
  | (k, u) :: t, r, v =>
    if k = r then (r, v) :: t
    else if r.offset < k.offset then (r, v) :: (k, u) :: t
    else (k, u) :: csrSet t r v

/-- Read a register with no side effect. -/
def State.rd (s : State) (r : Csr) : Word := csrGet s.csr r

/-- A duty at a fixed rate, done unless this period of system time, in ns, has had it. -/
def State.every (s : State) (duty period : Nat) (f : State → State) : State :=
  if Table.find s.paced duty = some (s.time / period) then s
  else f { s with paced := Table.set s.paced duty (s.time / period) }

/-- Set a register. -/
def State.wr (s : State) (r : Csr) (v : Word) : State := { s with csr := csrSet s.csr r v }

/-- A field of a register. -/
def State.rdf (s : State) (r : Csr) (hi lo : Nat) : Nat := fld (s.rd r) hi lo

/-- A one-bit field of a register. -/
def State.rdb (s : State) (r : Csr) (i : Nat) : Bool := (s.rd r).getLsbD i

/-- Set a field of a register. -/
def State.wrf (s : State) (r : Csr) (hi lo v : Nat) : State := s.wr r (setFld (s.rd r) hi lo v)

/-- Registers of one of two families return to their reset values. -/
def State.resetRegs (s : State) (p : Csr → Bool) : State := { s with csr := s.csr.filter (fun e => !p e.1) }

/-- A fresh free value (log entry 2). -/
def State.free (s : State) : Word × State :=
  (Config.freeValue s.freeCount, { s with freeCount := s.freeCount + 1 })

/-- Add to a counter field of a register. What a counter reads after an addition past its width is not stated, and is
a free value (log entry 8). -/
def State.count (s : State) (r : Csr) (hi lo by' : Nat) : State :=
  let v := s.rdf r hi lo + by'
  if v < 2 ^ (hi + 1 - lo) then s.wrf r hi lo v
  else let (u, t) := s.free; t.wrf r hi lo u.toNat

/-- Add 1 to a 32-bit counter register. -/
def State.bump (s : State) (r : Csr) : State := s.count r 31 0 1

/-- Add 1 to a 32-bit counter register when a condition holds. -/
def State.bumpIf (s : State) (c : Bool) (r : Csr) : State := if c then s.bump r else s

/-- The next internal name of an operation. -/
def State.fresh (s : State) : Nat × State := (s.nextId, { s with nextId := s.nextId + 1 })

/-! ### Blocks -/

/-- Furrow n. -/
def State.furrow (s : State) (n : Nat) : Furrow := Table.get {} s.furrows n

/-- Replace Furrow n. -/
def State.setFurrow (s : State) (n : Nat) (x : Furrow) : State := { s with furrows := Table.set s.furrows n x }

/-- Change Furrow n. -/
def State.modFurrow (s : State) (n : Nat) (f : Furrow → Furrow) : State := s.setFurrow n (f (s.furrow n))

/-- The Sheaf entry at an index. -/
def State.entry (s : State) (i : Nat) : SheafEntry := Table.get {} s.sheaf i

/-- Replace a Sheaf entry. -/
def State.setEntry (s : State) (i : Nat) (e : SheafEntry) : State := { s with sheaf := Table.set s.sheaf i e }

/-- The descriptor of a frame. -/
def State.frame (s : State) (n : Nat) : FrameDesc := Table.get {} s.desc n

/-- Whether a frame counts against a slice: POOL 1 or 2 (R230, R231). -/
def FrameDesc.held (d : FrameDesc) : Bool := d.pool = 1 || d.pool = 2

/-- Replace a frame descriptor; SLC_FRAME_HELD of the slices follows (R231). -/
def State.setFrame (s : State) (n : Nat) (d : FrameDesc) : State :=
  let o := s.frame n
  let s := { s with desc := Table.set s.desc n d }
  let s := if o.held then s.wrf ⟨.slcFrameHeld, o.slice, 0, 0⟩ 22 0 (s.rdf ⟨.slcFrameHeld, o.slice, 0, 0⟩ 22 0 - 1) else s
  if d.held then s.wrf ⟨.slcFrameHeld, d.slice, 0, 0⟩ 22 0 (s.rdf ⟨.slcFrameHeld, d.slice, 0, 0⟩ 22 0 + 1) else s

/-! ### Facts about the configuration -/

/-- The local node ID (Table 19-2). -/
def State.node (s : State) : Nat := s.rdf ⟨.chpNodeId, 0, 0, 0⟩ 13 0

/-- Table 15-2: the state of a slice. -/
def State.sliceState (s : State) (n : Nat) : Nat := s.rdf ⟨.slcCtl, n, 0, 0⟩ 2 0

/-- A slice that is ACTIVE or DRAINING (R390). -/
def State.sliceEnabled (s : State) (n : Nat) : Bool := s.sliceState n = 2 || s.sliceState n = 3

/-- The slice a Furrow is bound to. -/
def State.bound (s : State) (f : Nat) : Option Nat :=
  if s.rdb ⟨.frwSlice, f, 0, 0⟩ 6 then some (s.rdf ⟨.frwSlice, f, 0, 0⟩ 5 0) else none

/-- Fallow mode (R413). -/
def State.fallow (s : State) : Bool := s.rdb ⟨.chpFallow, 0, 0, 0⟩ 0

/-- The CONFIG lock stage (R424). -/
def State.locked (s : State) : Bool := s.rdb ⟨.secLock, 0, 0, 0⟩ 1

/-- The REPAIR lock stage (R424). -/
def State.repairLocked (s : State) : Bool := s.rdb ⟨.secLock, 0, 0, 0⟩ 0

/-- A power domain is on (R19). -/
def State.domainOn (s : State) (d : Nat) : Bool := s.domains.contains d

/-- The recorded state of a unit. -/
def State.unit (s : State) (u : UnitId) : UnitState :=
  match s.units.find? (fun p => p.1 = u) with
  | some p => p.2
  | none => {}

/-- Change the recorded state of a unit. -/
def State.modUnit (s : State) (u : UnitId) (f : UnitState → UnitState) : State :=
  { s with units := (u, f (s.unit u)) :: s.units.filter (fun p => p.1 != u) }

/-- A Furrow whose exception record holds a MACHINE_CHECK (Table 15-10). -/
def State.machineChecked (s : State) (n : Nat) : Bool :=
  let st : Csr := ⟨.frwExcStatus, n, 0, 0⟩
  s.rdb st 13 && s.rdf st 7 0 = 0x0B

/-- A Furrow accepts work only while its management view is IN_SERVICE and its data path SERVING (R408). -/
def State.furrowServes (s : State) (f : FurrowId) : Bool :=
  let x := s.unit (.furrow f)
  s.domainOn f.val && !x.fenced && !x.failed && x.mgmt = .inService && !s.machineChecked f.val

/-- A unit is fenced (R401). -/
def State.fenced (s : State) (u : UnitId) : Bool := (s.unit u).fenced

/-- The power domain of a unit (Table 18-2). -/
def unitDomain : UnitId → Nat
  | .furrow n => n.val
  | .thresher k => 64 + k.val
  | .port p => 72 + p.val
  | .core c => 96 + c.val
  | .sievePair i => 114 + i.val
  | .winnowPair i => 116 + i.val

/-! ### Records, interrupts and Reeve messages -/

/-- Whether records of a type are protected (Table 17-9). -/
def recProtected (t : Nat) : Bool := [0x05, 0x06, 0x07, 0x08, 0x09, 0x0D, 0x0E, 0x11, 0x12, 0x14].contains t

/-- Hand a record to the Almanac controller (R460): 32 of the 128 places are kept for protected types. -/
def State.record (s : State) (type severity unit : Nat) (body : List Byte) : State :=
  let r : AlmRec := ⟨type, severity, unit, s.time, body⟩
  if s.almQueue.length < (if recProtected type then 128 else 96) then { s with almQueue := s.almQueue ++ [r] }
  else
    let s := { s with almDrops := Table.set s.almDrops type (Table.get 0 s.almDrops type + 1) }
    s.bump (if recProtected type then ⟨.almProtDropCnt, 0, 0, 0⟩ else ⟨.almDropCnt, 0, 0, 0⟩)

/-- A FAULT record: code, address or frame, remote node, slice and OP (Table 17-9). -/
def State.faultRecord (s : State) (code addr node slice op : Nat) : State :=
  s.record 0x01 2 0xFFFF (toBytes 8 code ++ toBytes 8 addr ++ toBytes 2 node ++ toBytes 1 slice ++ toBytes 1 op)

/-- A CONFIG_REFUSED record: the register's offset and the value refused. -/
def State.configRefused (s : State) (r : Csr) (v : Word) : State :=
  s.record 0x0C 1 0xFFFF (toBytes 8 r.offset ++ toBytes 8 v.toNat)

/-- A POWER record: event, index, Field (0xFF for none) and value (Table 18-8). Events 1 to 4 leave at most one record per
Field per second. -/
def State.powerRecord (s : State) (event index field value : Nat) : State :=
  let sev := if event = 5 then 1 else if 6 ≤ event && event ≤ 10 then 2 else 0
  let body := toBytes 1 event ++ toBytes 1 index ++ toBytes 1 field ++ toBytes 1 0 ++ toBytes 4 value
  if event ≤ 4 then
    let due := match Table.find s.powerRec field with
      | none => true
      | some t => t + 1000000000 ≤ s.time
    if due then { s with powerRec := Table.set s.powerRec field s.time }.record 0x10 sev 0xFFFF body else s
  else s.record 0x10 sev 0xFFFF body

/-- Assert an interrupt source; it stays asserted until its status is cleared (R400). -/
def State.assertIrq (s : State) (src : Nat) : State :=
  if s.irqs.contains src then s else { s with irqs := s.irqs ++ [src] }

/-- Release an interrupt source. -/
def State.releaseIrq (s : State) (src : Nat) : State := { s with irqs := s.irqs.filter (· != src) }

/-- The sources that follow a status register of their own: a Sower exception record (VALID of a Furrow of the Field),
a Reeve mailbox that is not empty, a port's CHANGE (Table 15-6). -/
def levelSources : List Nat := [65, 66, 67, 68, 69, 70, 71, 72, 137]

/-- The level of such a source. -/
def State.level (s : State) (src : Nat) : Bool :=
  if src < 69 then (List.range 16).any (fun i => s.rdb ⟨.frwExcStatus, 16 * (src - 65) + i, 0, 0⟩ 13)
  else if src < 73 then !(Table.get [] s.reeveMsgs (src - 69)).isEmpty
  else (List.range 24).any (fun q => s.rdb ⟨.prtStatus, q, 0, 0⟩ 13)

/-- Level-sensitive sources are asserted exactly while their status stands, and the interrupt controller's gateways see them
(R400). -/
def State.sense (s : State) : State :=
  let irqs := s.irqs.filter (fun i => !levelSources.contains i) ++ levelSources.filter s.level
  { s with irqs, plic := s.plic.gate irqs }

/-- The unit ID of R401 as 16 bits. -/
def unitCode : UnitId → Nat
  | .furrow n => n.val
  | .thresher k => 0x100 + k.val
  | .port p => 0x200 + p.val
  | .core c => 0x300 + c.val
  | .sievePair i => 0x400 + i.val
  | .winnowPair i => 0x500 + i.val

/-- Post a Reeve message: when the ring of 256 is full the newest is dropped and OVERRUN set (R402). -/
def State.post (s : State) (f : Nat) (m : Nat) : State :=
  let q := Table.get [] s.reeveMsgs f
  let m := m + (s.time / 1000) % 2 ^ 32 * 2 ^ 96
  if q.length < 256 then
    let s := { s with reeveMsgs := Table.set s.reeveMsgs f (q ++ [BitVec.ofNat 128 m]) }
    s.wrf ⟨.fldReeveStatus, f, 0, 0⟩ 8 0 (q.length + 1)
  else s.wrf ⟨.fldReeveStatus, f, 0, 0⟩ 9 9 1

/-! ### The operating-bin word and uncorrectable errors (Tables 17-2, 17-4) -/

/-- TEMP and VOLT of the last sample of a Field; with no sample yet no value is stated, and both are free. -/
def State.sampleOf (s : State) (field : Nat) : (Nat × Nat) × State :=
  match Table.find s.binSample field with
  | some p => (p, s)
  | none =>
    let (u, s) := s.free
    ((u.toNat % 40, u.toNat / 64 % 101), s)

/-- The operating-bin word of an event in a Field: `fmt` is bits [13:10] of the load pattern. The levels of slot use are
not kept, and bits [9:0] are free (log entry 29). -/
def State.binWord (s : State) (field fmt source : Nat) : Nat × State :=
  let ((temp, volt), s) := s.sampleOf field
  let (u, s) := s.free
  let p := u.toNat % 1024 + fmt % 16 * 1024
  let sig := (p % 256) ^^^ (p / 256)
  (temp + volt * 2 ^ 7 + s.rdf ⟨.clkAclk, field, 0, 0⟩ 1 0 * 2 ^ 14 + sig * 2 ^ 16 + p * 2 ^ 24 + source * 2 ^ 38, s)

/-- An ECC_UE record: structure, address, syndrome, operating-bin word. The syndrome is free. -/
def State.ueRecord (s : State) (unit structure' addr word : Nat) : State :=
  let (u, s) := s.free
  s.record 0x03 2 unit (toBytes 8 structure' ++ toBytes 8 addr ++ toBytes 8 u.toNat ++ toBytes 8 word)

/-! ### Self-test and repair of the arrays (R115, R133, R134, R454) -/

/-- The faulty rows that the n-th self-test finds in array k, ascending: a faulty multiplier makes its whole row faulty. -/
def faultyRows (n k : Nat) : List Nat :=
  (List.range 129).filter (fun r => Config.faultyRow n k r || (List.range 1024).any (Config.faultyMultiplier n k r))

/-- The faulty columns that the n-th self-test finds in array k, ascending. -/
def faultyColumns (n k : Nat) : List Nat := (List.range 513).filter (Config.faultyColumn n k)

/-- Valid entries for the named indices in ascending order of their spares, `w` bits for each. -/
def repairEntries (w : Nat) (named : List Nat) : Nat :=
  (named.zipIdx.map (fun p => (p.1 + 2 ^ (w - 1)) * 2 ^ (w * p.2))).sum

/-- The three map registers of array k after the n-th self-test: rows, columns 0 to 3, columns 4 to 6 (Table 5-7). -/
def repairMap (n k : Nat) : Word × Word × Word :=
  let rows := (faultyRows n k).take 3
  let cols := (faultyColumns n k).take 7
  let from' := (rows.zipIdx.map (fun p => p.1 * 2 ^ (8 * p.2))).sum
  (BitVec.ofNat 64 (from' + (2 ^ rows.length - 1) * 2 ^ 24), BitVec.ofNat 64 (repairEntries 11 (cols.take 4)),
    BitVec.ofNat 64 (repairEntries 11 (cols.drop 4)))

/-- The repair set of the n-th cold boot: the arrays' maps, then the rest. -/
def repairSet (n : Nat) : List Byte :=
  (List.range 8).flatMap (fun k => let m := repairMap n k; toBytes 8 m.1.toNat ++ toBytes 8 m.2.1.toNat ++ toBytes 8 m.2.2.toNat) ++
    Config.repairRest n

/-- How many spares the repair set uses. -/
def sparesUsed (n : Nat) : Nat :=
  ((List.range 8).map (fun k => min 3 (faultyRows n k).length + min 7 (faultyColumns n k).length)).sum + Config.repairSpares n

/-- The physical indices that an array's valid column entries name. -/
def State.columnsNamed (s : State) (k : Nat) : List Nat :=
  let entry (r : RegName) (e : Nat) : List Nat :=
    let v := s.rdf ⟨r, k, 0, 0⟩ (11 * e + 10) (11 * e)
    if v.testBit 10 then [v % 1024] else []
  (List.range 4).flatMap (entry .thrRmapCol0) ++ (List.range 3).flatMap (entry .thrRmapCol1)

/-- The physical indices that an array's valid row entries name. -/
def State.rowsNamed (s : State) (k : Nat) : List Nat :=
  let r : Csr := ⟨.thrRmapRow, k, 0, 0⟩
  (List.range 3).flatMap (fun j => if s.rdb r (24 + j) then [s.rdf r (8 * j + 7) (8 * j)] else [])

/-- A repair map that names a spare, or one index twice, marks its array failed (R133). -/
def State.mapBad (s : State) (k : Nat) : Bool :=
  let rows := s.rowsNamed k
  let cols := s.columnsNamed k
  rows.any (128 < ·) || cols.any (512 < ·) || rows.eraseDups.length != rows.length || cols.eraseDups.length != cols.length

/-- The last cold boot found array k failed: no power cycle and no later self-test brings it back before the next (R134). -/
def State.beyondRepair (s : State) (k : Nat) : Bool :=
  let n := s.almanac.boots
  3 < (faultyRows n k).length || 7 < (faultyColumns n k).length || Config.arrayFault n k || s.mapBad k

/-- Whether a unit is such an array. -/
def State.failedForGood (s : State) (u : UnitId) : Bool :=
  match u with
  | .thresher k => s.beyondRepair k.val
  | _ => false

/-! ### Power domains (R468, R469, R494) -/

/-- Registers of a unit that return to their reset values when its domain goes off (R494). -/
def regSwitched (u : UnitId) (r : Csr) : Bool :=
  match u with
  | .furrow n => r.reg.spec.blk = .furrow && r.n = n.val && r.reg != .frwSlice
  | .thresher k => r.reg.spec.blk = .array && r.n = k.val && !([.thrStatus, .thrRmapRow, .thrRmapCol0, .thrRmapCol1, .thrOpsOwn] : List RegName).contains r.reg
  | .port p => r.reg.spec.blk = .port && r.n = p.val && !([.prtCtl, .prtStatus, .prtStatusTime] : List RegName).contains r.reg
  | _ => false

/-- The Fields whose Reeve takes a unit's commands; a core belongs to no Field, and any Reeve takes its commands (log
entry 28). -/
def unitFields : UnitId → List Nat
  | .furrow n => [n.val / 16]
  | .thresher k => [k.val / 2]
  | .port p => [p.val / 6]
  | .core _ => [0, 1, 2, 3]
  | .sievePair i => [2 * i.val, 2 * i.val + 1]
  | .winnowPair i => [2 * i.val, 2 * i.val + 1]

/-- A power event's Reeve message (Table 15-14): 1 switched on, 2 switched off. -/
def State.powerMessage (s : State) (u : UnitId) (code : Nat) : State :=
  s.post ((unitFields u).headD 0) (3 + unitCode u * 2 ^ 8 + code * 2 ^ 24)

/-- A unit's domain is off: its SRAM and registers are lost (R469, R494). Counts since cold boot are kept. -/
def State.switchOff (s : State) (u : UnitId) : State :=
  if !s.domainOn (unitDomain u) then s
  else
    let s := { s with domains := s.domains.filter (· != (unitDomain u)) }
    let s := (s.resetRegs (regSwitched u)).modUnit u (fun x => { x with offDue := false, testing := false })
    let s := match u with
      | .furrow n => s.modFurrow n.val (fun r => { nextOp := r.nextOp, srCount := r.srCount })
      | .thresher k =>
        let a : ThrArray := Table.get {} s.arrays k.val
        let s := a.heldOwn.foldl (fun (s : State) (p : Nat × Word) => s.wr ⟨.thrOpsOwn, k.val, p.1, 0⟩ p.2) s
        let b : ThrArray :=
          { gleaned := a.gleaned, tiles := a.tiles, spareMiss := a.spareMiss, srCount := a.srCount, moved := a.moved }
        { s with arrays := Table.set s.arrays k.val b }
      | .port p =>
        let x : Port := Table.get {} s.ports p.val
        { s with ports := Table.set s.ports p.val { incarnation := x.incarnation } }
      | .core c => s.flushL2 c.val
      | _ => s
    s.powerMessage u 2

/-- A unit runs nothing that a switch-off would break off (R136, R469). -/
def State.unitIdle (s : State) : UnitId → Bool
  | .furrow n => (s.furrow n.val).prog.isNone && (s.furrow n.val).ops.isEmpty
  | .thresher k => (Table.get ({} : ThrArray) s.arrays k.val).running.isNone
  | .sievePair i => (Table.get ({} : UnitQueue) s.sieve (2 * i.val)).running.isNone && (Table.get ({} : UnitQueue) s.sieve (2 * i.val + 1)).running.isNone
  | .winnowPair i => (Table.get ({} : UnitQueue) s.winnow (2 * i.val)).running.isNone && (Table.get ({} : UnitQueue) s.winnow (2 * i.val + 1)).running.isNone
  | _ => true

/-- A switch-off that waited for a unit's work is made once the work has ended. -/
def State.offIfDue (s : State) (u : UnitId) : State :=
  if (s.unit u).offDue && s.unitIdle u then s.switchOff u else s

/-! ### Addresses and frames -/

/-- Frames of Granary (R223). -/
def frameCount : Nat := 6291456

/-- A local Granary address whose frame exists (R223). -/
def granaryOk (a : Nat) : Bool := a < frameCount * 65536

/-- A handle's fields (Table 3-1). -/
def handleNode (h : Word) : Nat := fld h 63 50
/-- The frame of a handle. -/
def handleFrame (h : Word) : Nat := fld h 49 26
/-- The generation of a handle. -/
def handleGen (h : Word) : Nat := fld h 25 16
/-- The format code of a handle. -/
def handleFmt (h : Word) : Nat := fld h 15 8
/-- A flag of a handle (Table 3-2). -/
def handleFlag (h : Word) (i : Nat) : Bool := h.getLsbD i

/-- A handle from its fields. -/
def mkHandle (node frame gen fmt flags : Nat) : Word :=
  BitVec.ofNat 64 (flags % 256 + fmt % 256 * 2 ^ 8 + gen % 1024 * 2 ^ 16 + frame % 2 ^ 24 * 2 ^ 26 + node % 2 ^ 14 * 2 ^ 50)

/-- A frame index that a handle may name (Table 3-1). -/
def frameNameable (n : Nat) : Bool := 1536 ≤ n && n < frameCount

/-- R65: the handle's generation equals the descriptor's. -/
def State.current (s : State) (h : Word) : Bool := handleGen h = (s.frame (handleFrame h)).gen

/-- R230: a program of a slice may access the frame. -/
def State.frameOf (s : State) (slice n : Nat) : Bool :=
  let d := s.frame n
  d.held && d.slice = slice

/-- A frame of a LIVE codebook record (R202). -/
def State.liveFrame (s : State) (n : Nat) : Bool := Table.has s.cbFrames n

/-- A frame that no MOV, FAB or Husk write reaches: one of a LIVE codebook record, of the codebook directory (256 bytes for each
ID) or of the tag table (768 frames) (R201, R202). -/
def State.guarded (s : State) (n : Nat) : Bool :=
  let tags := (s.rd ⟨.hskTagBase, 0, 0, 0⟩).toNat
  let dir := (s.rd ⟨.hskDirBase, 0, 0, 0⟩).toNat
  let ids := s.rdf ⟨.hskDirCtl, 0, 0, 0⟩ 4 0
  let within (base size : Nat) : Bool := base / 65536 ≤ n && 65536 * n < base + size
  s.liveFrame n || (tags != 0 && within tags 0x3000000) || (dir != 0 && ids != 0 && within dir (256 * 2 ^ ids))

/-- Table 9-2: the stack, the group and the home Furrow of a frame. -/
def frameStack (n : Nat) : Nat := n / 1572864

/-- The group w of a stack-local index (Table 9-2). -/
def groupOf (m : Nat) : Nat :=
  (bits m 3 0) ^^^ (bits m 7 4) ^^^ (bits m 11 8) ^^^ (bits m 15 12) ^^^ (bits m 19 16) ^^^ (bits m 20 20)

/-- The home Furrow of a frame (Table 9-2). -/
def homeFurrow (n : Nat) : Nat := 16 * frameStack n + groupOf (n % 1572864)

/-- Channel and line within the channel of line u of frame n (Table 9-2). -/
def channelOf (n u : Nat) : Nat × Nat :=
  let m := n % 1572864
  (16 * homeFurrow n + ((bits u 3 0) ^^^ (bits m 7 4)), 64 * (bits m 20 4) + bits u 9 4)

/-- Read a word of Granary. -/
def State.gword (s : State) (a : Nat) : Word := s.mem.word a

/-- Write a word of Granary. -/
def State.setGword (s : State) (a : Nat) (w : Word) : State := { s with mem := s.mem.writeWord a w }

/-- Write bytes of Granary. -/
def State.gwrite (s : State) (a : Nat) (bs : List Byte) (poison : Bool) : State :=
  { s with mem := s.mem.store a bs poison }

/-- Hull of a Furrow. -/
def State.hull (s : State) (f : Nat) : Memory := (s.furrow f).hull

/-- Change the Hull of a Furrow. -/
def State.modHull (s : State) (f : Nat) (g : Memory → Memory) : State :=
  s.modFurrow f (fun x => { x with hull := g x.hull })

/-- Clear the AGE of a frame (R233). -/
def State.touch (s : State) (n : Nat) : State :=
  let d := s.frame n
  if d.age = 0 then s else s.setFrame n { d with age := 0 }

/-- Clear the AGE of every frame of a byte range. -/
def State.touchRange (s : State) (a n : Nat) : State :=
  if n = 0 then s
  else (List.range ((a + n - 1) / 65536 - a / 65536 + 1)).foldl (fun s i => s.touch (a / 65536 + i)) s

/-! ### Metering (R395) -/

/-- Add to meter counter i of a slice; it runs while the slice is ACTIVE, DRAINING or in TEARDOWN. -/
def State.meter (s : State) (slice i by' : Nat) : State :=
  if 2 ≤ s.sliceState slice then s.count ⟨.slcMtr, slice, i, 0⟩ 63 0 by' else s

/-- SLICE_US: 1 per microsecond of system time for every slice (Table 15-4). -/
def State.meterSlices (s : State) (us : Nat) : State := (List.range 64).foldl (fun s sl => s.meter sl 0 us) s

/-- CORE_US: 1 per microsecond for each core bound to a slice and not in HOLD (Table 15-4). -/
def State.meterCores (s : State) (us : Nat) : State :=
  (List.range 18).foldl (fun s c =>
    let r : Csr := ⟨.slcCore, 0, c, 0⟩
    if s.rdb r 6 && !s.rdb r 7 then s.meter (s.rdf r 5 0) 8 us else s) s

/-- System time goes on to t; the meters count every microsecond it passes, a correction's too (R395). -/
def State.passTo (s : State) (t : Nat) : State :=
  let us := t / 1000 - s.time / 1000
  let s := { s with time := t }
  if us = 0 then s else (s.meterSlices us).meterCores us

end Sys2Proof.Machine
end

