-- ==== Sys2Proof/Machine/Directory.lean ====
section
/-! DEFINITION. The tables software places in Granary: geometry records, page filling, Husk tags, codebook records and
the adapter directory (R66 to R70, R199 to R203, R253 to R255, R514). -/

namespace Sys2Proof.Machine

/-! ### Geometry (R66, R68) -/

/-- The geometry table's base; 0 names no table (R514). DESIGN CHOICE: it is used as written, aligned to 64 KiB or not (log entry
33). -/
def State.geoBase (s : State) : Nat := (s.rd ⟨.shfGeoBase, 0, 0, 0⟩).toNat

/-- A geometry record's fields (Table 3-4). -/
structure Geometry where
  layers : Nat
  qHeads : Nat
  kvHeads : Nat
  dim : Nat
  refs : Nat
  perPage : List Nat
deriving DecidableEq, Repr

/-- Address of model m's record. -/
def State.geoAddr (s : State) (m : Nat) : Nat := s.geoBase + 32 * m

/-- The record of a model, none where there is no table or the record is not valid. -/
def State.geometry (s : State) (m : Nat) : Option Geometry :=
  if s.geoBase = 0 then none
  else
    let bs := s.mem.readBytes (s.geoAddr m) 32
    let w := leAt bs 0 4
    if w.testBit 31 then
      some ⟨bits w 8 0, bits w 15 9, bits w 20 16, bits w 30 21, leAt bs 4 4, (List.range 8).map (fun i => leAt bs (8 + 2 * i) 2)⟩
    else none

/-- The tokens-per-page place of a key/value format code (Table 3-4). -/
def fmtPlace (fmt : Nat) : Option Nat :=
  match fmt with
  | 0x01 => some 0
  | 0x02 => some 1
  | 0x03 => some 2
  | 0x04 => some 3
  | 0x05 => some 4
  | 0x20 => some 5
  | 0x21 => some 6
  | _ => none

/-- Tokens per page of a format, 0 where it is not admitted. -/
def Geometry.tokens (g : Geometry) (fmt : Nat) : Nat :=
  match fmtPlace fmt with
  | none => 0
  | some i => g.perPage.getD i 0

/-- k_f and s_f of Table 3-6 for H KV heads of dimension D. -/
def keyBytes (fmt d : Nat) : Nat :=
  match fmt with
  | 0x01 => 2 * d
  | 0x02 => 2 * d
  | 0x03 => d
  | 0x04 => d
  | 0x05 => d / 2
  | 0x20 => d / 4
  | 0x21 => d / 2
  | _ => 0

/-- Scale bytes of one token (Table 3-6). -/
def scaleBytes (fmt h d : Nat) : Nat :=
  match fmt with
  | 0x03 => 2
  | 0x04 => 2 * h
  | 0x05 => 2 * h * d / 32
  | _ => 0

/-- B_f = 2 × H × k_f + s_f. -/
def tokenBytes (fmt h d : Nat) : Nat := 2 * h * keyBytes fmt d + scaleBytes fmt h d

/-- Change the references of a model's record (R67). -/
def State.geoRef (s : State) (m : Nat) (up : Bool) : State :=
  if s.geoBase = 0 then s
  else
    let a := s.geoAddr m + 4
    let n := s.mem.readNat a 4
    { s with mem := s.mem.writeNat a 4 (if up then n + 1 else n - 1) }

/-! ### Husk tags and codebook records (R199 to R203) -/

/-- Address of a frame's tag, none while HSK_TAG_BASE is 0 (R514). -/
def State.tagAddr (s : State) (n : Nat) : Option Nat :=
  let b := (s.rd ⟨.hskTagBase, 0, 0, 0⟩).toNat
  if b = 0 then none else some (b + 8 * n)

/-- A frame's tag; while there is no table it reads with VALID clear. -/
def State.tag (s : State) (n : Nat) : Word :=
  match s.tagAddr n with
  | none => 0
  | some a => s.gword a

/-- VALID of a tag. -/
def tagValid (t : Word) : Bool := t.getLsbD 49
/-- FORMAT of a tag. -/
def tagFmt (t : Word) : Nat := fld t 31 24
/-- LENGTH of a tag. -/
def tagLen (t : Word) : Nat := fld t 48 32
/-- CB_ID and CB_GEN of a tag. -/
def tagCb (t : Word) : Nat × Nat := (fld t 19 0, fld t 23 20)

/-- A tag from its fields. -/
def mkTag (id gen fmt len : Nat) : Word :=
  BitVec.ofNat 64 (id % 2 ^ 20 + gen % 16 * 2 ^ 20 + fmt % 256 * 2 ^ 24 + len % 2 ^ 17 * 2 ^ 32 + 2 ^ 49)

/-- Whether a format is product-quantised. -/
def isPQ (fmt : Nat) : Bool := fmt = 0x20 || fmt = 0x21

/-- Address of codebook record (ID, generation), none where the ID has no record (R201, R514). -/
def State.cbAddr (s : State) (id gen : Nat) : Option Nat :=
  let b := (s.rd ⟨.hskDirBase, 0, 0, 0⟩).toNat
  let l := s.rdf ⟨.hskDirCtl, 0, 0, 0⟩ 4 0
  if b = 0 || l = 0 || 2 ^ l ≤ id then none else some (b + 256 * id + 16 * gen)

/-- Add to PAGES or QUEUED of a codebook record, whatever its state (R203); a record that does not exist has none. -/
def State.cbCount (s : State) (id gen : Nat) (queued up : Bool) : State :=
  match s.cbAddr id gen with
  | none => s
  | some a =>
    let (o, n) := if queued then (a + 12, 2) else (a + 8, 4)
    let v := s.mem.readNat o n
    { s with mem := s.mem.writeNat o n (if up then v + 1 else v - 1) }

/-- The record a tag names, if it names one. -/
def tagNames (t : Word) : Option (Nat × Nat) := if tagValid t && isPQ (tagFmt t) then some (tagCb t) else none

/-- The key of a record in the table of protected frames and among the records an operation holds. -/
def cbKey (id gen : Nat) : Nat := id * 16 + gen

/-- QUEUED of every record that an operation names rises when it is accepted, or falls when it completes (R203). -/
def State.holdBooks (s : State) (keys : List Nat) (up : Bool) : State :=
  keys.foldl (fun s k => s.cbCount (k / 16) (k % 16) true up) s

/-- Write a frame's tag; PAGES of the records named before and after follow (R200, R203). -/
def State.setTag (s : State) (n : Nat) (t : Word) : State :=
  match s.tagAddr n with
  | none => s
  | some a =>
    let o := tagNames (s.gword a)
    let s := s.setGword a t
    let s := match o with
      | some (i, g) => if tagNames t = some (i, g) then s else s.cbCount i g false false
      | none => s
    match tagNames t with
    | some (i, g) => if o = some (i, g) then s else s.cbCount i g false true
    | none => s

/-- Clear VALID of a frame's tag (R200). -/
def State.clearTag (s : State) (n : Nat) : State :=
  if tagValid (s.tag n) then s.setTag n (setFld (s.tag n) 49 49 0) else s

/-! ### Adapter directory (R253 to R255) -/

/-- log2 of the directory's size, none while it is disabled (R514). -/
def State.adpSize (s : State) : Option Nat :=
  let b := (s.rd ⟨.shfAdpBase, 0, 0, 0⟩).toNat
  let l := s.rdf ⟨.shfAdpCtl, 0, 0, 0⟩ 4 0
  if b = 0 || l = 0 then none else some l

/-- Address of directory entry i. -/
def State.adpEntry (s : State) (i : Nat) : Nat := (s.rd ⟨.shfAdpBase, 0, 0, 0⟩).toNat + 128 * i

/-- The eight probe positions of a key (customer [23:0], model [43:24]). -/
def adpProbes (l key : Nat) : List Nat :=
  let h := ((key % 2 ^ 24) ^^^ (bits key 43 24 * 16)) % 2 ^ l
  (List.range 8).map (fun i => (h + i) % 2 ^ l)

/-- The entry of a key, if eight probes find it. -/
def State.adpFind (s : State) (key : Nat) : Option Nat :=
  match s.adpSize with
  | none => none
  | some l =>
    ((adpProbes l key).map s.adpEntry).find? fun a =>
      let w := s.gword a
      w.getLsbD 44 && fld w 43 0 == key % 2 ^ 44

/-- The slot of a version in an entry. -/
def State.adpSlot (s : State) (a v : Nat) : Option Nat :=
  firstBelow 4 (fun j => fld (s.gword (a + 0x18 + 16 * j)) 7 0 == v && v != 0)

/-- CURRENT of a key, 0 where it has no adapter (R255). -/
def State.adpCurrent (s : State) (key : Nat) : Nat :=
  match s.adpFind key with
  | none => 0
  | some a => fld (s.gword a) 58 51

/-- The directory holds a version. -/
def State.adpHolds (s : State) (key v : Nat) : Bool :=
  match s.adpFind key with
  | none => false
  | some a => (s.adpSlot a v).isSome

/-- Change REFS of a version, if the directory holds it (R255). -/
def State.adpRef (s : State) (key v : Nat) (up : Bool) : State :=
  match s.adpFind key with
  | none => s
  | some a =>
    match s.adpSlot a v with
    | none => s
    | some j =>
      let o := a + 0x18 + 16 * j
      let w := s.gword o
      s.setGword o (setFld w 49 26 (if up then fld w 49 26 + 1 else fld w 49 26 - 1))

/-- The key of customer and model (Table 14-4). -/
def adpKey (customer model : Nat) : Nat := customer % 2 ^ 24 + model % 2 ^ 20 * 2 ^ 24

/-! ### Hold records (R335) -/

/-- A hold record (Table 13-1). -/
structure HoldRec where
  request : Word := 0
  epoch : Nat := 0
  covered : Nat := 0
  member : Nat := 0
  policy : Nat := 0
  fenced : Bool := false
  valid : Bool := true
  root : Word := 0
  owner : Nat := 0
  chunk : Nat := 0
  rebuilding : Bool := false
  expiry : Nat := 0
deriving DecidableEq, Repr

/-- log2 of a slice's hold table, none while it is disabled. -/
def State.holdSize (s : State) (slice : Nat) : Option Nat :=
  let b := (s.rd ⟨.fabHoldBase, 0, slice, 0⟩).toNat
  let l := s.rdf ⟨.fabHoldCtl, 0, slice, 0⟩ 4 0
  if l = 0 || b = 0 then none else some l

/-- Address of record i of a slice's hold table. -/
def State.holdAddr (s : State) (slice i : Nat) : Nat := (s.rd ⟨.fabHoldBase, 0, slice, 0⟩).toNat + 32 * i

/-- Record i of a slice's hold table. -/
def State.holdAt (s : State) (slice i : Nat) : HoldRec :=
  let a := s.holdAddr slice i
  let w1 := s.gword (a + 8)
  let w3 := s.gword (a + 24)
  { request := s.gword a, epoch := fld w1 31 0, covered := fld w1 55 32, member := fld w1 59 56, policy := fld w1 61 60,
    fenced := w1.getLsbD 62, valid := w1.getLsbD 63, root := s.gword (a + 16), owner := fld w3 13 0,
    chunk := fld w3 25 14, rebuilding := w3.getLsbD 26, expiry := fld w3 63 32 }

/-- Write record i of a slice's hold table. -/
def State.setHold (s : State) (slice i : Nat) (h : HoldRec) : State :=
  let a := s.holdAddr slice i
  let w1 := h.epoch % 2 ^ 32 + h.covered % 2 ^ 24 * 2 ^ 32 + h.member % 16 * 2 ^ 56 + h.policy % 4 * 2 ^ 60 +
    bitVal h.fenced 62 + bitVal h.valid 63
  let w3 := h.owner % 2 ^ 14 + h.chunk % 2 ^ 12 * 2 ^ 14 + bitVal h.rebuilding 26 + h.expiry % 2 ^ 32 * 2 ^ 32
  (((s.setGword a h.request).setGword (a + 8) (BitVec.ofNat 64 w1)).setGword (a + 16) h.root).setGword (a + 24)
    (BitVec.ofNat 64 w3)

/-- The eight probe positions of a request ID. -/
def holdProbes (l : Nat) (req : Word) : List Nat :=
  let h := (fld req 31 0 ^^^ fld req 63 32) % 2 ^ l
  (List.range 8).map (fun i => (h + i) % 2 ^ l)

/-- The place of a request's hold record, if eight probes find it. -/
def State.holdFind (s : State) (slice : Nat) (req : Word) : Option Nat :=
  match s.holdSize slice with
  | none => none
  | some l => (holdProbes l req).find? (fun i => let h := s.holdAt slice i; h.valid && h.request == req)

/-- The first invalid probe position of a request. -/
def State.holdFree (s : State) (slice : Nat) (req : Word) : Option Nat :=
  match s.holdSize slice with
  | none => none
  | some l => (holdProbes l req).find? (fun i => !(s.holdAt slice i).valid)

end Sys2Proof.Machine
end

