-- ==== Sys2Proof/Machine/Sower.lean ====
section
/-! DEFINITION. The Sower: registers, arrival counters, the slot word and its two stages of checks, exceptions, and how a
slot, a bundle and a program run (R88 to R112, R361 to R375). -/

namespace Sys2Proof.Machine

/-! ### Registers of a program (Table 4-4) -/

/-- General register n; g0 reads zero. -/
def Furrow.gr (r : Furrow) (n : Nat) : Word := if n = 0 then 0 else Table.get 0 r.g n
/-- Handle register n. -/
def Furrow.hr (r : Furrow) (n : Nat) : Word := Table.get 0 r.h n
/-- Predicate n; p0 is true. -/
def Furrow.pr (r : Furrow) (n : Nat) : Bool := n = 0 || Table.get false r.p n
/-- Vector register n. -/
def Furrow.vr (r : Furrow) (n : Nat) : VecWord := Table.get 0 r.v n
/-- Arrival counter n. -/
def Furrow.ar (r : Furrow) (n : Nat) : Arrival := Table.get {} r.a n

/-- Write a general register; g0 discards it (R98). -/
def State.setG (s : State) (f n : Nat) (v : Word) : State :=
  if n = 0 then s else s.modFurrow f (fun r => { r with g := Table.set r.g n v })
/-- Write a handle register. -/
def State.setH (s : State) (f n : Nat) (v : Word) : State :=
  s.modFurrow f (fun r => { r with h := Table.set r.h n v })
/-- Write a predicate; p0 discards it (R98). -/
def State.setP (s : State) (f n : Nat) (v : Bool) : State :=
  if n = 0 then s else s.modFurrow f (fun r => { r with p := Table.set r.p n v })
/-- Write a vector register. -/
def State.setV (s : State) (f n : Nat) (v : VecWord) : State :=
  s.modFurrow f (fun r => { r with v := Table.set r.v n v })
/-- Write an arrival counter with its status. -/
def State.setA (s : State) (f n : Nat) (v : Arrival) : State :=
  s.modFurrow f (fun r => { r with a := Table.set r.a n v })

/-! ### Arrival counters (R102, R106) -/

/-- One decrement, saturating at −2,147,483,648 (R102). -/
def decrement (v : Int) : Int := max (v - 1) (-2147483648)

/-- A completion with any bit of [6:1] (Table 4-6). -/
def Done.error (d : Done) : Bool :=
  d.poison || d.timeout || d.refused || d.code != 0 || d.cancelled || d.check

/-- STATUS of Table 4-6: a status other than OK that is no refusal, no time-out and no cause of a poisoned record (R167,
R289, R298). -/
def Done.status (d : Done) : Bool := d.code != 0 && !d.refused && !d.timeout && !d.soft

/-- The status after a completion: bits stick and the first code is kept (R106, Table 4-6). -/
def Done.onto (d : Done) (stat : Nat) : Nat :=
  if d.error then
    let n (b : Bool) (k : Nat) : Nat := if b then 2 ^ k else 0
    let bits' := n true 0 + n d.poison 1 + n d.timeout 2 + n d.refused 3 + n d.status 4 + n d.cancelled 5 + n d.check 6
    (stat ||| bits') + (if stat.testBit 0 then 0 else d.code % 256 * 256)
  else stat

/-- A completion reaches the counter it names: one decrement, and its status (R102, R106). -/
def State.arrive (s : State) (f : Nat) (ctr : Option Nat) (d : Done) : State :=
  match ctr with
  | none => s
  | some n =>
    let a := (s.furrow f).ar n
    s.setA f n ⟨decrement a.val, d.onto a.stat⟩

/-- An asynchronous operation of a Furrow, if outstanding. -/
def State.op? (s : State) (f id : Nat) : Option AsyncOp := (s.furrow f).ops.find? (fun o => o.id = id)

/-- Replace an outstanding operation. -/
def State.setOp (s : State) (f : Nat) (o : AsyncOp) : State :=
  s.modFurrow f (fun r => { r with ops := r.ops.map (fun p => if p.id = o.id then o else p) })

/-- Change an outstanding operation. -/
def State.modOp (s : State) (f id : Nat) (g : AsyncOp → AsyncOp) : State :=
  match s.op? f id with
  | none => s
  | some o => s.setOp f (g o)

/-- An operation completes: it is no longer outstanding and its counter falls once (R102). -/
def State.finish (s : State) (f id : Nat) (d : Done) : State :=
  match s.op? f id with
  | none => s
  | some o =>
    let s := s.modFurrow f (fun r => { r with ops := r.ops.filter (fun p => p.id != id) })
    s.arrive f o.counter d

/-- OK. -/
def Done.ok : Done := {}
/-- A status other than OK. -/
def Done.ofCode (c : Nat) : Done := { code := c }

/-! ### The slot word (R361 to R365) -/

/-- What a register field of an instruction holds. -/
inductive RK where
  | no | g | h | p | v | a
deriving DecidableEq, Repr

/-- Operand formats (Table 14-2). -/
inductive Fmt where
  | r | i | b
deriving DecidableEq, Repr

/-- An encoding row: opcode, format, register fields, which of X and Y are written, the modifier bits the row names, a
test for reserved values of them and of the immediate, whether a counter may be named, and which other fields it
uses. -/
structure EncSpec where
  opc : Nat
  fmt : Fmt := .r
  x : RK := .no
  y : RK := .no
  z : RK := .no
  w : RK := .no
  v : RK := .no
  dx : Bool := false
  dy : Bool := false
  mods : Nat := 0
  reserved : Slot → Bool := fun _ => false
  badMod : Slot → Bool := fun _ => false
  ctr : Bool := false
  imm : Bool := false

/-- R362: a register field holds its number in its low bits and zeros above them. -/
def RK.fits (k : RK) (n : Nat) : Bool :=
  match k with
  | .no => n = 0
  | .g => true
  | .h => n < 16
  | .p => n < 8
  | .v => n < 32
  | .a => n < 32

/-- The slot word of an instruction (Tables 14-1 and 14-2). -/
def EncSpec.word (e : EncSpec) (o : Slot) : Word :=
  let common := e.opc + o.pred.val * 2 ^ 8 + (match o.ctr with | none => 0 | some c => 2 ^ 11 + c.val * 2 ^ 12)
  let rest :=
    match e.fmt with
    | .r => o.x.val * 2 ^ 17 + o.y.val * 2 ^ 23 + o.z.val * 2 ^ 29 + o.w.val * 2 ^ 35 + o.v.val * 2 ^ 41 + o.mod.toNat * 2 ^ 47
    | .i => o.x.val * 2 ^ 17 + o.y.val * 2 ^ 23 + o.imm.toNat * 2 ^ 29 + o.mod.toNat % 8 * 2 ^ 61
    | .b => o.x.val * 2 ^ 17 + o.y.val * 2 ^ 23 + o.tgt.val * 2 ^ 29
  BitVec.ofNat 64 (common + rest)

/-- A 6-bit field of a slot word. -/
def reg6 (w : Word) (lo : Nat) : Fin 64 := Fin.ofNat 64 (fld w (lo + 5) lo)

/-- The operand fields of a slot word under a row's format. -/
def EncSpec.slot (e : EncSpec) (w : Word) : Slot :=
  let base : Slot :=
    { pred := Fin.ofNat 8 (fld w 10 8), ctr := if w.getLsbD 11 then some (Fin.ofNat 32 (fld w 16 12)) else none,
      x := reg6 w 17, y := reg6 w 23 }
  match e.fmt with
  | .r => { base with z := reg6 w 29, w := reg6 w 35, v := reg6 w 41, mod := BitVec.ofNat 12 (fld w 58 47) }
  | .i => { base with imm := BitVec.ofNat 32 (fld w 60 29), mod := BitVec.ofNat 12 (fld w 63 61) }
  | .b => { base with tgt := Fin.ofNat 4096 (fld w 40 29) }

/-- R365: a modifier bit outside the row's fields, or a value the row calls ILLEGAL_OPCODE. -/
def EncSpec.illegalMod (e : EncSpec) (o : Slot) : Bool := (o.mod.toNat &&& (4095 - e.mods)) != 0 || e.badMod o

/-- R362, R363, R365: a field that must be zero is not, a reserved modifier value, or a counter the row does not take. -/
def EncSpec.reservedField (e : EncSpec) (o : Slot) : Bool :=
  !(e.x.fits o.x.val && e.y.fits o.y.val && e.z.fits o.z.val && e.w.fits o.w.val && e.v.fits o.v.val) ||
    (!e.ctr && o.ctr.isSome) || (!e.imm && o.imm != 0) || (e.fmt != .b && o.tgt.val != 0) || e.reserved o

/-- The first-stage failure of one slot's encoding: ILLEGAL_OPCODE, then RESERVED_FIELD (R368). -/
def EncSpec.fault (e : EncSpec) (o : Slot) : Option Nat :=
  if e.illegalMod o then some 0x01 else if e.reservedField o then some 0x03 else none

/-! ### One slot -/

/-- What a slot reads: its Furrow's registers as they stood before the bundle (R98), its fields, and its program. -/
structure Ctx where
  f : Nat
  r : Furrow
  o : Slot
  slice : Nat

/-- General register X. -/
def Ctx.x (c : Ctx) : Word := c.r.gr c.o.x.val
/-- General register Y. -/
def Ctx.y (c : Ctx) : Word := c.r.gr c.o.y.val
/-- General register Z. -/
def Ctx.z (c : Ctx) : Word := c.r.gr c.o.z.val
/-- General register W. -/
def Ctx.w (c : Ctx) : Word := c.r.gr c.o.w.val
/-- The sign-extended immediate. -/
def Ctx.simm (c : Ctx) : Word := c.o.imm.signExtend 64
/-- The zero-extended immediate. -/
def Ctx.uimm (c : Ctx) : Word := c.o.imm.zeroExtend 64
/-- The modifier field. -/
def Ctx.mod (c : Ctx) : Nat := c.o.mod.toNat
/-- Modifier bit 11, .RA (R365). -/
def Ctx.ra (c : Ctx) : Bool := c.o.mod.getLsbD 11
/-- The counter named. -/
def Ctx.ctr (c : Ctx) : Option Nat := c.o.ctr.map (·.val)
/-- The Field of the Furrow. -/
def Ctx.field (c : Ctx) : Nat := c.f / 16

/-- One instruction: encoding row, the class it counts against (Table 4-3), when it stalls, its issue checks as
(exception code, FRW_EXC_INFO) pairs, its synchronous reads of Hull, and its effect. -/
structure SlotOp where
  enc : EncSpec
  cls : Option OpClass := none
  stalls : Ctx → State → Bool := fun _ _ => false
  checks : Ctx → State → List (Nat × Word) := fun _ _ => []
  /-- what it reads of Hull at issue: first byte and length (R437) -/
  reads : Ctx → State → List (Nat × Nat) := fun _ _ => []
  run : Ctx → State → State

/-- Outstanding limits (Table 4-3). -/
def OpClass.limit : OpClass → Nat
  | .mov => 32
  | .fab => 64
  | .cod => 16
  | .mat => 8
  | .sys => 16

/-- Outstanding operations of a class. -/
def Furrow.outstanding (r : Furrow) (k : OpClass) : Nat := (r.ops.filter (fun o => o.cls = k)).length

/-- R97: the class has a place free. -/
def SlotOp.room (op : SlotOp) (r : Furrow) : Bool :=
  match op.cls with
  | none => true
  | some k => r.outstanding k < k.limit

/-- The order of the second-stage checks (R368): RESERVED_FIELD, ALIGNMENT, ADDRESS_RANGE, PROTECTION, RA_TARGET,
UNIT_OFF; after them MACHINE_CHECK, for what the read itself finds (R437, log entry 11). -/
def checkOrder : List Nat := [0x03, 0x08, 0x05, 0x06, 0x09, 0x07, 0x0B]

/-- The first failure in the order of R368. -/
def firstFailure (l : List (Nat × Word)) : Option (Nat × Word) :=
  checkOrder.findSome? (fun c => l.find? (fun p => p.1 = c))

/-- A check that fails unless a condition holds. -/
def chk (ok : Bool) (code : Nat) (info : Word) : List (Nat × Word) := if ok then [] else [(code, info)]

/-- MACHINE_CHECK where a synchronous read of Hull finds an uncorrectable error in a line without the mark (R437). -/
def SlotOp.upsets (op : SlotOp) (c : Ctx) (s : State) : List (Nat × Word) :=
  (op.reads c s).filterMap (fun p => ((s.hull c.f).firstUpset p.1 p.2).map (fun l => (0x0B, BitVec.ofNat 64 (64 * l))))

/-- The second-stage checks of a slot. -/
def SlotOp.allChecks (op : SlotOp) (c : Ctx) (s : State) : List (Nat × Word) := op.checks c s ++ op.upsets c s

/-- The general registers a slot names. -/
def EncSpec.gregs (e : EncSpec) (o : Slot) : List Nat :=
  [(e.x, o.x), (e.y, o.y), (e.z, o.z), (e.w, o.w), (e.v, o.v)].filterMap (fun p => if p.1 = .g then some p.2.val else none)

/-- A general register awaits the status of an HO.ADOPT that has not answered yet (R97, R101, R359). -/
def State.awaited (s : State) (f n : Nat) : Bool := n != 0 && s.adoptions.any (fun p => p.2.furrow = f && p.2.dest = n)

/-- A slot holds its bundle back: WAIT or FENCE, a descriptor read, or a register that awaits its result, read or
written (R97, R101). -/
def SlotOp.waits (op : SlotOp) (c : Ctx) (s : State) : Bool :=
  op.stalls c s || (op.enc.gregs c.o).any (s.awaited c.f)

/-- Change the running program. -/
def State.modProg (s : State) (f : Nat) (g : Program → Program) : State :=
  s.modFurrow f (fun r => { r with prog := r.prog.map g })

/-- An exception is raised: no slot of the bundle has any effect and no later bundle issues (R107). -/
def State.raise (s : State) (f code slot : Nat) (info : Word) : State :=
  s.modProg f (fun p => { p with phase := .excepting ⟨code, slot, p.pc, info⟩, stallSince := none })

/-- What a found error leaves: the line's mark, the count and an ECC_UE record; the event joins its unit's window (R437,
R449). -/
def State.upsetFound (s : State) (f a : Nat) : State :=
  let s := (s.modHull f (fun m => m.markLines (a / 64) 1 true)).bump ⟨.frwRasUeCnt, f, 0, 0⟩
  let (w, s) := s.binWord (f / 16) 0xF 0
  let e : BinEvent := { unit := .furrow (Fin.ofNat 64 f), time := s.time, key := w % 2 ^ 24 }
  State.ueRecord { s with binEvents := s.binEvents ++ [e] } f 1 a w

/-- The failure of a slot's second stage is raised: MACHINE_CHECK names no slot (Table 4-7). -/
def State.slotRaise (s : State) (f k : Nat) (e : Nat × Word) : State :=
  if e.1 = 0x0B then (s.upsetFound f e.2.toNat).raise f 0x0B 0 e.2 else s.raise f e.1 k e.2

/-- The Furrow's program is running and its Furrow is powered. -/
def State.running (s : State) (f : Nat) : Option Program :=
  if s.domainOn f then (s.furrow f).prog.filter (fun p => p.phase = .running) else none

/-- The stall of a bundle begins, if it has not (R107: FRW_WDOG counts one stall). -/
def State.stall (s : State) (f : Nat) : State :=
  s.modProg f (fun p => { p with stallSince := p.stallSince.or (some s.time) })

/-- The slot number an opcode belongs to (Table 14-3); shared scalar opcodes count as S1 here. -/
def slotOf (opc : Nat) : Nat :=
  if opc < 0x20 then 0 else if opc < 0x40 then 1 else if opc < 0x60 then 2 else if opc < 0x80 then 3
  else if opc < 0xA0 then 4 else if opc < 0xC0 then 5 else if opc < 0xD0 then 6 else 7

/-- One slot of the running program, alone: checks, then its effect; with a false predicate only the decrement of
R99; nothing where the Furrow runs no program (log entry 9). -/
def runSlot (op : SlotOp) (f : FurrowId) (o : Slot) (s : State) : State :=
  match s.running f.val with
  | none => s
  | some p =>
    let r := s.furrow f.val
    let c : Ctx := ⟨f.val, r, o, p.slice⟩
    match op.enc.fault o with
    | some code => s.raise f.val code (slotOf op.enc.opc) (op.enc.word o)
    | none =>
      if r.pr o.pred.val then
        if op.waits c s || !op.room r then s.stall f.val
        else
          match firstFailure (op.allChecks c s) with
          | some e => s.slotRaise f.val (slotOf op.enc.opc) e
          | none => op.run c (s.modProg f.val (fun p => { p with stallSince := none }))
      else s.arrive f.val c.ctr Done.ok

/-! ### Issue of asynchronous operations -/

/-- What an asynchronous instruction captures at issue: register operands and descriptors (R101). -/
def Ctx.capture (c : Ctx) (op : EncSpec) (cls : OpClass) (desc : List (List Byte)) (id : Nat) : AsyncOp :=
  { id, opc := op.opc, cls, mod := c.mod, x := c.x, y := c.y, z := c.z, w := c.w, slice := c.slice,
    counter := c.ctr, ra := (op.mods &&& 2048) != 0 && c.ra, desc }

/-- A new outstanding operation; answers its number. -/
def Ctx.issue (c : Ctx) (op : EncSpec) (cls : OpClass) (desc : List (List Byte)) (s : State) : Nat × State :=
  let (id, s) := s.fresh
  (id, s.modFurrow c.f (fun r => { r with ops := r.ops ++ [c.capture op cls desc id] }))

/-- The same, for an effect that needs no number. -/
def Ctx.issue' (c : Ctx) (op : EncSpec) (cls : OpClass) (desc : List (List Byte)) (s : State) : State :=
  (c.issue op cls desc s).2

/-- An operation that completes at once: its counter falls with its status (R379, R380). -/
def Ctx.instant (c : Ctx) (d : Done) (s : State) : State := s.arrive c.f c.ctr d

/-! ### Operand checks (Tables 14-4 and 14-5) -/

/-- A packed operand: the bits marked 0 are clear (R367). -/
def ckBits (w : Word) (allowed : Nat) : List (Nat × Word) := chk (w.toNat &&& (2 ^ 64 - 1 - allowed) == 0) 0x03 w

/-- A Hull operand of `n` bytes at a multiple of `al` (Table 14-5). -/
def ckHull (w : Word) (n al : Nat) : List (Nat × Word) :=
  ckBits w 0xFFFFFFFF ++ chk (fld w 31 0 % al == 0) 0x08 w ++ chk (n == 0 || fld w 31 0 + n ≤ 0x300000) 0x05 w

/-- R230 and Table 14-5: a program of a slice reads or writes the frame of an address. -/
def State.frameFault (s : State) (slice n : Nat) (write : Bool) : Bool :=
  !(s.frameOf slice n) || (s.frame n).pool = 3 || (write && s.guarded n)

/-- A local Granary range: first and last byte exist (R223), and its first frame is accessible (R370). -/
def ckGranary (s : State) (slice : Nat) (w : Word) (n al : Nat) (write : Bool) : List (Nat × Word) :=
  chk (w.toNat % al == 0) 0x08 w ++ chk (granaryOk w.toNat && (n == 0 || granaryOk (w.toNat + n - 1))) 0x05 w ++
    chk (!s.frameFault slice (w.toNat / 65536) write) 0x06 w

/-- A local handle register: its frame can be named (Table 14-5); with `prot`, it is the slice's (R517 leaves this to a
status in S7). -/
def ckHandle (s : State) (slice : Nat) (h : Word) (prot : Bool) : List (Nat × Word) :=
  chk (frameNameable (handleFrame h)) 0x05 h ++ chk (!prot || s.frameOf slice (handleFrame h)) 0x06 h

/-- A table selector: reserved bits and the frame's range (Tables 14-4 and 14-5). -/
def ckSelector (w : Word) : List (Nat × Word) :=
  ckBits w (2 ^ 53 - 1) ++ chk (frameNameable (fld w 22 0)) 0x05 w

/-- The Sheaf partition of a slice: first index and count, none when not enabled (R44). -/
def State.partition (s : State) (slice : Nat) : Option (Nat × Nat) :=
  let r : Csr := ⟨.shfPart, 0, slice, 0⟩
  if s.rdb r 32 then some (s.rdf r 14 0, s.rdf r 31 16) else none

/-- An index of a slice's partition. -/
def State.inPartition (s : State) (slice i : Nat) : Bool :=
  match s.partition slice with
  | none => false
  | some (b, n) => b ≤ i && i < b + n

/-- A Sheaf operand (Tables 14-4 and 14-5). -/
def ckSheaf (s : State) (slice : Nat) (w : Word) : List (Nat × Word) :=
  ckBits w 0x7FFF ++ chk (s.inPartition slice (fld w 14 0)) 0x06 w

/-- A word selector. -/
def ckWordSel (s : State) (slice : Nat) (w : Word) : List (Nat × Word) :=
  ckBits w 0xFFFFF ++ chk (s.inPartition slice (fld w 14 0)) 0x06 w

/-- A layer selector. -/
def ckLayerSel (s : State) (slice : Nat) (w : Word) : List (Nat × Word) :=
  ckBits w 0x7FFF01FF ++ chk (s.inPartition slice (fld w 30 16)) 0x06 w

/-- A layer operand. -/
def ckLayer (w : Word) : List (Nat × Word) := ckBits w 0x1FF

/-- A global address: the slice's job ID is not 0 (R286), and the address is aligned. -/
def ckGlobal (s : State) (slice : Nat) (w : Word) (al : Nat) : List (Nat × Word) :=
  chk (w.toNat % al == 0) 0x08 w ++ chk (s.rdf ⟨.slcJob, slice, 0, 0⟩ 31 0 != 0) 0x06 w

/-- Status and result in the layout of Table 14-6. -/
def statusWord (code result : Nat) : Word := BitVec.ofNat 64 (code % 256 + result * 65536)

/-- An S7 instruction returns a status: its destination takes Table 14-6's layout and its counter falls, with the code
in the counter's status when it is not OK (R375). -/
def Ctx.status (c : Ctx) (code result : Nat) (s : State) : State :=
  (s.setG c.f c.o.x.val (statusWord code result)).arrive c.f c.ctr (Done.ofCode code)

/-- The status alone, for an instruction whose counter falls later (R383, *apply*). -/
def Ctx.statusOnly (c : Ctx) (code result : Nat) (s : State) : State := s.setG c.f c.o.x.val (statusWord code result)

end Sys2Proof.Machine
end

