-- ==== Sys2Proof/Machine/Quant.lean ====
section
/-! DEFINITION. Quantisation: scale exponents, rounding draws, narrowing and the statistics sets (R139 to R158). -/

namespace Sys2Proof.Machine

/-- The void exponent (R139). -/
def voidExp : Nat := 0x80

/-- Element kinds a conversion narrows to. -/
inductive Narrow where
  | int (w : Nat) (isSigned : Bool)
  | fp (f : FFmt)
deriving DecidableEq, Repr

/-- One element narrowed: its code as an unsigned number of the target's width, its value, and whether it is clipped. -/
def Narrow.apply (t : Narrow) (r : RMode) (v : FVal) : Nat × FVal × Bool :=
  match t with
  | .int w sg =>
    let (c, cl) := narrowInt w sg r v
    (unsigned w c, FVal.ofInt c, cl)
  | .fp f =>
    let (c, cl) := f.narrow r v
    (c, f.decode c, cl)

/-- The bound Q of R141 as m × 2^e: 127, 7, or 448. -/
def Narrow.bound : Narrow → FVal
  | .int 4 _ => FVal.ofInt 7
  | .int _ _ => FVal.ofInt 127
  | .fp _ => FVal.ofInt 448

/-- The largest magnitude of a group, none where it holds a NaN or an infinity (R141). -/
def groupMax : List FVal → Option FVal
  | [] => some FVal.zero
  | v :: t =>
    if v.isFinite then (groupMax t).map (fun m => if FVal.lt m v.abs then v.abs else m) else none

/-- R141: the smallest e from −127 to 127 with max ≤ Q × 2^e, as a byte; the void exponent for a group that holds a
NaN or an infinity. -/
def chooseExp (t : Narrow) (g : List FVal) : Nat :=
  match groupMax g with
  | none => voidExp
  | some m =>
    let fits (e : Int) : Bool := !FVal.lt (FVal.scale e t.bound) m
    if m.isZero then unsigned 8 (-127)
    else
      let e0 := FVal.log2Floor m - FVal.log2Floor t.bound
      let e := if fits (e0 - 1) then e0 - 1 else if fits e0 then e0 else e0 + 1
      unsigned 8 (max (-127) (min 127 e))

/-- The value of an exponent byte. -/
def expVal (b : Nat) : Int := signed 8 b

/-- R152, R153: the 16-bit draw for element i of a unit's stochastic operation. -/
def srDraw (key : Word) (unit count i : Nat) : Nat :=
  let ctr := i / 8 + count % 2 ^ 64 * 2 ^ 32 + unit % 256 * 2 ^ 96
  bits (philox ctr key.toNat) (16 * (i % 8) + 15) (16 * (i % 8))

/-- The rounding mode of Table 6-5 for element i. -/
def rmodeOf (code : Nat) (key : Word) (unit count i : Nat) : RMode :=
  match code with
  | 0 => .nearest
  | 1 => .zero
  | _ => .stochastic (srDraw key unit count i)

/-! ### Statistics (R156 to R158) -/

/-- One element of a chunk: its input, its dequantised result (none where it adds nothing to SSE and SSX), and
whether CLIP counts it. -/
structure StatElem where
  x : FVal
  q : Option FVal
  clip : Bool
deriving DecidableEq, Repr

/-- The histogram bin of an input (R157). -/
def histBin (base : Int) (x : FVal) : Nat :=
  if !x.isFinite then 31
  else if x.isZero then 0
  else
    let e := FVal.log2Floor x
    if e < base then 0 else if base + 29 < e then 31 else (e - base + 1).toNat

/-- An exact sum of squares as an FP32 value, off by the open rounding of R156 where more than one term
is not zero. -/
def chunkSum (draw : Nat) (xs : List FVal) : Nat :=
  let t := xs.foldl (fun a x => FVal.add a (FVal.mul x x)) FVal.zero
  let c := fp32.encode t
  if (xs.filter (fun x => !x.isZero)).length ≤ 1 then c
  else min (c + (Config.sumUlp draw).val - 128) fp32.infCode

/-- A 32-bit count that saturates (R156). -/
def State.satCount (s : State) (r : Csr) (by' : Nat) : State := s.wrf r 31 0 (satInc 32 (s.rdf r 31 0) by')

/-- One chunk reaches a statistics set as one update (R156). -/
def State.statChunk (s : State) (f set : Nat) (es : List StatElem) : State :=
  let base := signed 8 (s.rdf ⟨.frwQstCtl, f, set, 0⟩ 7 0)
  let counted := es.filterMap (fun e => e.q.map (fun q => (e.x, q)))
  let sse := chunkSum s.freeCount (counted.map (fun p => FVal.add p.1 (FVal.neg p.2)))
  let ssx := chunkSum (s.freeCount + 1) (counted.map (·.1))
  let s := { s with freeCount := s.freeCount + 2 }
  let s := s.wrf ⟨.frwQstSse, f, set, 0⟩ 31 0 (f32add (s.rdf ⟨.frwQstSse, f, set, 0⟩ 31 0) sse)
  let s := s.wrf ⟨.frwQstSsx, f, set, 0⟩ 31 0 (f32add (s.rdf ⟨.frwQstSsx, f, set, 0⟩ 31 0) ssx)
  let s := s.satCount ⟨.frwQstCount, f, set, 0⟩ es.length
  let s := s.satCount ⟨.frwQstClip, f, set, 0⟩ (es.filter (·.clip)).length
  es.foldl (fun s e => s.satCount ⟨.frwQstHist, f, set, histBin base e.x⟩ 1) s

/-- Clear every register of a statistics set but its BASE (Table 6-9). -/
def State.statClear (s : State) (f set : Nat) : State :=
  s.resetRegs fun r =>
    r.n = f && r.j = set &&
      (r.reg = .frwQstSse || r.reg = .frwQstSsx || r.reg = .frwQstCount || r.reg = .frwQstClip || r.reg = .frwQstHist)

/-- Codes and statistics of one governed group under exponent byte e: a void exponent makes every code 0 (R141). -/
def quantGroup (t : Narrow) (e : Nat) (mode : Nat → RMode) (i0 : Nat) (g : List FVal) : List Nat × List StatElem :=
  if e = voidExp then (g.map (fun _ => 0), g.map (fun x => ⟨x, none, false⟩))
  else
    let rs := g.zipIdx.map fun p =>
      let (c, q, cl) := t.apply (mode (i0 + p.2)) (FVal.scale (-(expVal e)) p.1)
      let back := FVal.scale (expVal e) q
      (c, (⟨p.1, if p.1.isFinite && !cl then some back else none, cl⟩ : StatElem))
    (rs.map (·.1), rs.map (·.2))

/-- The count of stochastic operations of a Furrow advances (R153). -/
def State.srStep (s : State) (f : Nat) (sr : Bool) : State :=
  if sr then s.modFurrow f (fun r => { r with srCount := r.srCount + 1 }) else s

end Sys2Proof.Machine
end

