-- ==== Sys2Proof/Machine/Scalar.lean ====
section
/-! DEFINITION. The scalar and branch instructions of S0 and S1 (R376, Table 14-8) and the ends of a program (R93). -/

namespace Sys2Proof.Machine

/-- What a command answers. -/
abbrev Res := Host.Outcome State Fault Refusal

/-- A command's answer: the next state, its level-sensitive interrupts sensed. -/
def answer (s : State) : Res := .next s.sense

/-- gX = gY op gZ. -/
def alu (opc : Nat) (fn : Word → Word → Word) : SlotOp :=
  { enc := { opc, x := .g, y := .g, z := .g, dx := true }
    run := fun c s => s.setG c.f c.o.x.val (fn c.y c.z) }

/-- gX = gY op IMM, the immediate extended as the row says. -/
def aluImm (opc : Nat) (sign : Bool) (fn : Word → Word → Word) : SlotOp :=
  { enc := { opc, fmt := .i, x := .g, y := .g, dx := true, imm := true }
    run := fun c s => s.setG c.f c.o.x.val (fn c.y (if sign then c.simm else c.uimm)) }

/-- gX = gY shifted by IMM, which lies in 0 to 63. -/
def shiftImm (opc : Nat) (fn : Word → Nat → Word) : SlotOp :=
  { enc := { opc, fmt := .i, x := .g, y := .g, dx := true, imm := true, reserved := fun o => 64 ≤ o.imm.toNat }
    run := fun c s => s.setG c.f c.o.x.val (fn c.y c.o.imm.toNat) }

/-- pX = comparison of gY with gZ. -/
def compare (opc : Nat) (fn : Word → Word → Bool) : SlotOp :=
  { enc := { opc, x := .p, y := .g, z := .g, dx := true }
    run := fun c s => s.setP c.f c.o.x.val (fn c.y c.z) }

/-- pX = comparison of gY with the sign-extended IMM. -/
def compareImm (opc : Nat) (fn : Word → Word → Bool) : SlotOp :=
  { enc := { opc, fmt := .i, x := .p, y := .g, dx := true, imm := true }
    run := fun c s => s.setP c.f c.o.x.val (fn c.y c.simm) }

/-- A taken branch names the next bundle (R100). -/
def State.jump (s : State) (f : Nat) (t : Nat) : State := s.modProg f (fun p => { p with pc := t })

/-- Jump to TGT when gX and gY compare so. -/
def branch (opc : Nat) (fn : Word → Word → Bool) : SlotOp :=
  { enc := { opc, fmt := .b, x := .g, y := .g }
    run := fun c s => if fn c.x c.y then s.jump c.f c.o.tgt.val else s }

/-- B. -/
def opB : SlotOp := { enc := { opc := 0x01, fmt := .b }, run := fun c s => s.jump c.f c.o.tgt.val }
/-- BEQ. -/
def opBeq : SlotOp := branch 0x02 (fun a b => a == b)
/-- BNE. -/
def opBne : SlotOp := branch 0x03 (fun a b => a != b)
/-- BLT, signed. -/
def opBlt : SlotOp := branch 0x04 (fun a b => a.slt b)
/-- BGE, signed. -/
def opBge : SlotOp := branch 0x05 (fun a b => !a.slt b)
/-- BLTU. -/
def opBltu : SlotOp := branch 0x06 (fun a b => a.ult b)
/-- BGEU. -/
def opBgeu : SlotOp := branch 0x07 (fun a b => !a.ult b)
/-- BR: gX[63:12] must be 0. -/
def opBr : SlotOp :=
  { enc := { opc := 0x08, x := .g }
    checks := fun c _ => ckBits c.x 0xFFF
    run := fun c s => s.jump c.f (fld c.x 11 0) }

/-- The program enters its end: no later bundle issues (R93). -/
def State.ending (s : State) (f : Nat) : State := s.modProg f (fun p => { p with phase := .ending })

/-- ADD. -/
def opAdd : SlotOp := alu 0x20 (fun a b => a + b)
/-- SUB. -/
def opSub : SlotOp := alu 0x21 (fun a b => a - b)
/-- AND. -/
def opAnd : SlotOp := alu 0x22 (fun a b => a &&& b)
/-- OR. -/
def opOr : SlotOp := alu 0x23 (fun a b => a ||| b)
/-- XOR. -/
def opXor : SlotOp := alu 0x24 (fun a b => a ^^^ b)
/-- SLL by gZ[5:0]. -/
def opSll : SlotOp := alu 0x25 (fun a b => a <<< fld b 5 0)
/-- SRL by gZ[5:0]. -/
def opSrl : SlotOp := alu 0x26 (fun a b => a >>> fld b 5 0)
/-- SRA by gZ[5:0]. -/
def opSra : SlotOp := alu 0x27 (fun a b => a.sshiftRight (fld b 5 0))
/-- ADDI. -/
def opAddi : SlotOp := aluImm 0x28 true (fun a b => a + b)
/-- SUBI. -/
def opSubi : SlotOp := aluImm 0x29 true (fun a b => a - b)
/-- ANDI. -/
def opAndi : SlotOp := aluImm 0x2A false (fun a b => a &&& b)
/-- ORI. -/
def opOri : SlotOp := aluImm 0x2B false (fun a b => a ||| b)
/-- XORI. -/
def opXori : SlotOp := aluImm 0x2C false (fun a b => a ^^^ b)
/-- SLLI. -/
def opSlli : SlotOp := shiftImm 0x2D (fun a n => a <<< n)
/-- SRLI. -/
def opSrli : SlotOp := shiftImm 0x2E (fun a n => a >>> n)
/-- SRAI. -/
def opSrai : SlotOp := shiftImm 0x2F (fun a n => a.sshiftRight n)
/-- MOVI. -/
def opMovi : SlotOp :=
  { enc := { opc := 0x30, fmt := .i, x := .g, dx := true, imm := true }
    run := fun c s => s.setG c.f c.o.x.val c.simm }
/-- MOVHI. -/
def opMovhi : SlotOp :=
  { enc := { opc := 0x31, fmt := .i, x := .g, dx := true, imm := true }
    run := fun c s => s.setG c.f c.o.x.val (c.uimm <<< 32) }
/-- SEQ. -/
def opSeq : SlotOp := compare 0x32 (fun a b => a == b)
/-- SNE. -/
def opSne : SlotOp := compare 0x33 (fun a b => a != b)
/-- SLT. -/
def opSlt : SlotOp := compare 0x34 (fun a b => a.slt b)
/-- SLTU. -/
def opSltu : SlotOp := compare 0x35 (fun a b => a.ult b)
/-- SEQI. -/
def opSeqi : SlotOp := compareImm 0x36 (fun a b => a == b)
/-- SLTI. -/
def opSlti : SlotOp := compareImm 0x37 (fun a b => a.slt b)
/-- SLTUI: the sign-extended value compares as unsigned. -/
def opSltui : SlotOp := compareImm 0x38 (fun a b => a.ult b)

/-- pX = pY op pZ. -/
def predOp (opc : Nat) (fn : Bool → Bool → Bool) : SlotOp :=
  { enc := { opc, x := .p, y := .p, z := .p, dx := true }
    run := fun c s => s.setP c.f c.o.x.val (fn (c.r.pr c.o.y.val) (c.r.pr c.o.z.val)) }

/-- PAND. -/
def opPand : SlotOp := predOp 0x39 and
/-- POR. -/
def opPor : SlotOp := predOp 0x3A or
/-- PNOT. -/
def opPnot : SlotOp :=
  { enc := { opc := 0x3B, x := .p, y := .p, dx := true }
    run := fun c s => s.setP c.f c.o.x.val (!c.r.pr c.o.y.val) }
/-- MUL: the low 64 bits. -/
def opMul : SlotOp := alu 0x3C (fun a b => a * b)
/-- MULHU: the high 64 bits of the unsigned product. -/
def opMulhu : SlotOp := alu 0x3D (fun a b => BitVec.ofNat 64 (a.toNat * b.toNat / 2 ^ 64))
/-- MOVGH hX, gY. -/
def opMovgh : SlotOp :=
  { enc := { opc := 0x3E, x := .h, y := .g, dx := true }, run := fun c s => s.setH c.f c.o.x.val c.y }
/-- MOVHG gX, hY. -/
def opMovhg : SlotOp :=
  { enc := { opc := 0x3F, x := .g, y := .h, dx := true }, run := fun c s => s.setG c.f c.o.x.val (c.r.hr c.o.y.val) }

/-! ### Commands -/

/-- B (R376). -/
def execB (f : FurrowId) (o : Slot) (s : State) : Res := answer (runSlot opB f o s)

/-- BEQ (R376). -/
def execBeq (f : FurrowId) (o : Slot) (s : State) : Res := answer (runSlot opBeq f o s)

/-- BNE (R376). -/
def execBne (f : FurrowId) (o : Slot) (s : State) : Res := answer (runSlot opBne f o s)

/-- BLT (R376). -/
def execBlt (f : FurrowId) (o : Slot) (s : State) : Res := answer (runSlot opBlt f o s)

/-- BGE (R376). -/
def execBge (f : FurrowId) (o : Slot) (s : State) : Res := answer (runSlot opBge f o s)

/-- BLTU (R376). -/
def execBltu (f : FurrowId) (o : Slot) (s : State) : Res := answer (runSlot opBltu f o s)

/-- BGEU (R376). -/
def execBgeu (f : FurrowId) (o : Slot) (s : State) : Res := answer (runSlot opBgeu f o s)

/-- BR (R376). -/
def execBr (f : FurrowId) (o : Slot) (s : State) : Res := answer (runSlot opBr f o s)

/-- ADD (R376). -/
def execAdd (f : FurrowId) (o : Slot) (s : State) : Res := answer (runSlot opAdd f o s)

/-- SUB (R376). -/
def execSub (f : FurrowId) (o : Slot) (s : State) : Res := answer (runSlot opSub f o s)

/-- AND (R376). -/
def execAnd (f : FurrowId) (o : Slot) (s : State) : Res := answer (runSlot opAnd f o s)

/-- OR (R376). -/
def execOr (f : FurrowId) (o : Slot) (s : State) : Res := answer (runSlot opOr f o s)

/-- XOR (R376). -/
def execXor (f : FurrowId) (o : Slot) (s : State) : Res := answer (runSlot opXor f o s)

/-- SLL (R376). -/
def execSll (f : FurrowId) (o : Slot) (s : State) : Res := answer (runSlot opSll f o s)

/-- SRL (R376). -/
def execSrl (f : FurrowId) (o : Slot) (s : State) : Res := answer (runSlot opSrl f o s)

/-- SRA (R376). -/
def execSra (f : FurrowId) (o : Slot) (s : State) : Res := answer (runSlot opSra f o s)

/-- ADDI (R376). -/
def execAddi (f : FurrowId) (o : Slot) (s : State) : Res := answer (runSlot opAddi f o s)

/-- SUBI (R376). -/
def execSubi (f : FurrowId) (o : Slot) (s : State) : Res := answer (runSlot opSubi f o s)

/-- ANDI (R376). -/
def execAndi (f : FurrowId) (o : Slot) (s : State) : Res := answer (runSlot opAndi f o s)

/-- ORI (R376). -/
def execOri (f : FurrowId) (o : Slot) (s : State) : Res := answer (runSlot opOri f o s)

/-- XORI (R376). -/
def execXori (f : FurrowId) (o : Slot) (s : State) : Res := answer (runSlot opXori f o s)

/-- SLLI (R376). -/
def execSlli (f : FurrowId) (o : Slot) (s : State) : Res := answer (runSlot opSlli f o s)

/-- SRLI (R376). -/
def execSrli (f : FurrowId) (o : Slot) (s : State) : Res := answer (runSlot opSrli f o s)

/-- SRAI (R376). -/
def execSrai (f : FurrowId) (o : Slot) (s : State) : Res := answer (runSlot opSrai f o s)

/-- MOVI (R376). -/
def execMovi (f : FurrowId) (o : Slot) (s : State) : Res := answer (runSlot opMovi f o s)

/-- MOVHI (R376). -/
def execMovhi (f : FurrowId) (o : Slot) (s : State) : Res := answer (runSlot opMovhi f o s)

/-- SEQ (R376). -/
def execSeq (f : FurrowId) (o : Slot) (s : State) : Res := answer (runSlot opSeq f o s)

/-- SNE (R376). -/
def execSne (f : FurrowId) (o : Slot) (s : State) : Res := answer (runSlot opSne f o s)

/-- SLT (R376). -/
def execSlt (f : FurrowId) (o : Slot) (s : State) : Res := answer (runSlot opSlt f o s)

/-- SLTU (R376). -/
def execSltu (f : FurrowId) (o : Slot) (s : State) : Res := answer (runSlot opSltu f o s)

/-- SEQI (R376). -/
def execSeqi (f : FurrowId) (o : Slot) (s : State) : Res := answer (runSlot opSeqi f o s)

/-- SLTI (R376). -/
def execSlti (f : FurrowId) (o : Slot) (s : State) : Res := answer (runSlot opSlti f o s)

/-- SLTUI (R376). -/
def execSltui (f : FurrowId) (o : Slot) (s : State) : Res := answer (runSlot opSltui f o s)

/-- PAND (R376). -/
def execPand (f : FurrowId) (o : Slot) (s : State) : Res := answer (runSlot opPand f o s)

/-- POR (R376). -/
def execPor (f : FurrowId) (o : Slot) (s : State) : Res := answer (runSlot opPor f o s)

/-- PNOT (R376). -/
def execPnot (f : FurrowId) (o : Slot) (s : State) : Res := answer (runSlot opPnot f o s)

/-- MUL (R376). -/
def execMul (f : FurrowId) (o : Slot) (s : State) : Res := answer (runSlot opMul f o s)

/-- MULHU (R376). -/
def execMulhu (f : FurrowId) (o : Slot) (s : State) : Res := answer (runSlot opMulhu f o s)

/-- MOVGH (R376). -/
def execMovgh (f : FurrowId) (o : Slot) (s : State) : Res := answer (runSlot opMovgh f o s)

/-- MOVHG (R376). -/
def execMovhg (f : FurrowId) (o : Slot) (s : State) : Res := answer (runSlot opMovhg f o s)

end Sys2Proof.Machine
end

