-- ==== Sys2Proof/Machine/Program.lean ====
section
/-! DEFINITION. Command queues and programs: taking a command, its end, its exceptions, and the counter instructions of
S7 (R88 to R108, R366). -/

namespace Sys2Proof.Machine

/-- A register of a Furrow's queue q. -/
def cq (r : RegName) (f q : Nat) : Csr := ⟨r, f, q, 0⟩

/-- Ring size in descriptors (Table 4-2). -/
def State.ringSize (s : State) (f q : Nat) : Nat := 2 ^ s.rdf (cq .frwCqCtl f q) 3 0

/-- Granary address of descriptor i of a queue. -/
def State.descAddr (s : State) (f q i : Nat) : Nat := (s.rd (cq .frwCqBase f q)).toNat + 64 * i

/-- The TAIL the Sower goes by: in Fallow mode the one latched at entry (R414). -/
def State.queueTail (s : State) (f q : Nat) : Nat :=
  if s.fallow then Table.get 0 s.fallowTails (4 * f + q) else s.rdf (cq .frwCqTail f q) 11 0

/-- A queue from which the Sower may take: enabled, neither empty nor stopped (R88). -/
def State.queueReady (s : State) (f q : Nat) : Bool :=
  let c := cq .frwCqCtl f q
  s.rdb c 4 && !s.rdb c 5 && s.rdf (cq .frwCqHead f q) 11 0 != s.queueTail f q

/-- The completion word of Table 4-1. -/
def completionWord (exc : Option Nat) (issued : Nat) : Word :=
  BitVec.ofNat 64 (1 + (match exc with | none => 0 | some c => 2 + c % 256 * 256) + min issued 0xFFFFFFFF * 2 ^ 32)

/-- Advance a queue's head past the command taken (R93). -/
def State.advanceHead (s : State) (f q : Nat) : State :=
  let h := cq .frwCqHead f q
  s.wrf h 11 0 ((s.rdf h 11 0 + 1) % s.ringSize f q)

/-- Completion word, then head, then interrupt, in the order of R93. -/
def State.completeCommand (s : State) (f q addr : Nat) (irq : Bool) (exc : Option Nat) (issued : Nat) : State :=
  let s := s.setGword (addr + 0x38) (completionWord exc issued)
  let s := s.advanceHead f q
  if irq then s.assertIrq (f + 1) else s

/-- The program registers at a start: arguments in g1 to g6, the tag in g7, everything else clear (R91). -/
def startRegs (d : List Byte) : Table Word :=
  ((List.range 6).map fun i => (i + 1, wordAt d (8 + 8 * i))) ++ [(7, BitVec.ofNat 64 (leAt d 4 4))]

/-- The Sower takes the next command of the lowest-numbered ready queue and starts its program, or refuses a slice
mismatch with PROTECTION (R88 to R91); none while the Furrow's slice is not enabled (Table 15-2). -/
def commandTake (f : FurrowId) (s : State) : State :=
  let n := f.val
  let r := s.furrow n
  if !s.furrowServes f || r.prog.isSome then s
  else
    let held := match s.bound n with
      | none => false
      | some sl => !s.sliceEnabled sl
    match firstBelow 4 (s.queueReady n) with
    | none => s
    | some q =>
      if held then s else
      let i := s.rdf (cq .frwCqHead n q) 11 0
      let addr := s.descAddr n q i
      let d := match Table.find r.prefetch q with
        | some (j, bs) => if j = i then bs else s.mem.readBytes addr 64
        | none => s.mem.readBytes addr 64
      let s := s.modFurrow n (fun r => { r with prefetch := Table.erase r.prefetch q })
      let w0 := leAt d 0 8
      let slice := bits w0 17 12
      if s.bound n != some slice then s.completeCommand n q addr (w0.testBit 18) (some 0x06) 0
      else
        s.modFurrow n fun r =>
          { r with g := startRegs d, h := [], p := [], v := [], a := [],
                   prog := some { queue := q, index := i, addr, slice, irq := w0.testBit 18, tag := bits w0 63 32,
                                  pc := bits w0 11 0 } }

/-- The Sower prefetches the next descriptor of each enabled queue while a program runs (R92). -/
def descriptorPrefetch (f : FurrowId) (s : State) : State :=
  let n := f.val
  match (s.furrow n).prog with
  | none => s
  | some p =>
    (List.range 4).foldl (fun s q =>
      let h := s.rdf (cq .frwCqHead n q) 11 0
      let i := if q = p.queue then (h + 1) % s.ringSize n q else h
      if s.rdb (cq .frwCqCtl n q) 4 && i != s.rdf (cq .frwCqTail n q) 11 0 then
        s.modFurrow n (fun r => { r with prefetch := Table.set r.prefetch q (i, s.mem.readBytes (s.descAddr n q i) 64) })
      else s) s

/-- A program ends: completion word, head, interrupt; the Sower is idle (R93). -/
def programComplete (f : FurrowId) (s : State) : State :=
  let r := s.furrow f.val
  match r.prog with
  | none => s
  | some p =>
    if p.phase = .ending && r.ops.isEmpty then
      let s := s.completeCommand f.val p.queue p.addr p.irq none p.issued
      (s.modFurrow f.val (fun r => { r with prog := none })).offIfDue (.furrow f)
    else s

/-- The Reeve message of a Sower exception (Table 15-14). -/
def excMessage (f : Nat) (p : Program) (e : Exc) (overrun : Bool) : Nat :=
  1 + f * 2 ^ 8 + e.code * 2 ^ 24 + p.queue * 2 ^ 32 + e.slot * 2 ^ 34 + e.pc % 4096 * 2 ^ 37 +
    (if overrun then 2 ^ 49 else 0) + p.tag * 2 ^ 64

/-- ACLK cycles in a span of ns, by the Field's ACLK state: 2.1, 1.4 or 0.7 GHz (R9, R476). -/
def State.aclkCycles (s : State) (field ns : Nat) : Nat :=
  let st := s.rdf ⟨.clkAclk, field, 0, 0⟩ 1 0
  ns * (if st = 0 then 21 else if st = 1 then 14 else 7) / 10

/-- A stall longer than FRW_WDOG allows raises WATCHDOG (R107, Table 4-7). -/
def watchdogExpiry (f : FurrowId) (s : State) : State :=
  match s.running f.val with
  | none => s
  | some p =>
    let lim := s.rdf ⟨.frwWdog, f.val, 0, 0⟩ 31 0
    match p.stallSince with
    | none => s
    | some t =>
      if lim != 0 && lim * 1024 < s.aclkCycles (f.val / 16) (s.time - t) then s.raise f.val 0x0A 0 0 else s

/-- ABORT: the running program of that queue ends with ABORT_REQUESTED (R107, Table 4-2). -/
def State.abortQueue (s : State) (f q : Nat) : State :=
  match s.running f with
  | some p => if p.queue = q then s.raise f 0x0C 0 0 else s
  | none => s

/-- A TAIL write: ignored with TAIL_ERR at or above the ring size (R94), ignored in Fallow mode (R414). -/
def State.writeTail (s : State) (f q : Nat) (v : Word) : State :=
  if s.fallow then s
  else if s.ringSize f q ≤ fld v 11 0 then s.wrf (cq .frwCqCtl f q) 7 7 1
  else s.wrf (cq .frwCqTail f q) 11 0 (fld v 11 0)

/-! ### Counter instructions of S7 -/

/-- WAIT's threshold (R104, Table 14-14). -/
def waitThreshold (c : Ctx) : Int :=
  if c.mod.testBit 0 then signed 32 c.y.toNat else signed 32 c.o.imm.toNat

/-- WAIT: stalls until the counter is at most the threshold. -/
def opWait : SlotOp :=
  { enc :=
      { opc := 0xD1, fmt := .i, x := .a, y := .g, mods := 1, imm := true,
        reserved := fun o =>
          if o.mod.getLsbD 0 then o.imm != 0
          else o.y.val != 0 || !(decide (-32768 ≤ o.imm.toInt) && decide (o.imm.toInt ≤ 32767)) }
    stalls := fun c s => waitThreshold c < ((s.furrow c.f).ar c.o.x.val).val
    run := fun _ s => s }

/-- The class of FENCE's MOD[2:0]: none means ALL. -/
def fenceClass (m : Nat) : Option OpClass :=
  match m with
  | 0 => some .mov
  | 1 => some .fab
  | 2 => some .cod
  | 3 => some .mat
  | 4 => some .sys
  | _ => none

/-- FENCE: stalls until every earlier operation of the class has completed. -/
def opFence : SlotOp :=
  { enc := { opc := 0xD2, mods := 7, reserved := fun o => 6 ≤ o.mod.toNat % 8 }
    stalls := fun c s =>
      match fenceClass (c.mod % 8) with
      | some k => (s.furrow c.f).outstanding k != 0
      | none => !(s.furrow c.f).ops.isEmpty
    run := fun _ s => s }

/-- ACNT.SET: aX = gY[31:0] + IMM, status cleared (R102). -/
def opAcntSet : SlotOp :=
  { enc := { opc := 0xD3, fmt := .i, x := .a, y := .g, imm := true }
    run := fun c s => s.setA c.f c.o.x.val ⟨signed 32 (fld c.y 31 0 + c.o.imm.toNat), 0⟩ }

/-- ACNT.STAT: status and value; .CLR also clears the status (R106, Table 14-14). -/
def opAcntStat : SlotOp :=
  { enc := { opc := 0xD4, x := .g, y := .a, dx := true, mods := 1 }
    cls := some .sys
    run := fun c s =>
      let a := c.r.ar c.o.y.val
      let s := s.setG c.f c.o.x.val (BitVec.ofNat 64 (a.stat + unsigned 32 a.val * 2 ^ 32))
      if c.mod.testBit 0 then s.setA c.f c.o.y.val ⟨((s.furrow c.f).ar c.o.y.val).val, 0⟩ else s }

/-- MTR.RD: meter counter IMM of the program's slice (R395). -/
def opMtrRd : SlotOp :=
  { enc := { opc := 0xD6, fmt := .i, x := .g, dx := true, imm := true, reserved := fun o => 8 < o.imm.toNat }
    cls := some .sys
    run := fun c s => s.setG c.f c.o.x.val (s.rd ⟨.slcMtr, c.slice, c.o.imm.toNat, 0⟩) }

/-- The register of a statistics set that QST.RD's IMM names (Table 14-14). -/
def qstReg (f imm : Nat) : Csr :=
  let j := imm % 4
  match imm / 4 with
  | 0 => ⟨.frwQstSse, f, j, 0⟩
  | 1 => ⟨.frwQstSsx, f, j, 0⟩
  | 2 => ⟨.frwQstCount, f, j, 0⟩
  | 3 => ⟨.frwQstClip, f, j, 0⟩
  | b + 4 => ⟨.frwQstHist, f, j, b⟩

/-- QST.RD. -/
def opQstRd : SlotOp :=
  { enc := { opc := 0xD7, fmt := .i, x := .g, dx := true, imm := true, reserved := fun o => 36 ≤ o.imm.toNat / 4 }
    cls := some .sys
    run := fun c s => s.setG c.f c.o.x.val (s.rd (qstReg c.f c.o.imm.toNat)) }

/-- QST.CLR. -/
def opQstClr : SlotOp :=
  { enc := { opc := 0xD8, fmt := .i, imm := true, reserved := fun o => 4 ≤ o.imm.toNat }
    run := fun c s => s.statClear c.f c.o.imm.toNat }

/-! ### Commands -/

/-- WAIT (R104). -/
def execWait (f : FurrowId) (o : Slot) (s : State) : Res := answer (runSlot opWait f o s)

/-- FENCE (R104). -/
def execFence (f : FurrowId) (o : Slot) (s : State) : Res := answer (runSlot opFence f o s)

/-- ACNT_SET (R102). -/
def execAcntSet (f : FurrowId) (o : Slot) (s : State) : Res := answer (runSlot opAcntSet f o s)

/-- ACNT_STAT (R106). -/
def execAcntStat (f : FurrowId) (o : Slot) (s : State) : Res := answer (runSlot opAcntStat f o s)

/-- MTR_RD (R395). -/
def execMtrRd (f : FurrowId) (o : Slot) (s : State) : Res := answer (runSlot opMtrRd f o s)

/-- QST_RD (R156). -/
def execQstRd (f : FurrowId) (o : Slot) (s : State) : Res := answer (runSlot opQstRd f o s)

/-- QST_CLR (R156). -/
def execQstClr (f : FurrowId) (o : Slot) (s : State) : Res := answer (runSlot opQstClr f o s)

/-- COMMAND_TAKE (R88). -/
def execCommandTake (f : FurrowId) (s : State) : Res := answer (commandTake f s)

/-- DESCRIPTOR_PREFETCH (R92). -/
def execDescriptorPrefetch (f : FurrowId) (s : State) : Res := answer (descriptorPrefetch f s)

/-- PROGRAM_COMPLETE (R93). -/
def execProgramComplete (f : FurrowId) (s : State) : Res := answer (programComplete f s)

/-- WATCHDOG_EXPIRY (R107). -/
def execWatchdogExpiry (f : FurrowId) (s : State) : Res := answer (watchdogExpiry f s)

end Sys2Proof.Machine
end

