-- ==== Sys2Proof/Machine/Pool.lean ====
section
/-! DEFINITION. The frame pool: guarantees, allocation, freeing and zeroing, ageing and Glean (R226 to R245, R444). -/

namespace Sys2Proof.Machine

/-! ### Glean (R242 to R245) -/

/-- The set of a line address (R242). -/
def gleanSet (a : Nat) : Nat := (bits a 15 6) ^^^ (bits a 25 16)

/-- The line a Glean holds for an address and tag: a line an embedding gather brought hits only a gather of the same
table and version (R252). -/
def Furrow.gleanLine (r : Furrow) (a : Nat) (tag : Option (Nat × Nat)) : Option GleanLine :=
  r.glean.find? (fun l => l.addr = a / 64 * 64 && l.tag = tag)

/-- Take the lines that meet a test out of a Glean. -/
def Furrow.gleanDrop (r : Furrow) (p : GleanLine → Bool) : Furrow := { r with glean := r.glean.filter (fun l => !p l) }

/-- The least recently used of a list of lines. -/
def oldestLine : List GleanLine → Option GleanLine
  | [] => none
  | l :: t =>
    match oldestLine t with
    | none => some l
    | some m => if l.used ≤ m.used then some l else some m

/-- Put a line in: it replaces the same address, or the least recently used of a full set of 16 (R242). -/
def Furrow.gleanPut (r : Furrow) (l : GleanLine) : Furrow :=
  let r := r.gleanDrop (fun k => k.addr = l.addr)
  let set := r.glean.filter (fun k => gleanSet k.addr = gleanSet l.addr)
  let r := if set.length < 16 then r
    else match oldestLine set with
      | none => r
      | some o => r.gleanDrop (fun k => k.addr = o.addr)
  { r with glean := r.glean ++ [{ l with used := r.gleanClock }], gleanClock := r.gleanClock + 1 }

/-- Mark a line as just used. -/
def Furrow.gleanUse (r : Furrow) (a : Nat) : Furrow :=
  { r with glean := r.glean.map (fun l => if l.addr = a / 64 * 64 then { l with used := r.gleanClock } else l),
           gleanClock := r.gleanClock + 1 }

/-- Invalidate a frame's lines in every Glean of the device (R229, R244). -/
def State.gleanForget (s : State) (frame : Nat) : State :=
  { s with furrows := s.furrows.map (fun p => (p.1, p.2.gleanDrop (fun l => l.addr / 65536 = frame))) }

/-- INTERVAL of a Furrow's region j in nanoseconds (R243). -/
def State.gleanInterval (s : State) (f j : Nat) : Nat := 100000 * s.rdf ⟨.frwGlnReg, f, j, 0⟩ 9 0

/-- What a hit serves: the line's bytes, or what the refresh due has read, since no byte of a region is older than INTERVAL
and 5 µs (R243). Tagged lines have no refresh (R252). -/
def State.gleanData (s : State) (f : Nat) (l : GleanLine) : List Byte × Bool :=
  if l.tag.isSome || s.time ≤ l.time + s.gleanInterval f l.region + 5000 then (l.data, l.poison)
  else (s.mem.readBytes l.addr 64, s.mem.marked l.addr)

/-- One 64-byte line read through a Furrow's Glean: a hit serves the line's bytes, a miss reads Granary (R242); the
hit or miss is counted. -/
def State.gleanRead (s : State) (f a : Nat) (tag : Option (Nat × Nat)) : (List Byte × Bool) × State :=
  match (s.furrow f).gleanLine a tag with
  | some l => (s.gleanData f l, (s.modFurrow f (fun r => r.gleanUse a)).bump ⟨.frwGlnHitCnt, f, 0, 0⟩)
  | none =>
    ((s.mem.readBytes (a / 64 * 64) 64, s.mem.marked a), s.bump ⟨.frwGlnMissCnt, f, 0, 0⟩)

/-- Lines read through a Glean, in address order. -/
def State.gleanReadLines (s : State) (f a : Nat) : (n : Nat) → List (List Byte × Bool) × State
  | 0 => ([], s)
  | n + 1 =>
    let (l, s) := s.gleanRead f a none
    let (ls, s) := s.gleanReadLines f (a + 64) n
    (l :: ls, s)

/-- A write by the Furrow's own program updates the Furrow's line (R244). -/
def State.gleanUpdate (s : State) (f a n : Nat) : State :=
  s.modFurrow f fun r =>
    { r with glean := r.glean.map fun l =>
        if l.addr + 64 ≤ a || a + n ≤ l.addr then l
        else { l with data := s.mem.readBytes l.addr 64, poison := s.mem.marked l.addr, time := s.time } }

/-- Fill lines from Granary into a region (R243). -/
def State.gleanFill (s : State) (f a lines region : Nat) (ra : Bool) (tag : Option (Nat × Nat)) : State :=
  (List.range lines).foldl (fun s i =>
    let b := a / 64 * 64 + 64 * i
    s.modFurrow f (fun r => r.gleanPut ⟨b, s.mem.readBytes b 64, s.mem.marked b, region, ra, tag, 0, s.time⟩)) s

/-- A region's refresh, one pass per INTERVAL: every untagged line takes Granary's present bytes; a line that a GLN.FILL without
.RA brought clears its frame's AGE (R233, R243). -/
def gleanRefresh (f : FurrowId) (j : Fin 16) (s : State) : State :=
  if s.rdb ⟨.frwGlnReg, f.val, j.val, 0⟩ 11 &&
      Table.get 0 (s.furrow f.val).refreshed j.val + s.gleanInterval f.val j.val ≤ s.time then
    let ls := (s.furrow f.val).glean.filter (fun l => l.region = j.val && l.tag.isNone)
    let s := s.modFurrow f.val fun r =>
      { r with
        refreshed := Table.set r.refreshed j.val s.time
        glean := r.glean.map fun l =>
          if l.region = j.val && l.tag.isNone then
            { l with data := s.mem.readBytes l.addr 64, poison := s.mem.marked l.addr, time := s.time }
          else l }
    ls.foldl (fun s l => if l.ra then s else s.touch (l.addr / 65536)) s
  else s

/-! ### Guarantees (R231) -/

/-- Frames in the pool: all but the descriptor frames and the system and retired frames (R226, R444). -/
def State.poolFrames (s : State) : Nat := frameCount - 1536 - s.sysFrames - s.retired.length

/-- held_s. -/
def State.held (s : State) (slice : Nat) : Nat := s.rdf ⟨.slcFrameHeld, slice, 0, 0⟩ 22 0
/-- MIN_s. -/
def State.minFrames (s : State) (slice : Nat) : Nat := s.rdf ⟨.slcFrameMin, slice, 0, 0⟩ 22 0
/-- MAX_s. -/
def State.maxFrames (s : State) (slice : Nat) : Nat := s.rdf ⟨.slcFrameMax, slice, 0, 0⟩ 22 0

/-- A sum over the 64 slices. -/
def sumSlices (f : Nat → Nat) : Nat := ((List.range 64).map f).sum

/-- Zeroed free pool frames (R228). -/
def State.freeFrames (s : State) : Nat := s.poolFrames - sumSlices s.held - s.zeroing.length

/-- The reserve. -/
def State.reserve (s : State) : Nat := sumSlices (fun i => s.minFrames i - s.held i)

/-- The headroom. -/
def State.headroom (s : State) : Nat := s.freeFrames - s.reserve

/-- R231: a frame request of a slice succeeds. -/
def State.mayAllocate (s : State) (slice : Nat) : Bool :=
  s.held slice < s.maxFrames slice && (s.held slice < s.minFrames slice || 0 < s.headroom) && 0 < s.freeFrames

/-- A free frame: zeroed, in the pool, held by nobody (R228). -/
def State.isFree (s : State) (n : Nat) : Bool :=
  let d := s.frame n
  frameNameable n && d.pool = 0 && !s.zeroing.contains n

/-- Frame of row slot r of group w of a stack (Table 9-2 read backwards). -/
def frameAt (stack w r : Nat) : Nat :=
  stack * 1572864 + r * 16 +
    (w ^^^ bits r 3 0 ^^^ bits r 7 4 ^^^ bits r 11 8 ^^^ bits r 15 12 ^^^ bits r 16 16)

/-- The lowest free frame of a group from row slot r up; `fuel` row slots remain. -/
def State.freeInGroup (s : State) (stack w : Nat) : (fuel : Nat) → (r : Nat) → Option Nat
  | 0, _ => none
  | n + 1, r => if s.isFree (frameAt stack w r) then some (frameAt stack w r) else s.freeInGroup stack w n (r + 1)

/-- The frame a stack gives: groups round-robin, starting after the group used last (R228). -/
def State.freeInStack (s : State) (stack : Nat) : Option (Nat × Nat) :=
  let last := Table.get 15 s.lastGroup stack
  ((List.range 16).map (fun k => (last + 1 + k) % 16)).findSome? fun w =>
    (s.freeInGroup stack w 98304 0).map (fun n => (w, n))

/-- The frame an allocation takes: the preferred Field's stack, then the next in ascending order modulo 4 (R228). -/
def State.pickFrame (s : State) (field : Nat) : Option (Nat × Nat × Nat) :=
  ((List.range 4).map (fun k => (field + k) % 4)).findSome? fun st => (s.freeInStack st).map (fun p => (st, p.1, p.2))

/-- Allocate a frame for a slice (R228, R231). -/
def State.allocate (s : State) (slice field kind fmt : Nat) (weight : Bool) : Option (Nat × State) :=
  if s.mayAllocate slice then
    (s.pickFrame field).map fun (st, w, n) =>
      let s := { s with lastGroup := Table.set s.lastGroup st w }
      let d := s.frame n
      (n, s.setFrame n { gen := d.gen, stamp := fmt, kind, slice, weight, pool := 1 })
  else none

/-- Everything a free does: generation, tag, POOL, Glean lines; the frame waits for its zeroing (R65, R229, R444). -/
def State.freeFrame (s : State) (n : Nat) : State :=
  let d := s.frame n
  let s := s.clearTag n
  let s := s.setFrame n { gen := (d.gen + 1) % 1024, slice := d.slice, stamp := d.stamp }
  let s := s.gleanForget n
  { s with zeroing := s.zeroing ++ [n] }

/-- The kind of a use (R228): KV 0, TABLE 1, WEIGHT 2, OTHER 3. -/
def useKind (u : Nat) : Nat :=
  match u with
  | 0 => 1
  | 1 => 2
  | 2 => 1
  | _ => 3

/-- FRM.ALLOC (R228). -/
def opFrmAlloc : SlotOp :=
  { enc := { opc := 0xEA, x := .g, y := .h, z := .g, dx := true, dy := true, ctr := true }
    cls := some .sys
    checks := fun c _ => ckBits c.z 0x1FFF
    run := fun c s =>
      let field := if c.z.getLsbD 12 then fld c.z 11 10 else c.field
      let fmt := fld c.z 9 2
      match s.allocate c.slice field (useKind (fld c.z 1 0)) fmt (fld c.z 1 0 == 2) with
      | none => c.status 0x55 0 s
      | some (n, s) => c.status 0 0 (s.setH c.f c.o.y.val (mkHandle s.node n (s.frame n).gen fmt 1)) }

/-- The status of FRM.FREE, in the order of R229. -/
def State.frmFreeStatus (s : State) (slice : Nat) (h : Word) : Nat :=
  let n := handleFrame h
  let d := s.frame n
  if !s.current h then 0x83
  else if d.pool != 3 && !s.frameOf slice n then 0x9B
  else if d.kind = 0 || d.kind = 2 || d.pool = 3 then 0x81
  else if d.walks != 0 || s.liveFrame n then 0x87
  else 0

/-- FRM.FREE (R229, R517). -/
def opFrmFree : SlotOp :=
  { enc := { opc := 0xEB, x := .g, y := .h, dx := true, ctr := true }
    cls := some .sys
    checks := fun c s => ckHandle s c.slice (c.r.hr c.o.y.val) false
    run := fun c s =>
      let h := c.r.hr c.o.y.val
      match s.frmFreeStatus c.slice h with
      | 0 => c.status 0 0 (s.freeFrame (handleFrame h))
      | code => c.status code 0 s }

/-- A bank of a channel's rank, as one number. -/
def bankKey (channel rank bank : Nat) : Nat := 4 * channel + rank + 4096 * bank

/-- Zeroing of a freed frame ends: every byte and poison codeword of it is zero and it is free again. A bad row is
moved to a spare row, or with none left the frame is retired (R228, R444). -/
def frameZeroComplete (frame : Nat) (badRow : Bool) (s : State) : State :=
  if s.zeroing.contains frame then
    let s := { s with zeroing := s.zeroing.filter (· != frame), mem := s.mem.clear (frame * 65536) 65536 }
    if badRow then
      let c := channelOf frame 0
      let key := bankKey c.1 (frame % 1572864 / 16 / 24576) (Config.lineBank c.2)
      let used := Table.get 0 s.spareRows key
      if used < 32 then
        let s := { s with spareRows := Table.set s.spareRows key (used + 1) }
        s.record 0x09 1 0xFFFF (toBytes 8 c.2 ++ toBytes 4 used)
      else
        let s := { (s.setFrame frame { s.frame frame with pool := 3 }) with retired := s.retired ++ [frame] }
        s.record 0x09 2 0xFFFF (toBytes 8 frame)
    else s
  else s

/-- Once in every millisecond of system time: AGE rises in every frame whose POOL is 1, saturating at 255 (R233); FRAME_MS is
metered (R395). -/
def ageingTick (s : State) : State :=
 if s.aged = s.time / 1000000 then s
 else
  let s := { s with aged := s.time / 1000000, desc := s.desc.map (fun p => if p.2.pool = 1 then (p.1, { p.2 with age := min 255 (p.2.age + 1) }) else p) }
  (List.range 64).foldl (fun s i => s.meter i 5 (s.held i)) s

/-- A write of a slice's guarantee (R232): refused, counted and recorded where it would break the pool. -/
def State.writeFrameMin (s : State) (slice : Nat) (v : Word) : State :=
  let m := fld v 22 0
  let r : Csr := ⟨.slcFrameMin, slice, 0, 0⟩
  let s' := s.wrf r 22 0 m
  if s'.poolFrames < sumSlices s'.minFrames || s'.freeFrames < s'.reserve then
    (s.bump ⟨.slcPoolRefusedCnt, 0, 0, 0⟩).configRefused r v
  else s'

/-- A write of a Glean region register: an INTERVAL outside 1 to 1,000 is ignored; clearing EN invalidates the
region's lines (R243, Table 9-8). -/
def State.writeGlnReg (s : State) (f j : Nat) (v : Word) : State :=
  let r : Csr := ⟨.frwGlnReg, f, j, 0⟩
  if RegName.frwGlnReg.spec.permits v then
    let s := s.wr r (RegName.frwGlnReg.spec.afterWrite true (s.rd r) v)
    if v.getLsbD 11 then s else s.modFurrow f (fun x => x.gleanDrop (fun l => l.region = j && l.tag.isNone))
  else s

/-! ### Commands -/

/-- FRM_ALLOC (R228). -/
def execFrmAlloc (f : FurrowId) (o : Slot) (s : State) : Res := answer (runSlot opFrmAlloc f o s)

/-- FRM_FREE (R229). -/
def execFrmFree (f : FurrowId) (o : Slot) (s : State) : Res := answer (runSlot opFrmFree f o s)

/-- GLEAN_REFRESH (R243). -/
def execGleanRefresh (f : FurrowId) (j : Fin 16) (s : State) : Res := answer (gleanRefresh f j s)

/-- FRAME_ZERO_COMPLETE (R444). -/
def execFrameZeroComplete (frame : Nat) (badRow : Bool) (s : State) : Res :=
  answer (frameZeroComplete frame badRow s)

/-- AGEING_TICK (R233). -/
def execAgeingTick (s : State) : Res := answer (ageingTick s)

end Sys2Proof.Machine
end

