-- ==== Sys2Proof/Machine/Sheaf.lean ====
section
/-! DEFINITION. The Sheaf table: entry words, transitions and their records, admission, selection and commit (R33 to R62,
R383 to R386, R513). -/

namespace Sys2Proof.Machine

/-! ### State and reason codes (Tables 2-2 and 2-3) -/

/-- Code of a state. -/
def ReqState.code : ReqState → Nat
  | .free => 0 | .admitted => 1 | .prefill => 2 | .parked => 3 | .decode => 4 | .paused => 5
  | .handoverOut => 6 | .handoverIn => 7 | .expired => 8 | .done => 9 | .lost => 10 | .aborted => 11

/-- The state a code names; codes 12 to 15 are never held. -/
def reqStateOf (n : Nat) : Option ReqState :=
  [.free, .admitted, .prefill, .parked, .decode, .paused, .handoverOut, .handoverIn, .expired, .done, .lost, .aborted][n]?

/-- Reason codes. -/
def rAdmit : Nat := 0x01
/-- PREFILL_START. -/
def rPrefillStart : Nat := 0x02
/-- PARK. -/
def rPark : Nat := 0x03
/-- DECODE_START. -/
def rDecodeStart : Nat := 0x04
/-- RESUME_SOFTWARE. -/
def rResumeSoftware : Nat := 0x05
/-- RESUME_AUTO. -/
def rResumeAuto : Nat := 0x06
/-- PREEMPT. -/
def rPreempt : Nat := 0x10
/-- MASK_EMPTY. -/
def rMaskEmpty : Nat := 0x11
/-- PAUSE_SOFTWARE. -/
def rPauseSoftware : Nat := 0x12
/-- DEADLINE_AT_SELECT. -/
def rDeadlineAtSelect : Nat := 0x18
/-- DEADLINE_AT_COMMIT. -/
def rDeadlineAtCommit : Nat := 0x19
/-- DEADLINE_EXTENDED. -/
def rDeadlineExtended : Nat := 0x1A
/-- STOP_TOKEN. -/
def rStopToken : Nat := 0x20
/-- LENGTH_LIMIT. -/
def rLengthLimit : Nat := 0x21
/-- DONE_SOFTWARE. -/
def rDoneSoftware : Nat := 0x22
/-- STATE_LOST. -/
def rStateLost : Nat := 0x40
/-- PAGE_POISONED. -/
def rPagePoisoned : Nat := 0x41
/-- ABORT_SOFTWARE. -/
def rAbortSoftware : Nat := 0x50
/-- ABORT_SLICE. -/
def rAbortSlice : Nat := 0x51
/-- FREED. -/
def rFreed : Nat := 0x60

/-! ### Entry words (Table 2-1) -/

/-- Word i of an entry. -/
def SheafEntry.word (e : SheafEntry) (i : Nat) : Word :=
  let n (x : Nat) : Word := BitVec.ofNat 64 x
  let b (x : Bool) : Nat := if x then 1 else 0
  match i with
  | 0 => e.reqId
  | 1 => n (e.state.code + e.reason * 2 ^ 4 + e.priority * 2 ^ 12 + b e.inStep * 2 ^ 15 + b e.rePin * 2 ^ 16 +
      b e.changePending * 2 ^ 17 + e.slice * 2 ^ 18 + e.tail * 2 ^ 24 + e.epoch * 2 ^ 32)
  | 2 => n (e.model + e.adapter * 2 ^ 20 + e.customer * 2 ^ 28 + e.mirrorPolicy * 2 ^ 52)
  | 3 => n e.deadline
  | 4 => n (e.len + e.maxLen * 2 ^ 24 + e.floor * 2 ^ 48 + e.returnState.code * 2 ^ 56)
  | 5 => e.root
  | 6 => n e.admitTime
  | 7 => n e.lastTime
  | 8 => e.mirror0
  | 9 => e.mirror1
  | 10 => e.mirror2
  | 11 => e.maskPtr
  | 12 => n (e.automaton + e.maskMode * 2 ^ 32)
  | 13 => e.sampling0
  | 14 => e.sampling1
  | 15 => e.stops
  | 16 => e.rngKey
  | 17 => n (e.rngCounter % 2 ^ 64)
  | 18 => n (e.rngCounter / 2 ^ 64)
  | 19 => n (e.partner + e.batchTag * 2 ^ 16)
  | 20 => n e.lease
  | 21 => e.scratch0
  | 22 => e.scratch1
  | 23 => e.scratch2
  | 24 => n (e.generated + e.steps * 2 ^ 32)
  | 25 => n (e.proposed + e.accepted * 2 ^ 32)
  | 26 => n (e.pauses + e.expiries * 2 ^ 16 + e.groupAborts * 2 ^ 32 + e.underruns * 2 ^ 48)
  | 27 => n (e.maskEmpty + e.handovers * 2 ^ 16)
  | _ => 0

/-- The bits of word i that Table 2-1 marks *software*. -/
def softwareBits (i : Nat) : Nat :=
  match i with
  | 1 => 0x17000
  | 2 => 7 * 2 ^ 52
  | 3 => 2 ^ 64 - 1
  | 4 => (2 ^ 32 - 1) * 2 ^ 24
  | 8 => 0xBFFFBFFFBFFFBFFF
  | 9 => 0xBFFFBFFFBFFFBFFF
  | 10 => 0xBFFFBFFF
  | 11 => 2 ^ 64 - 1
  | 12 => 3 * 2 ^ 32
  | 13 => 2 ^ 64 - 1
  | 14 => 2 ^ 43 - 1
  | 15 => 2 ^ 38 - 1
  | 21 => 2 ^ 64 - 1
  | 22 => 2 ^ 64 - 1
  | 23 => 2 ^ 64 - 1
  | _ => 0

/-- The bits of word i that Table 2-1 marks *admission*. -/
def admissionBits (i : Nat) : Nat :=
  match i with
  | 0 => 2 ^ 64 - 1
  | 1 => 63 * 2 ^ 18
  | 2 => 2 ^ 20 - 1 + (2 ^ 24 - 1) * 2 ^ 28
  | 16 => 2 ^ 64 - 1
  | _ => 0

/-- Put a word's value into an entry. -/
def SheafEntry.setWord (e : SheafEntry) (i : Nat) (w : Word) : SheafEntry :=
  let f := fld w
  match i with
  | 0 => { e with reqId := w }
  | 1 =>
    { e with state := (reqStateOf (f 3 0)).getD .free, reason := f 11 4, priority := f 14 12, inStep := w.getLsbD 15,
             rePin := w.getLsbD 16, changePending := w.getLsbD 17, slice := f 23 18, tail := f 30 24, epoch := f 63 32 }
  | 2 => { e with model := f 19 0, adapter := f 27 20, customer := f 51 28, mirrorPolicy := f 54 52 }
  | 3 => { e with deadline := w.toNat }
  | 4 => { e with len := f 23 0, maxLen := f 47 24, floor := f 55 48, returnState := (reqStateOf (f 59 56)).getD .free }
  | 5 => { e with root := w }
  | 6 => { e with admitTime := w.toNat }
  | 7 => { e with lastTime := w.toNat }
  | 8 => { e with mirror0 := w &&& 0xBFFFBFFFBFFFBFFF }
  | 9 => { e with mirror1 := w &&& 0xBFFFBFFFBFFFBFFF }
  | 10 => { e with mirror2 := w &&& 0xBFFFBFFF }
  | 11 => { e with maskPtr := w }
  | 12 => { e with automaton := f 31 0, maskMode := f 33 32 }
  | 13 => { e with sampling0 := w }
  | 14 => { e with sampling1 := w &&& 0x7FFFFFFFFFF }
  | 15 => { e with stops := w &&& 0x3FFFFFFFFF }
  | 16 => { e with rngKey := w }
  | 17 => { e with rngCounter := e.rngCounter / 2 ^ 64 * 2 ^ 64 + w.toNat }
  | 18 => { e with rngCounter := w.toNat * 2 ^ 64 + e.rngCounter % 2 ^ 64 }
  | 19 => { e with partner := f 13 0, batchTag := f 31 16 }
  | 20 => { e with lease := w.toNat }
  | 21 => { e with scratch0 := w }
  | 22 => { e with scratch1 := w }
  | 23 => { e with scratch2 := w }
  | 24 => { e with generated := f 31 0, steps := f 63 32 }
  | 25 => { e with proposed := f 31 0, accepted := f 63 32 }
  | 26 => { e with pauses := f 15 0, expiries := f 31 16, groupAborts := f 47 32, underruns := f 63 48 }
  | 27 => { e with maskEmpty := f 15 0, handovers := f 31 16 }
  | _ => e

/-- The entry a 256-byte image spells, word by word under masks. -/
def SheafEntry.fromImage (e : SheafEntry) (mask : Nat → Nat) (img : List Byte) : SheafEntry :=
  (List.range 28).foldl (fun e i =>
    if mask i = 0 then e
    else
      let m := BitVec.ofNat 64 (mask i)
      e.setWord i ((e.word i &&& ~~~ m) ||| (wordAt img (8 * i) &&& m))) e

/-- The 256-byte image of an entry. -/
def SheafEntry.image (e : SheafEntry) : List Byte := (List.range 32).flatMap (fun i => toBytes 8 (e.word i).toNat)

/-- Member i of the mirror set: node ID and valid (Table 2-1). -/
def SheafEntry.member (e : SheafEntry) (i : Nat) : Nat × Bool :=
  let w := if i < 4 then e.mirror0 else if i < 8 then e.mirror1 else e.mirror2
  let k := 16 * (i % 4)
  (fld w (k + 13) k, w.getLsbD (k + 15))

/-- The valid members: place and node. -/
def SheafEntry.members (e : SheafEntry) : List (Nat × Nat) :=
  (List.range 10).filterMap (fun i => let m := e.member i; if m.2 then some (i, m.1) else none)

/-! ### Transitions (R38 to R43) -/

/-- Counters that follow a transition (Table 2-14). -/
def SheafEntry.counted (e : SheafEntry) (to' : ReqState) (reason : Nat) : SheafEntry :=
  let e := if to' = .paused then { e with pauses := satInc 16 e.pauses 1 } else e
  let e := if to' = .expired then { e with expiries := satInc 16 e.expiries 1 } else e
  let e := if reason = rMaskEmpty then { e with maskEmpty := satInc 16 e.maskEmpty 1 } else e
  if reason = 0x35 then { e with handovers := satInc 16 e.handovers 1 } else e

/-- The transition record of Table 2-5. -/
def transitionRecord (i : Nat) (from' to' : ReqState) (reason now : Nat) (e : SheafEntry) : List Byte :=
  toBytes 8 e.reqId.toNat ++ toBytes 8 now ++
    toBytes 8 (i + from'.code * 2 ^ 15 + to'.code * 2 ^ 19 + reason * 2 ^ 23) ++ toBytes 8 (e.epoch + e.len * 2 ^ 32)

/-- Append a record at TAIL of the slice's ring, or drop it and count an overflow when the ring is full (R43). -/
def State.ringAppend (s : State) (slice : Nat) (rec : List Byte) : State :=
  let size := s.rdf ⟨.shfRingCtl, 0, slice, 0⟩ 15 0
  if size = 0 then s
  else
    let head := s.rdf ⟨.shfRingHead, 0, slice, 0⟩ 14 0
    let tail := s.rdf ⟨.shfRingTail, 0, slice, 0⟩ 14 0
    if (tail + 1) % size = head then s.count ⟨.shfRingCtl, 0, slice, 0⟩ 47 16 1
    else
      let s := s.gwrite ((s.rd ⟨.shfRingBase, 0, slice, 0⟩).toNat + 32 * tail) rec false
      s.wrf ⟨.shfRingTail, 0, slice, 0⟩ 14 0 ((tail + 1) % size)

/-- The entry after a transition: state, reason, time, return state and counters in one write (R38, R39). -/
def SheafEntry.moved (e : SheafEntry) (to' : ReqState) (reason now : Nat) : SheafEntry :=
  let keep := e.state = .paused
  let ret := if (to' = .paused || to' = .expired || to' = .handoverOut) && !keep then e.state else e.returnState
  { e with state := to', reason := reason, lastTime := now, returnState := ret }.counted to' reason

/-- The reference that an entry holds on its adapter version is given up (R255). -/
def State.adpDrop (s : State) (e : SheafEntry) : State :=
  if e.adpHeld then s.adpRef (adpKey e.customer e.model) e.adapter false else s

/-- One transition of Table 2-4. A transition to FREE clears the entry and gives up its references (R37, R67, R255,
R515). -/
def State.transition (s : State) (i : Nat) (to' : ReqState) (reason : Nat) : State :=
  let e := s.entry i
  let e' := e.moved to' reason s.time
  let s := s.ringAppend e.slice (transitionRecord i e.state to' reason s.time e')
  if to' = .free then ((s.geoRef e.model false).adpDrop e).setEntry i {}
  else s.setEntry i e'

/-- The entry other than FREE that holds a request ID on this device (R34). -/
def State.findRequest (s : State) (id : Word) : Option Nat :=
  (s.sheaf.find? (fun p => p.2.state != .free && p.2.reqId == id)).map (·.1)

/-- The transitions SHF.SETSTATE may make, with their reasons (Table 2-4, R42, R62). -/
def setstateReason (e : SheafEntry) (target : ReqState) (now : Nat) : Option Nat :=
  let st := e.state
  match target with
  | .aborted =>
    if st = .free || st = .handoverOut || st = .handoverIn || st = .done || st = .lost || st = .aborted then none
    else some rAbortSoftware
  | .done => if st = .parked || st = .decode || st = .paused || st = .expired then some rDoneSoftware else none
  | t =>
    if st = .paused then (if t = e.returnState then some rResumeSoftware else none)
    else if st = .expired then (if t = e.returnState && now < e.deadline then some rDeadlineExtended else none)
    else
      match t with
      | .parked => if st = .prefill then some rPark else none
      | .decode => if st = .prefill || st = .parked then some rDecodeStart else none
      | .paused => if st = .admitted || st = .prefill || st = .decode then some rPauseSoftware else none
      | _ => none

/-- Apply an SHF.SETSTATE now: the transition, or ILLEGAL_TRANSITION counted (R42). DEDUCED: for a held one, which is applied at
its commit, the deadline is compared with the commit's time (R62; log entry 38). -/
def State.applySetstate (s : State) (i target : Nat) : Nat × State :=
  match (reqStateOf target).bind (fun t => (setstateReason (s.entry i) t s.time).map (fun r => (t, r))) with
  | some (t, r) => (0, s.transition i t r)
  | none => (0x8B, s.bump ⟨.shfIllegalCnt, 0, 0, 0⟩)

/-- Replace the masked bits of an entry word (R384). -/
def SheafEntry.masked (e : SheafEntry) (i : Nat) (v m : Word) : SheafEntry :=
  e.setWord i ((e.word i &&& ~~~ m) ||| (v &&& m))

/-! ### Software instructions -/

/-- Whether the slice may admit: Fallow mode and slice states first (R390, R414). -/
def State.admitRefusal (s : State) (slice : Nat) : Option Nat :=
  if s.fallow then some 0xB1 else if s.sliceState slice != 2 then some 0xB0 else none

/-- Table 2-9 and its order, after the refusals of R390 and R414. -/
def State.admitStatus (s : State) (slice : Nat) (t : SheafEntry) : Nat :=
  match s.admitRefusal slice with
  | some c => c
  | none =>
    match s.partition slice with
    | none => 0x8C
    | some (b, n) =>
      if (s.findRequest t.reqId).isSome then 0x8D
      else if (s.geometry t.model).isNone then 0x8E
      else if t.maxLen = 0 || 1024 < fld t.sampling1 42 32 || 4 ≤ t.mirrorPolicy || t.maskMode = 3 then 0x86
      else if (firstBelow n (fun k => (s.entry (b + k)).state = .free)).isNone then 0x88
      else 0

/-- The lowest FREE entry of a partition. -/
def State.lowestFree (s : State) (slice : Nat) : Option Nat :=
  match s.partition slice with
  | none => none
  | some (b, n) => (firstBelow n (fun k => (s.entry (b + k)).state = .free)).map (b + ·)

/-- The template's fields (R385). -/
def templateEntry (img : List Byte) : SheafEntry :=
  SheafEntry.fromImage {} (fun i => softwareBits i ||| admissionBits i) img

/-- A template operand: 256 bytes of Hull, and its slice is the program's (R385). -/
def ckTemplate (s : State) (c : Ctx) : List (Nat × Word) :=
  ckHull c.y 256 64 ++
    chk (s.sliceState c.slice != 0 && (templateEntry ((s.hull c.f).readBytes (fld c.y 31 0) 256)).slice == c.slice) 0x06 c.y

/-- SHF.ADMIT (R45 to R48). -/
def opShfAdmit : SlotOp :=
  { enc := { opc := 0xD9, x := .g, y := .g, dx := true, ctr := true }
    cls := some .sys
    checks := fun c s => ckTemplate s c
    reads := fun c _ => [(fld c.y 31 0, 256)]
    run := fun c s =>
      let t := templateEntry ((s.hull c.f).readBytes (fld c.y 31 0) 256)
      let code := s.admitStatus c.slice t
      match code, s.lowestFree c.slice with
      | 0, some i =>
        let v := s.adpCurrent (adpKey t.customer t.model)
        let s := (s.geoRef t.model true).adpRef (adpKey t.customer t.model) v true
        let s := s.setEntry i
          { t with epoch := 1, len := 0, adapter := v, adpHeld := s.adpHolds (adpKey t.customer t.model) v, admitTime := s.time,
                   state := .free }
        c.status 0 i (s.transition i .admitted rAdmit)
      | code, _ => c.status code 0 s }

/-- SHF.LOOKUP (R34). -/
def opShfLookup : SlotOp :=
  { enc := { opc := 0xDA, x := .g, y := .g, dx := true, ctr := true }
    cls := some .sys
    run := fun c s =>
      match s.findRequest c.y with
      | some i => if s.inPartition c.slice i then c.status 0 i s else c.status 0x89 0 s
      | none => c.status 0x89 0 s }

/-- SHF.RD (R383): one word of an entry, raw. -/
def opShfRd : SlotOp :=
  { enc := { opc := 0xDB, x := .g, y := .g, dx := true }
    cls := some .sys
    checks := fun c s => ckWordSel s c.slice c.y
    run := fun c s => s.setG c.f c.o.x.val ((s.entry (fld c.y 14 0)).word (fld c.y 19 15)) }

/-- SHF.WRITE (R36, R384, Table 2-12). -/
def opShfWrite : SlotOp :=
  { enc := { opc := 0xDC, x := .g, y := .g, z := .g, w := .g, dx := true, ctr := true }
    cls := some .sys
    checks := fun c s => ckWordSel s c.slice c.y
    run := fun c s =>
      let i := fld c.y 14 0
      let k := fld c.y 19 15
      let e := s.entry i
      if c.w.toNat &&& (2 ^ 64 - 1 - softwareBits k) != 0 then c.status 0x8A 0 s
      else if e.inStep && k != 3 then
        c.status 0 0 (s.setEntry i { e with heldWrites := e.heldWrites ++ [(k, c.z, c.w)] })
      else c.status 0 0 (s.setEntry i (e.masked k c.z c.w)) }

/-- SHF.SETSTATE (R42, R60). -/
def opShfSetstate : SlotOp :=
  { enc := { opc := 0xDD, x := .g, y := .g, dx := true, mods := 15, ctr := true }
    cls := some .sys
    checks := fun c s => ckSheaf s c.slice c.y
    run := fun c s =>
      let i := fld c.y 14 0
      let e := s.entry i
      if e.inStep then c.status 0 0 (s.setEntry i { e with changePending := true, pendingState := some (c.mod % 16) })
      else
        let (code, s) := s.applySetstate i (c.mod % 16)
        c.status code 0 s }

/-- The states SHF.FREE frees (R42). -/
def freeable (st : ReqState) : Bool := st = .expired || st = .done || st = .lost || st = .aborted

/-- SHF.FREE (R42, Table 2-12). -/
def opShfFree : SlotOp :=
  { enc := { opc := 0xDE, x := .g, y := .g, dx := true, ctr := true }
    cls := some .sys
    checks := fun c s => ckSheaf s c.slice c.y
    run := fun c s =>
      let i := fld c.y 14 0
      let e := s.entry i
      if e.inStep then c.status 0x87 0 s
      else if freeable e.state then c.status 0 0 (s.transition i .free rFreed)
      else c.status 0x8B 0 (s.bump ⟨.shfIllegalCnt, 0, 0, 0⟩) }

/-! ### Selection (R49 to R52) -/

/-- Eligible in a mode by Table 2-2: 0 PREFILL, 1 DECODE. -/
def eligible (mode : Nat) (st : ReqState) : Bool :=
  if mode = 0 then st = .admitted || st = .prefill else st = .decode

/-- Considered by a selection (R49). -/
def considered (mode : Nat) (auto : Bool) (e : SheafEntry) : Bool :=
  !e.inStep && !e.epochRound && (eligible mode e.state || (auto && e.state = .paused && e.reason = rPreempt && eligible mode e.returnState))

/-- The order of R50: priority descending, deadline ascending, index ascending. -/
def selectBefore (s : State) (i j : Nat) : Bool :=
  let a := s.entry i
  let b := s.entry j
  if a.priority != b.priority then b.priority < a.priority
  else if a.deadline != b.deadline then a.deadline < b.deadline
  else i < j

/-- Insertion into a list in that order. -/
def selectInsert (s : State) (i : Nat) : List Nat → List Nat
  | [] => [i]
  | j :: t => if selectBefore s i j then i :: j :: t else j :: selectInsert s i t

/-- Expire the considered entries whose deadline has passed (R50). -/
def State.selectExpire (s : State) (now : Nat) (l : List Nat) : State × List Nat :=
  l.foldl (fun (p : State × List Nat) i =>
    if (p.1.entry i).deadline ≤ now then (p.1.transition i .expired rDeadlineAtSelect, p.2) else (p.1, p.2 ++ [i])) (s, [])

/-- The urgent entries' highest priority, none when nothing is urgent (R50). -/
def State.urgentTop (s : State) (now slack : Nat) (l : List Nat) : Option Nat :=
  ((l.filter fun i =>
      let e := s.entry i
      slack != 0 && (e.state = .prefill || e.state = .decode || e.state = .admitted) && e.deadline - now < slack).map
    (fun i => (s.entry i).priority)).max?

/-- The pause rule (R50). -/
def State.selectPause (s : State) (top : Nat) (l : List Nat) : State × List Nat :=
  l.foldl (fun (p : State × List Nat) i =>
    let e := p.1.entry i
    if e.priority < top then
      (if e.state = .prefill || e.state = .decode then p.1.transition i .paused rPreempt else p.1, p.2)
    else (p.1, p.2 ++ [i])) (s, [])

/-- Re-pin to CURRENT before the step starts (R256). -/
def State.repin (s : State) (i : Nat) : State :=
  let e := s.entry i
  if e.rePin then
    let key := adpKey e.customer e.model
    let v := s.adpCurrent key
    let s := (s.adpDrop e).adpRef key v true
    s.setEntry i { e with rePin := false, adapter := v, adpHeld := s.adpHolds key v }
  else s

/-- A taken entry: resumed or started, claimed, re-pinned and tagged (R50, R51). -/
def State.selectTake (s : State) (tag i : Nat) : State :=
  let e := s.entry i
  let s := if e.state = .paused then s.transition i e.returnState rResumeAuto else s
  let s := if (s.entry i).state = .admitted then s.transition i .prefill rPrefillStart else s
  let s := s.repin i
  s.setEntry i { s.entry i with inStep := true, batchTag := tag, vcommit := none }

/-- The batch tag counter's next value: it skips 0 (R386). -/
def nextBatchTag (t : Nat) : Nat := if (t + 1) % 65536 = 0 then 1 else (t + 1) % 65536

/-- The batch list of Table 14-15. -/
def batchList (tag mode : Nat) (l : List Nat) : List Byte :=
  toBytes 8 (tag + l.length * 2 ^ 16 + mode * 2 ^ 32) ++ l.flatMap (fun i => toBytes 2 i)

/-- Selection for a slice at `now`: answers the members and the state (R50). -/
def State.select (s : State) (slice mode limit now tag : Nat) : List Nat × State :=
  match s.partition slice with
  | none => ([], s)
  | some (b, n) =>
    let auto := s.rdb ⟨.shfPause, 0, slice, 0⟩ 32
    let slack := s.rdf ⟨.shfPause, 0, slice, 0⟩ 31 0
    let l := ((List.range n).map (b + ·)).filter (fun i => considered mode auto (s.entry i))
    let (s, l) := s.selectExpire now l
    let (s, l) := match s.urgentTop now slack l with
      | none => (s, l)
      | some top => s.selectPause top l
    let taken := (l.foldl (fun acc i => selectInsert s i acc) []).take limit
    (taken, taken.foldl (fun s i => s.selectTake tag i) s)

/-- SHF.BATCH (R49 to R52, R386). -/
def opShfBatch : SlotOp :=
  { enc := { opc := 0xDF, x := .g, y := .g, z := .g, dx := true, mods := 1, ctr := true }
    cls := some .sys
    checks := fun c _ => ckHull c.y (8 + 2 * c.z.toNat) 64
    run := fun c s =>
      let b := c.z.toNat
      if b = 0 || 1024 < b then c.status 0x86 0 s
      else if (s.partition c.slice).isNone then c.status 0x8C 0 s
      else
        let tag := nextBatchTag s.batchTag
        let s := { s with batchTag := tag }
        let (l, s) := s.select c.slice (c.mod % 2) b s.time tag
        let s := s.modHull c.f (fun m => m.writeBytes (fld c.y 31 0) (batchList tag (c.mod % 2) l))
        c.status 0 l.length s }

/-! ### Commit (R53 to R58, R264) -/

/-- Member result fields (Table 10-5): flags, TOKENS, SAMPLED, DRAWS. -/
structure MemberResult where
  flags : Nat
  tokens : Nat
  sampled : Bool
  draws : Nat
  ids : List Nat
  states : List Nat
deriving DecidableEq, Repr

/-- A member result read from Hull. -/
def memberResult (m : Memory) (a : Nat) : MemberResult :=
  let bs := m.readBytes a 0x1D0
  let w := leAt bs 4 4
  ⟨leAt bs 0 4, bits w 6 0, w.testBit 7, bits w 14 8, (List.range 64).map (fun j => leAt bs (0x10 + 3 * j) 3 % 2 ^ 18),
    (List.range 64).map (fun j => leAt bs (0xD0 + 4 * j) 4)⟩

/-- Whether a token is an enabled stop token. -/
def isStop (e : SheafEntry) (t : Nat) : Bool :=
  (e.stops.getLsbD 36 && fld e.stops 17 0 == t) || (e.stops.getLsbD 37 && fld e.stops 35 18 == t)

/-- Tokens committed under outcome 7 and whether STOP and LENGTH_LIMIT apply (R54, R86, R264). DEDUCED: a stop token beyond the
cut at the maximum length is not committed and is no stop (log entry 38). -/
def commitCount (e : SheafEntry) (r : MemberResult) : Nat × Bool × Bool :=
  let a := e.vcommit.getD e.tail
  let a := if r.sampled then min a r.tokens else a
  let room := e.maxLen - e.len
  let atMax := room ≤ a
  let a := min a room
  match (if r.sampled then firstBelow a (fun j => isStop e (r.ids.getD j 0)) else none) with
  | some j => (j + 1, true, j + 1 == room)
  | none => (a, false, atMax)

/-- The layer word at 0x48 + 16l of a root frame, and its list frame handle (Table 3-7). -/
def State.layerEntry (s : State) (rootFrame l : Nat) : Word × Word :=
  let a := rootFrame * 65536 + 0x40 + 16 * l
  (s.gword a, s.gword (a + 8))

/-- Byte address of entry k of a list. -/
def listAddr (list : Word) (lw : Word) (k : Nat) : Nat := handleFrame list * 65536 + 8 * (fld lw 12 0 + k)

/-- Promotion clears the provisional flag of every page whose first position lies below the committed length (R86), and
a page into which positions are placed loses its mirrored and coded flags (R352). -/
def State.promotePages (s : State) (e : SheafEntry) (len : Nat) : State :=
  match s.geometry e.model with
  | none => s
  | some g =>
    if !handleFlag e.root 0 then s
    else
      (List.range g.layers).foldl (fun s l =>
        let (lh, lw) := s.layerEntry (handleFrame e.root) l
        let t := g.tokens (fld lw 33 26)
        if lw.getLsbD 47 && t != 0 then
          (List.range (min (fld lw 46 34) ((len + t - 1) / t))).foldl (fun s k =>
            let a := listAddr lh lw k
            let h := s.gword a
            let h' := if e.len < len && e.len < (k + 1) * t then setFld h 3 1 0 else setFld h 3 3 0
            if h' = h then s else s.setGword a h') s
        else s) s

/-- The bits of a status word's conditions (Table 2-11). -/
def flagBit (b : Bool) (i : Nat) : Nat := if b then 2 ^ i else 0

/-- What remains after a member's outcome: the in-step bit and the tail clear, the pending SHF.SETSTATE applies
against the resulting state, then the held writes (R55, R60, R86). DEDUCED: the held writes follow the pending SHF.SETSTATE (log
entry 38). -/
def State.commitRelease (s : State) (i : Nat) : State :=
  let e := s.entry i
  let s := s.setEntry i
    { e with inStep := false, tail := 0, vcommit := none, changePending := false, pendingState := none, heldWrites := [],
             lossRecorded := false, teardownRecorded := false }
  let s := match e.pendingState with
    | some t => (s.applySetstate i t).2
    | none => s
  if (s.entry i).state = .free then s
  else e.heldWrites.foldl (fun s w => s.setEntry i ((s.entry i).masked w.1 w.2.1 w.2.2)) s

/-- One member of a commit at `now`: its status word and the state after it (Table 2-10). DEDUCED (log entry 38): under outcome 1
the word holds NOT_IN_STEP alone and nothing is counted; LOST is set for a poisoned member too; a recorded teardown ranks with
outcome 3, and ABORT_SLICE is the reason where both are due. -/
def State.commitMember (s : State) (tag now i : Nat) (r : MemberResult) : Nat × State :=
  let e := s.entry i
  if !e.inStep || e.batchTag != tag then (flagBit true 25, s)
  else
    let poison := r.flags.testBit 21
    let group := r.flags.testBit 18
    let empty := r.flags.testBit 19
    let under := r.flags.testBit 20
    let abort := e.pendingState = some 11 || e.teardownRecorded
    let expired := e.deadline ≤ now
    let base := flagBit expired 17 + flagBit group 18 + flagBit empty 19 + flagBit under 20 + flagBit poison 21 +
      flagBit abort 24 + flagBit (e.lossRecorded || poison) 26
    let e1 := { e with steps := satInc 32 e.steps 1, underruns := if under then satInc 16 e.underruns 1 else e.underruns }
    let s := s.setEntry i e1
    if e.lossRecorded then (base, (s.transition i .lost rStateLost).commitRelease i)
    else if poison then (base, (s.transition i .lost rPagePoisoned).commitRelease i)
    else if abort then
      let s := s.transition i .aborted (if e.teardownRecorded then rAbortSlice else rAbortSoftware)
      let s := if e.pendingState = some 11 then s.setEntry i { s.entry i with pendingState := none } else s
      (base, s.commitRelease i)
    else if expired then (base, (s.transition i .expired rDeadlineAtCommit).commitRelease i)
    else if group then
      (base, (s.setEntry i { e1 with groupAborts := satInc 16 e1.groupAborts 1 }).commitRelease i)
    else if empty then (base, (s.transition i .paused rMaskEmpty).commitRelease i)
    else
      let (n, stop, atMax) := commitCount e r
      let e2 := { e1 with len := e.len + n }
      let e2 :=
        if r.sampled then
          { e2 with automaton := if n = 0 then e.automaton else r.states.getD (n - 1) 0,
                    rngCounter := (e.rngCounter + r.draws) % 2 ^ 128,
                    generated := satInc 32 e.generated n,
                    proposed := satInc 32 e.proposed (e.tail - 1),
                    accepted := satInc 32 e.accepted (n - 1) }
        else e2
      let s := (s.setEntry i e2).promotePages e (e.len + n)
      let s := if stop then s.transition i .done rStopToken else if atMax then s.transition i .done rLengthLimit else s
      (base + n + flagBit true 16 + flagBit stop 22 + flagBit atMax 23, s.commitRelease i)

/-- The batch list header read at issue: tag, T and whether it is well formed (R386). -/
def batchHeader (m : Memory) (a : Nat) : Nat × Nat × Bool :=
  let w := m.readNat a 8
  (bits w 15 0, bits w 26 16, bits w 26 16 ≤ 1024 && bits w 31 27 == 0 && bits w 63 33 == 0)

/-- Member indices of a batch list. -/
def batchMembers (m : Memory) (a t : Nat) : List Nat := (List.range t).map (fun k => m.readNat (a + 8 + 2 * k) 2 % 32768)

/-- The issue checks of SHF.COMMIT (R386, Table 14-5). -/
def ckCommit (s : State) (c : Ctx) : List (Nat × Word) :=
  let m := s.hull c.f
  let a := fld c.y 31 0
  let (_, t, ok) := batchHeader m a
  let t := if ok then t else 0
  ckHull c.y (8 + 2 * t) 64 ++ ckHull c.z (512 * t) 64 ++
    chk ((batchMembers m a t).all (s.inPartition c.slice)) 0x06 c.y

/-- The commit of a whole batch: members in list order, their status words into the result vector (R53, R57). -/
def State.commitBatch (s : State) (f a v : Nat) : Nat × State :=
  let m := s.hull f
  let (tag, t, _) := batchHeader m a
  let now := s.time
  (t, (batchMembers m a t).zipIdx.foldl (fun s p =>
    let (w, s) := s.commitMember tag now p.1 (memberResult (s.hull f) (v + 512 * p.2))
    s.modHull f (fun m => m.writeNat (v + 512 * p.2) 4 w)) s)

/-! ### Commands -/

/-- SHF_ADMIT (R45). -/
def execShfAdmit (f : FurrowId) (o : Slot) (s : State) : Res := answer (runSlot opShfAdmit f o s)

/-- SHF_LOOKUP (R34). -/
def execShfLookup (f : FurrowId) (o : Slot) (s : State) : Res := answer (runSlot opShfLookup f o s)

/-- SHF_RD (R383). -/
def execShfRd (f : FurrowId) (o : Slot) (s : State) : Res := answer (runSlot opShfRd f o s)

/-- SHF_WRITE (R384). -/
def execShfWrite (f : FurrowId) (o : Slot) (s : State) : Res := answer (runSlot opShfWrite f o s)

/-- SHF_SETSTATE (R42). -/
def execShfSetstate (f : FurrowId) (o : Slot) (s : State) : Res := answer (runSlot opShfSetstate f o s)

/-- SHF_FREE (R42). -/
def execShfFree (f : FurrowId) (o : Slot) (s : State) : Res := answer (runSlot opShfFree f o s)

/-- SHF_BATCH (R50). -/
def execShfBatch (f : FurrowId) (o : Slot) (s : State) : Res := answer (runSlot opShfBatch f o s)

end Sys2Proof.Machine
end

