-- ==== Sys2Proof/Machine/Pages.lean ====
section
/-! DEFINITION. Page tables and walks: the PT instructions, deferred edits, handle checks and the latching of walks (R63
to R87, R335, R515, R517). -/

namespace Sys2Proof.Machine

/-! ### Tables in Granary (R69, R70) -/

/-- First byte of a frame. -/
def frameAddr (n : Nat) : Nat := n * 65536

/-- A table selector's fields (Table 14-4). -/
structure Sel where
  root : Nat
  gen : Nat
  layer : Nat
  index : Nat
deriving DecidableEq, Repr

/-- The fields of a table selector. -/
def selOf (w : Word) : Sel := ⟨fld w 22 0, fld w 32 23, fld w 40 33, fld w 52 41⟩

/-- The header word 0x08 of a root: model ID, layer count, table generation. -/
def State.rootWord (s : State) (root : Nat) : Word := s.gword (frameAddr root + 8)
/-- The model of a root. -/
def State.rootModel (s : State) (root : Nat) : Nat := fld (s.rootWord root) 19 0
/-- The layer count of a root. -/
def State.rootLayers (s : State) (root : Nat) : Nat := fld (s.rootWord root) 28 20
/-- The table generation of a root. -/
def State.rootGen (s : State) (root : Nat) : Nat := fld (s.rootWord root) 63 32

/-- Table generation plus one, modulo 2^32 (R69). -/
def State.bumpRootGen (s : State) (root : Nat) : State :=
  s.setGword (frameAddr root + 8) (setFld (s.rootWord root) 63 32 (s.rootGen root + 1))

/-- A layer entry (Table 3-7). -/
structure LayerEnt where
  list : Word
  first : Nat
  cap : Nat
  fmt : Nat
  pages : Nat
  enabled : Bool
deriving DecidableEq, Repr

/-- The layer entry a pair of words spells. -/
def layerEntOf (lh lw : Word) : LayerEnt := ⟨lh, fld lw 12 0, fld lw 25 13, fld lw 33 26, fld lw 46 34, lw.getLsbD 47⟩

/-- Layer l of a root frame. -/
def State.layer (s : State) (root l : Nat) : LayerEnt :=
  let (lh, lw) := s.layerEntry root l
  layerEntOf lh lw

/-- Word 0x48 of a layer entry. -/
def LayerEnt.word (e : LayerEnt) : Word :=
  BitVec.ofNat 64 (e.first % 2 ^ 13 + e.cap % 2 ^ 13 * 2 ^ 13 + e.fmt % 256 * 2 ^ 26 + e.pages % 2 ^ 13 * 2 ^ 34 +
    bitVal e.enabled 47)

/-- Write layer l of a root frame. -/
def State.setLayer (s : State) (root l : Nat) (e : LayerEnt) : State :=
  let a := frameAddr root + 0x40 + 16 * l
  (s.setGword a e.list).setGword (a + 8) e.word

/-- Address of entry k of a layer's list. -/
def LayerEnt.addr (e : LayerEnt) (k : Nat) : Nat := frameAddr (handleFrame e.list) + 8 * (e.first + k)

/-- Tokens per page of a layer, 0 where the model or format gives none (R70). -/
def State.layerTokens (s : State) (root : Nat) (e : LayerEnt) : Nat :=
  match s.geometry (s.rootModel root) with
  | none => 0
  | some g => g.tokens e.fmt

/-- The frame of this device that a handle names: valid, not remote, of this node, nameable. -/
def State.localFrame (s : State) (h : Word) : Option Nat :=
  if handleFlag h 0 && !handleFlag h 6 && handleNode h == s.node && frameNameable (handleFrame h) then some (handleFrame h)
  else none

/-- The checks of a walk on one handle, in the order of Table 3-10; 0 when all pass. -/
def State.handleCheck (s : State) (h : Word) (layerFmt : Nat) : Nat :=
  let d := s.frame (handleFrame h)
  if !handleFlag h 0 then 0x80
  else if handleFlag h 7 || !frameNameable (handleFrame h) || handleFlag h 6 != (handleNode h != s.node) then 0x81
  else if handleFlag h 6 then 0x82
  else if !s.current h then 0x83
  else if handleFmt h != layerFmt || handleFmt h != d.stamp then 0x10
  else if handleFlag h 5 || d.poisoned then 0x84
  else 0

/-- The Sheaf entry that owns a root: it holds the root's request ID and names the root frame (R69, R85). -/
def State.rootOwner (s : State) (root : Nat) : Option Nat :=
  match s.findRequest (s.gword (frameAddr root)) with
  | none => none
  | some i =>
    let e := s.entry i
    if handleFlag e.root 0 && handleFrame e.root == root then some i else none

/-- Format a frame as a root: header, every layer entry disabled, generation 0 (Table 3-8). -/
def State.formatRoot (s : State) (root : Nat) (req : Word) (model layers : Nat) (self : Word) : State :=
  let a := frameAddr root
  let s := s.gwrite a (fillBytes 0x1040 0) false
  ((s.setGword a req).setGword (a + 8) (BitVec.ofNat 64 (model % 2 ^ 20 + layers * 2 ^ 20))).setGword (a + 0x10) self

/-! ### Edits (R71, R72, R77 to R81, R238) -/

/-- The first check of an edit or read: the selector's root frame (R517; a stale root is STALE_HANDLE, log entry 12). -/
def State.rootStatus (s : State) (slice : Nat) (q : Sel) (foreign : Nat) : Nat :=
  let d := s.frame q.root
  if !s.frameOf slice q.root then foreign
  else if d.gen != q.gen then 0x83
  else if d.kind != 2 then 0x81
  else 0

/-- R72: a disabled layer, or one at or above the layer count. -/
def State.layerStatus (s : State) (q : Sel) : Nat :=
  if (s.layer q.root q.layer).enabled && q.layer < s.rootLayers q.root then 0 else 0x91

/-- A local handle, its valid flag set or clear, to a frame that is free or another slice's (R230, R517). -/
def State.foreignHandle (s : State) (slice : Nat) (h : Word) : Bool :=
  !handleFlag h 6 && handleNode h == s.node && frameNameable (handleFrame h) && !s.frameOf slice (handleFrame h)

/-- The handle checks of PT.APPEND and PT.SET (R72, R230). -/
def State.pageHandleStatus (s : State) (slice : Nat) (h : Word) (fmt : Nat) : Nat :=
  if handleFmt h != fmt || handleFlag h 7 || s.foreignHandle slice h then 0x81 else 0

/-- The back-reference of a frame follows the entry just written, and clears where it named another; a pinned handle pins (R238).
A root that no Sheaf entry owns has no entry for a back-reference to name. -/
def State.backRef (s : State) (root l k : Nat) (h : Word) : State :=
  match s.localFrame h with
  | none => s
  | some n =>
    let d := s.frame n
    if d.kind != 1 then s
    else
      let d := match s.rootOwner root with
        | none => { d with backV := false }
        | some i =>
          if !d.backV then { d with backV := true, sheaf := i, layer := l, entry := k }
          else if d.sheaf = i && d.layer = l && d.entry = k then d
          else { d with backV := false }
      s.setFrame n { d with pin := d.pin || handleFlag h 4 }

/-- PT.SET's effect. -/
def State.applySet (s : State) (q : Sel) (h : Word) : State :=
  ((s.setGword ((s.layer q.root q.layer).addr q.index) h).bumpRootGen q.root).backRef q.root q.layer q.index h

/-- PT.FREE's effect: the entry becomes a hole and the frame its handle names is freed, unless the handle is pinned.
A handle that is not current names no frame of this table any more (log entry 12). -/
def State.applyFree (s : State) (q : Sel) : State :=
  let a := (s.layer q.root q.layer).addr q.index
  let h := s.gword a
  let s := (s.setGword a (setFld h 0 0 0)).bumpRootGen q.root
  match s.localFrame h with
  | none => s
  | some n => if handleFlag h 4 || !s.current h || !(s.frame n).held then s else s.freeFrame n

/-- PT.LAYER's effect: an entry that stays enabled keeps its pages (R71). -/
def State.applyLayer (s : State) (q : Sel) (h params : Word) : State :=
  let old := s.layer q.root q.layer
  let new := layerEntOf h params
  (s.setLayer q.root q.layer { new with pages := if old.enabled && new.enabled then old.pages else 0 }).bumpRootGen q.root

/-- The frame whose walk count an edit waits for: the entry's current frame, or the root for PT.LAYER (R78, R79). -/
def State.editFrame (s : State) (opc : Nat) (q : Sel) : Option Nat :=
  if opc = 0xE2 then some q.root else s.localFrame (s.gword ((s.layer q.root q.layer).addr q.index))

/-- An edit's effect. -/
def State.applyEdit (s : State) (opc : Nat) (sel h params : Word) : State :=
  let q := selOf sel
  if opc = 0xE2 then s.applyLayer q h params else if opc = 0xE4 then s.applySet q h else s.applyFree q

/-- Every edit queued, in issue order. -/
def State.deferredEdits (s : State) : List DeferredEdit := s.deferred.flatMap (·.2)

/-- Whether an edit touches the entry of a selector: a PT.LAYER its root, the others one entry. -/
def DeferredEdit.touches (e : DeferredEdit) (opc : Nat) (q : Sel) : Bool :=
  let p := selOf e.sel
  p.root == q.root && (e.opc == 0xE2) == (opc == 0xE2) && (e.opc == 0xE2 || (p.layer == q.layer && p.index == q.index))

/-- Walks hold a frame. -/
def State.walked (s : State) (n : Option Nat) : Bool :=
  match n with
  | none => false
  | some n => (s.frame n).walks != 0

/-- An edit that passed its checks: at once where no walk holds the frame, else into its Field's queue of 128, or BUSY
when that is full (R77 to R79). An edit behind a waiting one of the same entry waits too (R81). -/
def Ctx.edit (c : Ctx) (enc : EncSpec) (sel h params : Word) (s : State) : State :=
  let q := selOf sel
  if !s.walked (s.editFrame enc.opc q) && !s.deferredEdits.any (fun e => e.touches enc.opc q) then
    c.status 0 0 (s.applyEdit enc.opc sel h params)
  else
    let l := Table.get [] s.deferred c.field
    if 128 ≤ l.length then c.status 0x87 0 s
    else
      let (id, s) := c.issue enc .sys [] s
      let d : DeferredEdit :=
        ⟨id, enc.opc, (s.editFrame enc.opc q).getD q.root, sel, h, params, c.slice, c.f, id⟩
      c.statusOnly 0x94 0 { s with deferred := Table.set s.deferred c.field (l ++ [d]) }

/-- A frame reached its last walk: the queued edit is applied, its table generation and counter follow (R78). Edits to
one entry apply in issue order (R81). -/
def deferredEditApply (f : FieldId) (id : Nat) (s : State) : State :=
  let l := Table.get [] s.deferred f.val
  match l.find? (fun e => e.id = id) with
  | none => s
  | some e =>
    let q := selOf e.sel
    if s.walked (s.editFrame e.opc q) || s.deferredEdits.any (fun d => d.id < e.id && d.touches e.opc q) then s
    else
      let s := { s with deferred := Table.set s.deferred f.val (l.filter (fun d => d.id != id)) }
      (s.applyEdit e.opc e.sel e.handle e.param).finish e.furrow e.op (Done.ofCode 0x94)

/-- A page-handle operand: a handle that names a frame of this node must name one in range, whatever its valid flag (R517). -/
def ckPageHandle (s : State) (h : Word) : List (Nat × Word) :=
  chk (handleNode h != s.node || frameNameable (handleFrame h)) 0x05 h

/-- PT.APPEND's status: root, layer, handle, then a full list (R72, R230). -/
def State.appendStatus (s : State) (slice : Nat) (q : Sel) (h : Word) : Nat :=
  let r := s.rootStatus slice q 0x81
  let e := s.layer q.root q.layer
  if r != 0 then r
  else if s.layerStatus q != 0 then 0x91
  else if s.pageHandleStatus slice h e.fmt != 0 then 0x81
  else if e.cap ≤ e.pages then 0x92
  else 0

/-- PT.APPEND's effect: the handle at index pages, provisional where its first position is not committed (R85). -/
def State.applyAppend (s : State) (q : Sel) (h : Word) : State :=
  let e := s.layer q.root q.layer
  let t := s.layerTokens q.root e
  let h := match s.rootOwner q.root with
    | none => h
    | some i => if (s.entry i).len ≤ e.pages * t then setFld h 3 3 1 else h
  let h := setFld h 0 0 1
  ((s.setGword (e.addr e.pages) h).setLayer q.root q.layer { e with pages := e.pages + 1 }).backRef
    q.root q.layer e.pages h

/-- PT.APPEND (R72, R77). -/
def opPtAppend : SlotOp :=
  { enc := { opc := 0xE3, x := .g, y := .h, z := .g, dx := true, ctr := true }
    cls := some .sys
    checks := fun c s => ckPageHandle s (c.r.hr c.o.y.val) ++ ckSelector c.z
    run := fun c s =>
      let h := c.r.hr c.o.y.val
      match s.appendStatus c.slice (selOf c.z) h with
      | 0 => c.status 0 0 (s.applyAppend (selOf c.z) h)
      | code => c.status code 0 s }

/-- The status of PT.SET before deferral. -/
def State.setStatus (s : State) (slice : Nat) (q : Sel) (h : Word) : Nat :=
  let r := s.rootStatus slice q 0x81
  let e := s.layer q.root q.layer
  if r != 0 then r
  else if s.layerStatus q != 0 then 0x91
  else if s.pageHandleStatus slice h e.fmt != 0 then 0x81
  else if e.pages ≤ q.index then 0x93
  else 0

/-- PT.SET (R72, R78). -/
def opPtSet : SlotOp :=
  { enc := { opc := 0xE4, x := .g, y := .h, z := .g, dx := true, ctr := true }
    cls := some .sys
    checks := fun c s => ckPageHandle s (c.r.hr c.o.y.val) ++ ckSelector c.z
    run := fun c s =>
      let h := c.r.hr c.o.y.val
      match s.setStatus c.slice (selOf c.z) h with
      | 0 => c.edit { opc := 0xE4, ctr := true } c.z h 0 s
      | code => c.status code 0 s }

/-- The status of PT.FREE and PT.GET before deferral. -/
def State.entryStatus (s : State) (slice : Nat) (q : Sel) : Nat :=
  let r := s.rootStatus slice q 0x9B
  if r != 0 then r
  else if s.layerStatus q != 0 then 0x91
  else if (s.layer q.root q.layer).pages ≤ q.index then 0x93
  else 0

/-- PT.FREE (R72, R78). -/
def opPtFree : SlotOp :=
  { enc := { opc := 0xE5, x := .g, y := .g, dx := true, ctr := true }
    cls := some .sys
    checks := fun c _ => ckSelector c.y
    run := fun c s =>
      match s.entryStatus c.slice (selOf c.y) with
      | 0 => c.edit { opc := 0xE5, ctr := true } c.y 0 0 s
      | code => c.status code 0 s }

/-- PT.GET (R72, R81). -/
def opPtGet : SlotOp :=
  { enc := { opc := 0xE6, x := .g, y := .h, z := .g, dx := true, dy := true, ctr := true }
    cls := some .sys
    checks := fun c _ => ckSelector c.z
    run := fun c s =>
      let q := selOf c.z
      match s.entryStatus c.slice q with
      | 0 =>
        let h := s.gword ((s.layer q.root q.layer).addr q.index)
        c.status (if s.deferredEdits.any (fun e => e.touches 0xE4 q) then 0x95 else 0) 0 (s.setH c.f c.o.y.val h)
      | 0x93 => c.status 0x93 0 (s.setH c.f c.o.y.val 0)
      | code => c.status code 0 s }

/-- Two slot ranges share a slot. -/
def overlaps (a n b m : Nat) : Bool := a < b + m && b < a + n

/-- R71's refusals. Those of a replacement that keeps its pages concern an image that leaves the layer enabled. -/
def State.badLayout (s : State) (q : Sel) (h : Word) (new : LayerEnt) : Bool :=
  let old := s.layer q.root q.layer
  8192 < new.first + new.cap || 4096 < new.cap || (handleFrame h == q.root && new.first < 520) ||
    (match s.geometry (s.rootModel q.root) with | none => true | some g => g.tokens new.fmt == 0) ||
    (match s.localFrame h with | none => true | some n => !s.current h || (s.frame n).kind != 2) ||
    (List.range (s.rootLayers q.root)).any (fun l =>
      let e := s.layer q.root l
      l != q.layer && e.enabled && handleFrame e.list == handleFrame h && overlaps e.first e.cap new.first new.cap) ||
    (old.enabled && new.enabled && (new.cap < old.pages || (new.fmt != old.fmt && 0 < old.pages)))

/-- PT.LAYER's status before deferral (R71, R72, R230), whatever its enabled bit. -/
def State.setLayerStatus (s : State) (slice : Nat) (q : Sel) (h params : Word) : Nat :=
  let r := s.rootStatus slice q 0x81
  let new := layerEntOf h params
  if r != 0 then r
  else if handleFmt h != 0 || handleFlag h 7 || s.foreignHandle slice h then 0x81
  else if s.rootLayers q.root ≤ q.layer then 0x91
  else if s.badLayout q h new then 0x91
  else 0

/-- PT.LAYER (R71, R79). -/
def opPtLayer : SlotOp :=
  { enc := { opc := 0xE2, x := .g, y := .g, z := .h, w := .g, dx := true, ctr := true }
    cls := some .sys
    checks := fun c s =>
      ckSelector c.y ++ ckPageHandle s (c.r.hr c.o.z.val) ++ ckBits c.w (2 ^ 34 - 1 + 2 ^ 47)
    run := fun c s =>
      let h := c.r.hr c.o.z.val
      match s.setLayerStatus c.slice (selOf c.y) h c.w with
      | 0 => c.edit { opc := 0xE2, ctr := true } c.y h c.w s
      | code => c.status code 0 s }

/-- The entry of a slice's partition that holds a request ID (R515). -/
def State.ownRequest (s : State) (slice : Nat) (req : Word) : Option Nat :=
  match s.findRequest req with
  | none => none
  | some i => if s.inPartition slice i then some i else none

/-- PT.INIT's status (R79, R514, R515, R517). -/
def State.initStatus (s : State) (slice : Nat) (h req : Word) (model : Nat) : Nat :=
  let n := handleFrame h
  let d := s.frame n
  if handleNode h != s.node then 0x81
  else if !s.frameOf slice n then 0x9B
  else if !s.current h then 0x83
  else if d.kind != 2 then 0x81
  else if d.walks != 0 then 0x87
  else if (s.geometry model).isNone then 0x90
  else
    match s.ownRequest slice req with
    | none => 0
    | some i => if (s.entry i).root != 0 || (s.entry i).inStep then 0x87 else 0

/-- PT.INIT (R515, Table 3-8). -/
def opPtInit : SlotOp :=
  { enc := { opc := 0xE1, x := .g, y := .h, z := .g, w := .g, dx := true, ctr := true }
    cls := some .sys
    checks := fun c s => ckHandle s c.slice (c.r.hr c.o.y.val) false
    run := fun c s =>
      let h := c.r.hr c.o.y.val
      let model := c.w.toNat
      match s.initStatus c.slice h c.z model, s.geometry model with
      | 0, some g =>
        let self := mkHandle s.node (handleFrame h) (handleGen h) 0 1
        let s' := s.formatRoot (handleFrame h) c.z model g.layers self
        let s' := match s.ownRequest c.slice c.z with
          | none => s'
          | some i => s'.setEntry i { s'.entry i with root := self }
        c.status 0 0 s'
      | code, _ => c.status code 0 s }

/-- PT.TAIL (R83). -/
def opPtTail : SlotOp :=
  { enc := { opc := 0xE7, x := .g, y := .g, dx := true, mods := 0x7F, ctr := true }
    cls := some .sys
    checks := fun c s => ckSheaf s c.slice c.y
    run := fun c s =>
      let i := fld c.y 14 0
      let t := c.mod % 128
      if !(s.entry i).inStep || t = 0 || 64 < t then c.status 0x86 0 s
      else c.status 0 0 (s.setEntry i { s.entry i with tail := t }) }

/-- PT.VCOMMIT (R86). -/
def opPtVcommit : SlotOp :=
  { enc := { opc := 0xE8, x := .g, y := .g, dx := true, mods := 0x7F, ctr := true }
    cls := some .sys
    checks := fun c s => ckSheaf s c.slice c.y
    run := fun c s =>
      let i := fld c.y 14 0
      let a := c.mod % 128
      if !(s.entry i).inStep || (s.entry i).tail < a then c.status 0x86 0 s
      else c.status 0 0 (s.setEntry i { s.entry i with vcommit := some a }) }

/-- R67: a field outside its range. -/
def badGeometry (img : List Byte) : Bool :=
  let w := leAt img 0 4
  let layers := bits w 8 0
  let qh := bits w 15 9
  let h := bits w 20 16
  let d := bits w 30 21
  let fmts : List (Nat × Nat) := [(0x01, 0), (0x02, 1), (0x03, 2), (0x04, 3), (0x05, 4), (0x20, 5), (0x21, 6)]
  layers < 1 || 256 < layers || qh < 1 || 64 < qh || h < 1 || 16 < h || d < 32 || 512 < d || d % 32 != 0 || qh % h != 0 ||
    leAt img 0x16 2 != 0 ||
    fmts.any (fun p =>
      let t := leAt img (8 + 2 * p.2) 2
      4096 < t || 65536 < t * tokenBytes p.1 h d)

/-- PT.GEOSET's status (R67, R514). A model ID above 1,048,575 names no record (log entry 12). -/
def State.geosetStatus (s : State) (model : Nat) (img : List Byte) : Nat :=
  if s.geoBase = 0 || 2 ^ 20 ≤ model then 0x90
  else if (leAt img 0 4).testBit 31 && badGeometry img then 0x90
  else if s.mem.readNat (s.geoAddr model + 4) 4 != 0 then 0x87
  else 0

/-- PT.GEOSET (R67): the device keeps the references field, which is 0 here. -/
def opPtGeoset : SlotOp :=
  { enc := { opc := 0xE9, x := .g, y := .g, z := .g, dx := true, ctr := true }
    cls := some .sys
    checks := fun c _ => ckHull c.z 32 64
    reads := fun c _ => [(fld c.z 31 0, 32)]
    run := fun c s =>
      let img := (s.hull c.f).readBytes (fld c.z 31 0) 32
      let m := c.y.toNat
      match s.geosetStatus m img with
      | 0 => c.status 0 0 (s.gwrite (s.geoAddr m) (patchBytes img 4 (toBytes 4 0)) false)
      | code => c.status code 0 s }

/-! ### Walks (R73 to R76, R80) -/

/-- A walk, waiting or latched. -/
def State.walk? (s : State) (id : Nat) : Option Walk := s.walks.find? (fun w => w.id = id)

/-- Change a walk. -/
def State.modWalk (s : State) (id : Nat) (g : Walk → Walk) : State :=
  { s with walks := s.walks.map (fun (v : Walk) => if v.id = id then g v else v) }

/-- Walk slots in use on a Furrow (R75). -/
def State.walkSlots (s : State) (f : Nat) : Nat := (s.walks.filter (fun w => w.latched && w.furrow = f)).length

/-- The committed length, tail or COVERED a walk latches (Table 3-9). -/
def State.lengthOf (s : State) : LenSource → Nat
  | .entry i tail => let e := s.entry i; if tail then e.len + e.tail else e.len
  | .hold slice i => (s.holdAt slice i).covered

/-- Walks of arriving requests, which wait in a Field's walk queue (R75). -/
def WalkKind.arrives (k : WalkKind) : Bool := k == .qship || k == .pull

/-- Walks whose range names pages: pulls and pushes. -/
def WalkKind.whole (k : WalkKind) : Bool := k == .pull || k == .push

/-- The page indices of a walk's range: [first page, one past the last). A parity pull names stripes (R336). -/
def State.walkPages (s : State) (w : Walk) (e : LayerEnt) (len : Nat) : Nat × Nat :=
  let t := s.layerTokens (handleFrame w.root) e
  let (a, b) :=
    if w.kind.whole then (w.first, w.cap)
    else if t = 0 then (0, 0) else (w.first / t, ceilDiv (min w.cap len) t)
  if !w.kind.whole && len ≤ w.first then (a, a) else (a, min b e.pages)

/-- R80: a deferred edit in the range, or a deferred PT.LAYER of the root. -/
def State.walkBlocked (s : State) (w : Walk) : Bool :=
  let root := handleFrame w.root
  let (a, b) := s.walkPages w (s.layer root w.layer) (s.lengthOf w.src)
  s.deferredEdits.any fun d =>
    let q := selOf d.sel
    q.root == root && (d.opc == 0xE2 || (q.layer == w.layer && a ≤ q.index && q.index < b))

/-- Change a frame's walk count (R74). -/
def State.walkCount (s : State) (n : Nat) (up : Bool) : State :=
  let d := s.frame n
  s.setFrame n { d with walks := if up then d.walks + 1 else d.walks - 1 }

/-- A walk that waits in its Field's walk queue behind which a later one of the same Furrow may not pass (R75). -/
def State.walkAhead (s : State) (w : Walk) : Bool :=
  w.kind.arrives &&
    s.walks.any (fun v => v.id < w.id && !v.latched && v.kind.arrives && v.furrow == w.furrow && !s.walkBlocked v)

/-- The push walk of a demotion. Its latch leaves AGE as it is: R236 asks after the push whether AGE is still at least MIN_AGE
(log entry 26). -/
def State.demotes (s : State) (w : Walk) : Bool :=
  w.kind = .push && (match Table.find s.pushes w.op with | none => false | some p => p.demote.isSome)

/-- The codebook records that the tags of a walk's pages name, each once (R203). -/
def State.pageBooks (s : State) (es : List (Nat × Word)) : List Nat :=
  (es.filterMap fun p =>
    match s.localFrame p.2 with
    | none => none
    | some n => (tagNames (s.tag n)).map (fun q => cbKey q.1 q.2)).eraseDups

/-- Walks whose pages a Husk port decodes. -/
def WalkKind.decodes (k : WalkKind) : Bool := k == .attn || k == .qship

/-- The latch itself: root, generation, layer entry and length are taken, every local frame of the range and the root
frame gain one walk each, however many entries name them, and their AGE clears; a walk that decodes its pages holds the
codebook records they name from here to its end (R73, R74, R79, R203, R233). -/
def State.latch (s : State) (w : Walk) : State :=
  let root := handleFrame w.root
  let e := s.layer root w.layer
  let len := s.lengthOf w.src
  let (a, b) := s.walkPages w e len
  let es := ((List.range (b - a)).map (· + a)).map (fun k => (k, s.gword (e.addr k)))
  let held := (root :: es.filterMap (fun p => s.localFrame p.2)).eraseDups
  let w' : Walk :=
    { w with latched := true, len := min w.cap len, gen := s.rootGen root, listFrame := e.list, layerWord := e.word,
             entries := es, held, keys := if w.kind.decodes then s.pageBooks es else [] }
  let w' := if w.kind.whole then { w' with len } else w'
  let s := s.modWalk w.id (fun _ => w')
  let s := s.holdBooks w'.keys true
  held.foldl (fun s n => if s.demotes w then s.walkCount n true else (s.walkCount n true).touch n) s

/-- A walk latches (R73, R75, R80): it latches once a slot of its Furrow is free, no deferred edit covers its range
and no earlier request of the walk queue waits for the same Furrow. -/
def State.tryLatch (s : State) (id : Nat) : State :=
  match s.walk? id with
  | none => s
  | some w =>
    if w.latched || 8 ≤ s.walkSlots w.furrow || s.walkBlocked w || s.walkAhead w then s else s.latch w

/-- A walk has finished reading a frame: its count falls (R74). The root stays held to the end (R79). -/
def State.releaseFrame (s : State) (id frame : Nat) : State :=
  match s.walk? id with
  | none => s
  | some w =>
    if w.held.contains frame && frame != handleFrame w.root then
      let s := s.modWalk id (fun v => { v with held := v.held.erase frame })
      s.walkCount frame false
    else s

/-- The latched handle of page k, 0 where the latched list does not reach it. -/
def Walk.page (w : Walk) (k : Nat) : Word := Table.get 0 w.entries k

/-- A walk needs page k no more: its frame is released once no page left in the range lies in it (R74). -/
def State.dropPage (s : State) (w : Walk) (k : Nat) : State :=
  let s := s.modWalk w.id (fun v => { v with entries := Table.erase v.entries k })
  match s.localFrame (w.page k), s.walk? w.id with
  | some n, some v => if v.entries.any (fun p => s.localFrame p.2 = some n) then s else s.releaseFrame w.id n
  | _, _ => s

/-- A walk ends: every count it still holds falls, the codebook records its decode held are released, and its slot is free
(R74, R203). -/
def State.walkEnd (s : State) (id : Nat) : State :=
  match s.walk? id with
  | none => s
  | some w =>
    let s := { s with walks := s.walks.filter (fun v => v.id != id) }.holdBooks w.keys false
    w.held.foldl (fun s n => s.walkCount n false) s

/-- The latched layer entry of a walk. -/
def Walk.layerEnt (w : Walk) : LayerEnt := layerEntOf w.listFrame w.layerWord

/-- Requests of a Field that wait in its walk queue (R75). -/
def State.walkQueueLength (s : State) (field : Nat) : Nat :=
  (s.walks.filter (fun w => !w.latched && w.kind.arrives && w.furrow / 16 == field)).length

/-- A new walk waits for its latch; an arriving request that finds no free slot and a full walk queue is not taken
(R75: RETRY). -/
def State.walkStart (s : State) (w : Walk) : Option State :=
  if w.kind.arrives && 8 ≤ (s.walks.filter (fun v => v.furrow == w.furrow)).length &&
      64 ≤ s.walkQueueLength (w.furrow / 16) then none
  else some { s with walks := s.walks ++ [w] }

/-! ### Holder tables (R335, R355) -/

/-- A holder's page table gains a page: its layer list is made on first use; none where no frame is to be had (R231). DESIGN
CHOICE: the table generation counts it as PT.SET does (Table 3-7 names PT.SET, PT.FREE and PT.LAYER; log entry 38). -/
def State.holderPut (s : State) (slice field root l k : Nat) (h : Word) : Option State :=
  let e := s.layer root l
  let made : Option (LayerEnt × State) :=
    if e.enabled then some (e, s)
    else
      (s.allocate slice field 2 0 false).map fun (n, s) =>
        (⟨mkHandle s.node n (s.frame n).gen 0 1, 0, 4096, handleFmt h, 0, true⟩, s)
  match made with
  | none => none
  | some (e, s) =>
    if e.cap ≤ k then none
    else
      let s := s.setGword (e.addr k) h
      some ((s.setLayer root l { e with pages := max e.pages (k + 1) }).bumpRootGen root)

/-- Free a table with its local pages, pinned ones among them: DROP of a hold record (R355), the release of a retained copy
(R348). -/
def State.freeTable (s : State) (root : Nat) : State :=
  let ls := (List.range (s.rootLayers root)).map (s.layer root) |>.filter (·.enabled)
  let pages := ls.flatMap fun e =>
    (List.range e.pages).filterMap fun k =>
      let h := s.gword (e.addr k)
      if !s.current h then none else s.localFrame h
  let lists := ls.filterMap (fun e => s.localFrame e.list)
  let all := (pages ++ lists ++ [root]).eraseDups.filter (fun n => (s.frame n).held)
  all.foldl (fun s n => s.freeFrame n) s

/-! ### Commands -/

/-- PT_APPEND (R72). -/
def execPtAppend (f : FurrowId) (o : Slot) (s : State) : Res := answer (runSlot opPtAppend f o s)

/-- PT_SET (R78). -/
def execPtSet (f : FurrowId) (o : Slot) (s : State) : Res := answer (runSlot opPtSet f o s)

/-- PT_FREE (R78). -/
def execPtFree (f : FurrowId) (o : Slot) (s : State) : Res := answer (runSlot opPtFree f o s)

/-- PT_GET (R81). -/
def execPtGet (f : FurrowId) (o : Slot) (s : State) : Res := answer (runSlot opPtGet f o s)

/-- PT_LAYER (R71). -/
def execPtLayer (f : FurrowId) (o : Slot) (s : State) : Res := answer (runSlot opPtLayer f o s)

/-- PT_INIT (R515). -/
def execPtInit (f : FurrowId) (o : Slot) (s : State) : Res := answer (runSlot opPtInit f o s)

/-- PT_TAIL (R83). -/
def execPtTail (f : FurrowId) (o : Slot) (s : State) : Res := answer (runSlot opPtTail f o s)

/-- PT_VCOMMIT (R86). -/
def execPtVcommit (f : FurrowId) (o : Slot) (s : State) : Res := answer (runSlot opPtVcommit f o s)

/-- PT_GEOSET (R67). -/
def execPtGeoset (f : FurrowId) (o : Slot) (s : State) : Res := answer (runSlot opPtGeoset f o s)

/-- DEFERRED_EDIT_APPLY (R78). -/
def execDeferredEditApply (f : FieldId) (id : Nat) (s : State) : Res := answer (deferredEditApply f id s)

end Sys2Proof.Machine
end

