-- ==== Sys2Proof/Machine/Fabric.lean ====
section
/-! DEFINITION. The memory-semantic fabric: addresses, headers, packets, sending, the receiver's checks, translation,
ordering, and how operations end (R273 to R303). -/

namespace Sys2Proof.Machine

/-! ### Addresses (R273, R275) -/

/-- NODE of a global address. -/
def gaNode (a : Word) : Nat := fld a 63 50
/-- SLICE of a global address. -/
def gaSlice (a : Word) : Nat := fld a 49 44
/-- OFFSET of a global address. -/
def gaOffset (a : Word) : Nat := fld a 43 0

/-- The port of an engine address of a slice, if the address is one (R275). -/
def State.enginePort (s : State) (slice : Nat) (a : Word) : Option Nat :=
  if gaNode a = s.node && gaSlice a = slice && fld a 43 40 = 15 then some (fld a 39 35) else none

/-- A phase engine is attached to a port. -/
def State.hasEngine (s : State) (p : Nat) : Bool := s.rdb ⟨.fabEng, 0, p, 0⟩ 0

/-- A slice may address the engine of a port (R275). -/
def State.mayUseEngine (s : State) (slice p : Nat) : Bool :=
  p < 24 && s.hasEngine p && s.rdb ⟨.fabEngSlc, 0, p, 0⟩ slice

/-! ### Headers and packets (R277, R311) -/

/-- Write-class operations (Table 11-2). -/
def writeClass (op : Nat) : Bool := [0x02, 0x03, 0x05, 0x08, 0x09, 0x0A, 0x0B, 0x0C, 0x0D].contains op

/-- A request header (Table 11-3). -/
def reqHeader (m : Req) : List Byte :=
  toBytes 8 (m.op % 256 + m.subop % 16 * 2 ^ 8 + m.cls % 8 * 2 ^ 12 + bitVal m.resync 15 + bitVal m.ord 16 +
      m.src % 2 ^ 14 * 2 ^ 18 + m.tag % 2 ^ 16 * 2 ^ 32 + m.plen % 2 ^ 16 * 2 ^ 48) ++
    toBytes 8 m.addr.toNat ++ toBytes 8 (m.job % 2 ^ 32 + m.seq % 2 ^ 24 * 2 ^ 32)

/-- A response header (Table 11-4). -/
def rspHeader (m : Rsp) : List Byte :=
  toBytes 8 (m.op % 256 + m.status % 256 * 2 ^ 8 + bitVal m.poison 16 + m.src % 2 ^ 14 * 2 ^ 18 + m.tag % 2 ^ 16 * 2 ^ 32 +
      m.plen % 2 ^ 16 * 2 ^ 48) ++
    toBytes 8 (m.arg0 % 2 ^ 24 + m.arg1 % 2 ^ 24 * 2 ^ 24 + m.cause % 256 * 2 ^ 48 + bitVal m.empty 56 +
      bitVal m.underrun 57) ++
    toBytes 8 (m.used % 2 ^ 32)

/-- The packets of a message: 3,672 payload bytes each but the last (R311). -/
def packetsOf (slice vc : Nat) (header payload : List Byte) : List Packet :=
  let parts := if payload.isEmpty then [[]] else chunks 3672 payload
  parts.zipIdx.map (fun (b, i) => ⟨vc, slice, header, b, 459 * i, i + 1 == parts.length⟩)

/-- Flits of a packet. -/
def Packet.nflit (k : Packet) : Nat := ceilDiv (24 + k.payload.length) 112

/-! ### Ports as a route (R295) -/

/-- A port beside its registers. -/
def State.port (s : State) (p : Nat) : Port := Table.get {} s.ports p
/-- Change a port. -/
def State.modPort (s : State) (p : Nat) (f : Port → Port) : State :=
  { s with ports := Table.set s.ports p (f (s.port p)) }
/-- The state of a port (Table 12-5). -/
def State.portState (s : State) (p : Nat) : Nat := s.rdf ⟨.prtStatus, p, 0, 0⟩ 2 0
/-- A port in service: ACTIVE and not quarantined. -/
def State.portUsable (s : State) (p : Nat) : Bool :=
  s.portState p = 5 && !s.rdb ⟨.prtPvStatus, p, 0, 0⟩ 0

/-- Free credit of a virtual channel (R315). -/
def Port.credit (x : Port) (v : Nat) : Nat :=
  512 - (Table.get 0 x.sent v + 4096 - Table.get 0 x.freedByPeer v) % 4096

/-- Ports that carry a slice's traffic to a node (R295, R388). -/
def State.routeTo (s : State) (dst slice : Nat) : List Nat :=
  (List.range 24).filter fun p =>
    s.rdb ⟨.fabRoute, 0, dst, 0⟩ p && s.rdb ⟨.slcPorts, slice, 0, 0⟩ p && s.portUsable p

/-- Queue a packet at a port. -/
def State.enqueue (s : State) (p : Nat) (k : Packet) : State := s.modPort p (fun x => { x with queue := x.queue ++ [k] })

/-- The next port of a set, in ascending order after the one used last for the destination, preferring one with
credit in the class (R295). -/
def State.nextPort (s : State) (ports : List Nat) (dst vc : Nat) : Option Nat :=
  let last := Table.get 24 s.spread dst
  let order := ports.filter (fun p => last < p) ++ ports.filter (fun p => p ≤ last)
  let order := if last = 24 then ports else order
  (order.find? (fun p => 0 < (s.port p).credit vc)).or order.head?

/-- Packets of a message leave round-robin over its ports, an engine message by its port alone, each where the slice may
send (R388); a message with no port left is lost (R295, R300). -/
def State.emit (s : State) (dst slice vc : Nat) (fixed : Option Nat) (header payload : List Byte) : State :=
  (packetsOf slice vc header payload).foldl (fun s k =>
    match fixed with
    | some p => if s.portUsable p && s.rdb ⟨.slcPorts, slice, 0, 0⟩ p then s.enqueue p k else s
    | none =>
      match s.nextPort (s.routeTo dst slice) dst vc with
      | none => s
      | some p => { s.enqueue p k with spread := Table.set s.spread dst p }) s

/-! ### Sending requests (R286, R291, R294, R297) -/

/-- A fabric operation in flight. -/
def State.fabOp? (s : State) (tag : Nat) : Option FabOp := s.fabOps.find? (fun o => o.tag = tag)

/-- Change an operation in flight. -/
def State.modFab (s : State) (tag : Nat) (f : FabOp → FabOp) : State :=
  { s with fabOps := s.fabOps.map (fun (o : FabOp) => if o.tag = tag then f o else o) }

/-- The stream of an operation: destination node, destination slice, class. Each port's phase engine, which has no node
ID of its own (R275), counts as a destination of its own (log entry 21). -/
def FabOp.stream (o : FabOp) : Nat × Nat × Nat :=
  ((match o.fixed with | some p => 16384 + p | none => o.dst), gaSlice o.req.addr, o.req.cls)

/-- The sender side of a stream. -/
def State.txStream (s : State) (k : Nat × Nat × Nat) : TxStream :=
  match s.tx.find? (fun p => p.1 == k) with
  | some p => p.2
  | none => {}

/-- Replace the sender side of a stream. -/
def State.setTx (s : State) (k : Nat × Nat × Nat) (x : TxStream) : State :=
  { s with tx := (k, x) :: s.tx.filter (fun p => p.1 != k) }

/-- The message as it stands leaves for its target: within the device, or over ports. -/
def State.dispatch (s : State) (o : FabOp) : State :=
  match o.fixed with
  | some p => s.emit o.dst o.slice o.req.cls (some p) (reqHeader o.req) o.req.payload
  | none =>
    if o.dst = s.node then { s with arrived := s.arrived ++ [{ o.req with port := none, stamp := s.time }] }
    else s.emit o.dst o.slice o.req.cls none (reqHeader o.req) o.req.payload

/-- Whether an operation in flight may leave now: a write while fewer than 256 of its stream are unacknowledged (R291),
an ordered load once no earlier write of its stream is (R294), each behind earlier ones that wait. -/
def State.mayLeave (s : State) (o : FabOp) : Bool :=
  let ahead := (s.fabOps.takeWhile (fun p => p.tag != o.tag)).filter (fun p => p.stream == o.stream && writeClass p.req.op)
  if writeClass o.req.op then ahead.length < 256 && ahead.all (fun p => !p.unsent)
  else !o.req.ord || ahead.isEmpty

/-- An operation leaves: a write takes its stream's next SEQ (R291). -/
def State.leave (s : State) (o : FabOp) : State :=
  if writeClass o.req.op then
    let t := s.txStream o.stream
    let o' := { o with unsent := false, req := { o.req with seq := t.next, resync := t.resync } }
    let s := s.setTx o.stream ⟨(t.next + 1) % 2 ^ 24, false⟩
    (s.modFab o.tag (fun _ => o')).dispatch o'
  else
    let o' := { o with unsent := false }
    (s.modFab o.tag (fun _ => o')).dispatch o'

/-- Operations that waited leave as they may, oldest first. -/
def State.pumpFabric (s : State) : State :=
  s.fabOps.foldl (fun s o =>
    match s.fabOp? o.tag with
    | some o => if o.unsent && s.mayLeave o then s.leave o else s
    | none => s) s

/-- A tag no operation in flight holds. -/
def State.freeTag (s : State) : Nat :=
  ((firstBelow 65536 (fun k => (s.fabOp? ((s.nextTag + k) % 65536)).isNone)).getD 0 + s.nextTag) % 65536

/-- FAB_TIMEOUT in ns. -/
def State.fabTimeout (s : State) : Nat := s.rdf ⟨.fabTimeout, 0, 0, 0⟩ 6 0 * 1000

/-- What a requester fills in beside the slice and the owner. -/
structure Ask where
  op : Nat
  subop : Nat := 0
  cls : Nat := 0
  ord : Bool := false
  addr : Word
  payload : List Byte := []
  len : Nat := 0
  poison : Bool := false
  part : Nat := 0
  group : Option Nat := none
  timed : Bool := true
  /-- the engine port a message to a phase engine must take -/
  fixed : Option Nat := none

/-- Whether a message can leave: an engine the slice may use, this device, or a port of the route set (R275, R295). -/
def State.reachable (s : State) (slice : Nat) (a : Ask) : Bool :=
  match a.fixed.or (s.enginePort slice a.addr) with
  | some p => (a.fixed.isSome || s.mayUseEngine slice p) && s.portUsable p && s.rdb ⟨.slcPorts, slice, 0, 0⟩ p
  | none => gaNode a.addr = s.node || !(s.routeTo (gaNode a.addr) slice).isEmpty

/-- Send a request for an owner; none when it completes at once with NO_ROUTE. -/
def State.request (s : State) (owner : FabOwner) (slice : Nat) (a : Ask) : Option State :=
  if !s.reachable slice a then none
  else
    let tag := s.freeTag
    let m : Req :=
      { op := a.op, subop := a.subop, cls := a.cls, ord := a.ord, src := s.node, tag, plen := a.payload.length / 8,
        addr := a.addr, job := s.rdf ⟨.slcJob, slice, 0, 0⟩ 31 0, payload := a.payload, len := a.len, poison := a.poison }
    let o : FabOp :=
      { tag, owner, dst := gaNode a.addr, slice, req := m, part := a.part, fixed := a.fixed.or (s.enginePort slice a.addr),
        deadline := if a.timed then some (s.time + s.fabTimeout) else none, group := a.group, unsent := true }
    let s := { s with fabOps := s.fabOps ++ [o], nextTag := (tag + 1) % 65536, closedTags := Table.erase s.closedTags tag }
    some (if s.mayLeave o then s.leave o else s)

/-- An operation in flight ends; those that waited behind it may leave. -/
def State.closeFab (s : State) (tag : Nat) (why : TagEnd) : State :=
  match s.fabOp? tag with
  | none => s
  | some o =>
    ({ s with fabOps := s.fabOps.filter (fun p => p.tag != tag),
              closedTags := Table.set s.closedTags tag (o.dst, why) }).pumpFabric

/-! ### Answers and refusals (R278, R288, R289) -/

/-- Answer a request: within the device, on the engine's port, or over the route to the requester (R278, R296). -/
def State.respond (s : State) (m : Req) (r : Rsp) : State :=
  let r := { r with op := m.op % 128 + 128, src := s.node, tag := m.tag, plen := r.payload.length / 8,
                    cls := if r.status != 0 || r.poison then 7 else m.cls }
  match m.port with
  | none => { s with answers := s.answers ++ [{ r with port := none, stamp := s.time }] }
  | some p =>
    if s.hasEngine p.val then s.emit m.src (gaSlice m.addr) r.cls (some p.val) (rspHeader r) r.payload
    else s.emit m.src (gaSlice m.addr) r.cls none (rspHeader r) r.payload

/-- A fault record of the fabric, at most one per millisecond for each remote node and code (R289). -/
def State.fabFault (s : State) (code : Nat) (addr : Word) (node slice op : Nat) : State :=
  let k := (node, code)
  let due := match s.refusalTimes.find? (fun p => p.1 == k) with
    | none => true
    | some p => p.2 + 1000000 ≤ s.time
  if due then
    { s.faultRecord code addr.toNat node slice op with
      refusalTimes := (k, s.time) :: s.refusalTimes.filter (fun p => p.1 != k) }
  else s

/-- Refuse a request with a code (R289). -/
def State.refuse (s : State) (m : Req) (code : Nat) : State :=
  ((s.bump ⟨.fabRefuseInCnt, 0, 0, 0⟩).fabFault code m.addr m.src (gaSlice m.addr) m.op).respond m { op := 0, status := code }

/-- Acknowledge a write-class request. -/
def State.ack (s : State) (m : Req) (payload : List Byte) : State :=
  s.respond m { op := 0, arg0 := m.seq, payload }

/-- An operation in flight belongs to a run-ahead action (R110). -/
def State.ownerRa (s : State) : FabOwner → Bool
  | .op f id => (s.op? f id).any (fun a => a.ra)
  | .stream f op => (s.furrow f).streams.any (fun x => x.op = op && x.ra)
  | _ => false

/-- The sender's side of a refusal (R289); a run-ahead action raises no fault record (R111). -/
def State.refusedOut (s : State) (o : FabOp) (code : Nat) : State :=
  let s := s.bump ⟨.fabRefuseOutCnt, 0, 0, 0⟩
  if s.ownerRa o.owner then s else s.fabFault code o.req.addr o.dst o.slice o.req.op

/-! ### Partner violations (R302, R303) -/

/-- A port's record of a transition: state, reason, time and CHANGE (R319). PHY_TRAIN takes the FEC mode of PRT_CTL into effect
(R308). -/
def State.portGo (s : State) (p st reason : Nat) : State :=
  let r : Csr := ⟨.prtStatus, p, 0, 0⟩
  let s := if s.portState p = 5 then s.modPort p (fun x => { x with warmed := false }) else s
  let s := if st = 2 then s.modPort p (fun x => { x with lowFec := s.rdb ⟨.prtCtl, p, 0, 0⟩ 1, rxBits := [] }) else s
  let s := ((s.wrf r 2 0 st).wrf r 10 3 reason).wrf r 13 13 1
  let s := s.wr ⟨.prtStatusTime, p, 0, 0⟩ (BitVec.ofNat 64 s.time)
  if st = 6 || st = 7 then s.record 0x0A 2 (0x200 + p) (toBytes 8 st ++ toBytes 8 reason) else s

/-- A quarantine takes effect (R303). -/
def State.quarantineNow (s : State) (p : Nat) : State :=
  let r : Csr := ⟨.prtPvStatus, p, 0, 0⟩
  let s := ((s.modPort p (fun x => { x with quarantineDue := false })).wrf r 0 0 1).wrf r 1 1 1
  if s.portState p = 5 then s.portGo p 6 0x0A else s

/-- NAKs, which travel in class 7, wait at a port (R278). -/
def Port.naks (x : Port) : Bool := x.queue.any (fun k => k.vc = 7)

/-- Quarantine a port: at once, or once the NAKs that wait on it have left (R303). -/
def State.quarantine (s : State) (p : Nat) : State :=
  if s.portUsable p && (s.port p).naks then s.modPort p (fun x => { x with quarantineDue := true }) else s.quarantineNow p

/-- A violation of condition c on an arrival port; `immediate` quarantines at once, `threshold` counts towards it. -/
def State.violation (s : State) (port : Option PortId) (c : Nat) (threshold immediate : Bool) : State :=
  match port with
  | none => s
  | some p =>
    let p := p.val
    let s := s.bump ⟨.prtPvCnt, p, c, 0⟩
    if immediate then s.quarantine p
    else if threshold then
      let w := s.rdf ⟨.prtPvCtl, p, 0, 0⟩ 15 8 * 1000000
      let l := ((s.port p).violations.filter (fun t => s.time < t + w)) ++ [s.time]
      let s := s.modPort p (fun x => { x with violations := l })
      if s.rdf ⟨.prtPvCtl, p, 0, 0⟩ 7 0 ≤ l.length then s.quarantine p else s
    else s

/-- A NAK: the answer leaves before a quarantine takes effect (R302, R303). -/
def State.nak (s : State) (m : Req) (c code : Nat) : State :=
  (s.respond m { op := 0, status := code }).violation m.port c true false

/-- Powers of two from 4 to 64. -/
def fpAtomSize (n : Nat) : Bool := [4, 8, 16, 32, 64].contains n

/-- Bytes of a load or store (R279). -/
def accessSize (n : Nat) : Bool := [8, 16, 32, 64, 128, 256].contains n

/-- Bytes up to a multiple of 8. -/
def pad8 (n : Nat) : Nat := ceilDiv n 8 * 8

/-- Payload bytes a HANDOVER message of a kind must have (R338). -/
def handoverBytes (m : Req) : Nat :=
  match leAt m.payload 12 1 with
  | 1 => 24 + 256
  | 16 => 24 + 16
  | _ => 24

/-- Condition 2: size or alignment illegal for the OP, or PLEN false. ROW and WS_WR payloads are multiples of 8. -/
def badLength (m : Req) : Bool :=
  let n := m.payload.length
  let al (k : Nat) : Bool := m.addr.toNat % k == 0
  let ok : Bool :=
    match m.op with
    | 0x01 => n == 0 && accessSize m.len && al m.len
    | 0x02 => accessSize n && al n
    | 0x03 =>
      (if m.subop ≤ 6 then m.len == 4 || m.len == 8 else fpAtomSize m.len) && al m.len &&
        n == pad8 (if m.subop = 6 then 2 * m.len else m.len)
    | 0x04 => n == 0 && m.len % 64 == 0 && 64 ≤ m.len && m.len ≤ 4096 && al 64
    | 0x05 => n % 64 == 0 && 64 ≤ n && n ≤ 4096 && al 64
    | 0x06 => n == 16
    | 0x07 => 40 ≤ n
    | 0x08 => n == 8
    | 0x0A => n == 65544
    | 0x0B => n == 8
    | 0x0C => n == handoverBytes m
    | _ => true
  n != 8 * m.plen || 8193 < m.plen || !ok

/-- Condition 0: reserved OP or reserved SUBOP of ATOM. -/
def reservedOp (m : Req) : Bool := m.op = 0 || 0x0D < m.op || (m.op = 0x03 && 9 ≤ m.subop)

/-- Condition 1: reserved header bits, a reserved HANDOVER KIND (R338). -/
def reservedHeader (m : Req) : Bool :=
  m.reserved || (m.op = 0x0C && (let k := leAt m.payload 12 1; k = 0 || 18 < k))

/-- The receiver side of a stream. -/
def State.rxStream (s : State) (k : Nat × Nat × Nat) : RxStream :=
  match s.rx.find? (fun p => p.1 == k) with
  | some p => p.2
  | none => {}

/-- Replace the receiver side of a stream. -/
def State.setRx (s : State) (k : Nat × Nat × Nat) (x : RxStream) : State :=
  { s with rx := (k, x) :: s.rx.filter (fun p => p.1 != k) }

/-- The stream of an arriving request: source node, slice, class; each port's engine is a source of its own. -/
def State.reqStream (s : State) (m : Req) : Nat × Nat × Nat :=
  let src := match m.port with
    | none => m.src
    | some p => if s.hasEngine p.val then 16384 + p.val else m.src
  (src, gaSlice m.addr, m.cls)

/-- How far a SEQ lies ahead of the next expected. -/
def seqAhead (m : Req) (x : RxStream) : Nat := (m.seq + 2 ^ 24 - x.next) % 2 ^ 24

/-- Condition 4 (R302). -/
def State.misrouted (s : State) (m : Req) : Bool :=
  gaNode m.addr != s.node ||
    (match m.port with
     | none => false
     | some p => if s.hasEngine p.val then m.src != s.node else m.src == s.node)

/-- The first partner violation of a request, with the code of its NAK. -/
def State.violationOf (s : State) (m : Req) : Option (Nat × Nat) :=
  if reservedOp m then some (0, 0x56)
  else if reservedHeader m then some (1, 0x57)
  else if badLength m then some (2, 0x58)
  else if m.job = 0 then some (3, 0x52)
  else if s.misrouted m then some (4, 0x5B)
  else if writeClass m.op && !m.resync && 256 ≤ seqAhead m (s.rxStream (s.reqStream m)) then some (5, 0x59)
  else none

/-! ### Token buckets (R331 to R333) -/

/-- The intervals of 0.64 ns between two times. -/
def bucketSteps (t u : Nat) : Nat := 25 * u / 16 - 25 * t / 16

/-- A bucket brought up to date under its configuration word. -/
def Bucket.fill (b : Bucket) (cfg : Word) (now : Nat) : Bucket :=
  if cfg.getLsbD 48 then
    ⟨min (b.level + ((bucketSteps b.at' now * fld cfg 16 0 : Nat) : Int)) ((fld cfg 39 17 * 1000 : Nat) : Int), now⟩
  else { b with at' := now }

/-- A bucket charged for packets: NFLIT × 128 bytes, and OVERHEAD bytes for each packet (R331). -/
def Bucket.charge (b : Bucket) (cfg : Word) (nflit packets : Nat) : Bucket :=
  { b with level := b.level - (((nflit * 128 + packets * fld cfg 47 40) * 1000 : Nat) : Int) }

/-- Packets of a whole message (R311). -/
def messagePackets (payload : Nat) : Nat := max 1 (ceilDiv payload 3672)

/-- Flits of a whole message. -/
def messageFlits (payload : Nat) : Nat :=
  let full := payload / 3672
  let rest := payload % 3672
  full * 33 + (if rest = 0 && full != 0 then 0 else ceilDiv (24 + rest) 112)

/-- Flits a port's receive buffer holds of a class. -/
def Port.held (x : Port) (v : Nat) : Nat := (Table.get 0 x.received v + 4096 - Table.get 0 x.freed v % 4096) % 4096

/-- The ingress policer of a request's slice at its port: whether the request passes (R333). -/
def State.police (s : State) (m : Req) : Bool × State :=
  match m.port with
  | none => (true, s)
  | some p =>
    let sl := gaSlice m.addr
    let cfg := s.rd ⟨.prtPol, p.val, sl, 0⟩
    if m.cls = 7 || !cfg.getLsbD 48 then (true, s)
    else
      let b := (Table.get {} (s.port p.val).policers sl).fill cfg s.time
      let out := b.level < 0
      let drop := out && (cfg.getLsbD 50 || 384 < (s.port p.val).held m.cls)
      let b := if drop then b else b.charge cfg (messageFlits m.payload.length) (messagePackets m.payload.length)
      let s := s.modPort p.val (fun x => { x with policers := Table.set x.policers sl b })
      let c : Csr := ⟨.prtPolCnt, p.val, sl, 0⟩
      if drop then (false, s.count c 63 32 1) else (true, if out then s.count c 31 0 1 else s)

/-! ### Translation and protection (R287 to R290) -/

/-- The permission bit of word 0 that an operation needs (Table 11-9). -/
def permBit (op : Nat) : Option Nat :=
  match op with
  | 0x01 => some 52
  | 0x04 => some 52
  | 0x02 => some 53
  | 0x05 => some 53
  | 0x09 => some 53
  | 0x03 => some 54
  | 0x06 => some 55
  | 0x07 => some 56
  | 0x0B => some 56
  | 0x08 => some 57
  | 0x0A => some 58
  | 0x0C => some 58
  | _ => none

/-- Bytes of the window an operation touches, for the range check. -/
def accessBytes (m : Req) : Nat :=
  match m.op with
  | 0x01 => m.len
  | 0x03 => m.len
  | 0x04 => m.len
  | 0x02 => m.payload.length
  | 0x05 => m.payload.length
  | _ => 1

/-- The valid entry of a slice's table that holds an offset. -/
def State.sttFind (s : State) (slice off : Nat) : Option (Word × Word × Word × Word) :=
  (s.stt.find? fun p =>
    let w := p.2.1
    p.1 / 1024 == slice && w.getLsbD 51 && fld w 27 0 * 65536 ≤ off && off < (fld w 27 0 + fld w 50 28) * 65536).map (·.2)

/-- The target an entry gives an offset (Table 11-9); mode 1 reads the handle list now (R290, Table 11-11), the second handle
for an access that runs into the next unit. -/
def State.sttTarget (s : State) (e : Word × Word × Word × Word) (off : Nat) : Target :=
  let rel := off - fld e.1 27 0 * 65536
  let list := e.2.1.toNat + 8 * (rel / 65536)
  match fld e.2.2.2 31 30 with
  | 0 => .granary (e.2.1.toNat + rel)
  | 1 => .viaHandle (s.gword list) (s.gword (list + 8)) (rel % 65536)
  | _ => .hull (fld e.2.1 5 0) (fld e.2.1 53 32 + rel)

/-- Checks 1 to 4 of Table 11-10. -/
def State.translate (s : State) (m : Req) : Except Nat Target :=
  let slice := gaSlice m.addr
  let off := gaOffset m.addr
  if !s.sliceEnabled slice then .error 0x50
  else
    match s.sttFind slice off with
    | none => .error 0x51
    | some e =>
      if (fld e.1 27 0 + fld e.1 50 28) * 65536 < off + accessBytes m then .error 0x51
      else if (m.job ^^^ fld e.2.2.1 31 0) &&& fld e.2.2.1 63 32 != 0 || m.src < fld e.2.2.2 13 0 || fld e.2.2.2 29 16 < m.src
      then .error 0x52
      else
        match permBit m.op with
        | none => .error 0x53
        | some b => if e.1.getLsbD b then .ok (s.sttTarget e off) else .error 0x53

/-- Check 5 for one frame. -/
def State.targetFrameOk (s : State) (slice n : Nat) (write : Bool) : Bool :=
  let d := s.frame n
  s.frameOf slice n && d.pool != 3 &&
    (!write || !(d.kind = 2 || (d.kind = 1 && !d.weight) || s.guarded n))

/-- The places n bytes of a target lie at: an address space (none is Granary, some f the Hull of Furrow f), an address
and a length, split at 64 KiB of the window; none when check 5 of Table 11-10 fails, or the Hull's domain is off (R21, log
entry 21). -/
def State.places (s : State) (slice : Nat) (t : Target) (n : Nat) (write : Bool) :
    Option (List (Option Nat × Nat × Nat)) :=
  match t with
  | .granary a =>
    let fs := (List.range ((a + n - 1) / 65536 - a / 65536 + 1)).map (· + a / 65536)
    if fs.all (fun f => s.targetFrameOk slice f write) then some [(none, a, n)] else none
  | .viaHandle h next off =>
    let seg (h : Word) (off n : Nat) : Option (Option Nat × Nat × Nat) :=
      match s.localFrame h with
      | none => none
      | some f => if s.current h && s.targetFrameOk slice f write then some (none, f * 65536 + off, n) else none
    if off + n ≤ 65536 then (seg h off n).map (fun p => [p])
    else
      match seg h off (65536 - off), seg next 0 (off + n - 65536) with
      | some p, some q => some [p, q]
      | _, _ => none
  | .hull f off => if s.bound f = some slice && s.domainOn f then some [(some f, off, n)] else none

/-- Read places without Glean: bytes and whether any line is poisoned. -/
def State.readPlaces (s : State) (l : List (Option Nat × Nat × Nat)) : List Byte × Bool :=
  l.foldl (fun acc p =>
    match p with
    | (none, a, n) => (acc.1 ++ s.mem.readBytes a n, acc.2 || s.mem.anyPoison a n)
    | (some f, a, n) => (acc.1 ++ (s.hull f).readBytes a n, acc.2 || (s.hull f).anyPoison a n)) ([], false)

/-- Write bytes to places; AGE of the frames clears (R233). -/
def State.writePlaces (s : State) (l : List (Option Nat × Nat × Nat)) (bs : List Byte) (poison : Bool) : State :=
  (l.foldl (fun (acc : State × List Byte) p =>
    match p with
    | (none, a, n) => ((acc.1.gwrite a (acc.2.take n) poison).touchRange a n, acc.2.drop n)
    | (some f, a, n) => (acc.1.modHull f (fun m => m.store a (acc.2.take n) poison), acc.2.drop n)) (s, bs)).1

/-- A write by a program of this node through the fabric updates the lines of its own Furrow's Glean (R244). -/
def State.ownGlean (s : State) (m : Req) (l : List (Option Nat × Nat × Nat)) : State :=
  if m.port.isSome then s
  else
    match (s.fabOp? m.tag).map FabOp.owner with
    | some (FabOwner.op f _) => l.foldl (fun s p => if p.1.isNone then s.gleanUpdate f p.2.1 p.2.2 else s) s
    | _ => s

/-- The region an arriving load promotes into: the lowest with PROMOTE and EN (R245). -/
def State.promoteRegion (s : State) (f : Nat) : Option Nat :=
  firstBelow 16 (fun j => s.rdb ⟨.frwGlnReg, f, j, 0⟩ 10 && s.rdb ⟨.frwGlnReg, f, j, 0⟩ 11)

/-- An arriving load's read of Granary through the home Furrow's Glean, line by line (R242, R245); a Furrow that is off holds
none (R21). -/
def State.loadGranary (s : State) (a n : Nat) : (List Byte × Bool) × State :=
  let first := a / 64
  (List.range ((a + n - 1) / 64 - first + 1)).foldl (fun (acc : (List Byte × Bool) × State) i =>
    let la := (first + i) * 64
    let f := homeFurrow (la / 65536)
    let hit := ((acc.2.furrow f).gleanLine la none).isSome
    let ((bs, p), s) := if acc.2.domainOn f then acc.2.gleanRead f la none
      else ((acc.2.mem.readBytes la 64, acc.2.mem.marked la), acc.2)
    let s := match hit || !s.domainOn f, s.promoteRegion f with
      | false, some j => s.gleanFill f la 1 j true none
      | _, _ => s
    let lo := if la < a then a - la else 0
    let hi := min 64 (a + n - la)
    ((acc.1.1 ++ (if p then fillBytes (hi - lo) 0xFF else (bs.drop lo).take (hi - lo)), acc.1.2 || p), s)) (([], false), s)

/-- What a request came to at the receiver's port and translation step. -/
inductive Verdict where
  | discarded
  | refused
  | served (t : Target)
deriving DecidableEq, Repr

/-- A request leaves the list of messages that wait inside the device. -/
def State.takeArrived (s : State) (m : Req) : State := { s with arrived := s.arrived.erase m }

/-- The checks every request passes: partner violations, policing, checks 1 to 4 (R302, R333, R288). -/
def State.screen (s : State) (m : Req) : Verdict × State :=
  let s := s.takeArrived m
  match s.violationOf m with
  | some (c, code) => (.discarded, s.nak m c code)
  | none =>
    match s.police m with
    | (false, s) => (.discarded, s.respond m { op := 0, status := 0x5E })
    | (true, s) =>
      match s.translate m with
      | .error code => (.refused, s.refuse m code)
      | .ok t => (.served t, s)

/-- A request of a run-ahead instruction of this device. The header of another node's request does not tell (log entry 21). -/
def State.ranAhead (s : State) (m : Req) : Bool :=
  m.port.isNone && m.src = s.node && s.fabOps.any (fun x => x.tag = m.tag &&
    (match x.owner with
     | .op f id => (match s.op? f id with | none => false | some o => o.ra)
     | _ => false))

/-- A load is served: data, or TARGET_PROT (R279). A run-ahead one clears no AGE (R111, R233). -/
def State.serveLoad (s : State) (m : Req) (t : Target) (glean : Bool) : State :=
  match s.places (gaSlice m.addr) t m.len false with
  | none => s.refuse m 0x54
  | some l =>
    match glean, l with
    | true, [(none, a, n)] =>
      let ((bs, p), s) := s.loadGranary a n
      (if s.ranAhead m then s else s.touchRange a n).respond m { op := 0, poison := p, payload := bs }
    | _, _ =>
      let (bs, p) := s.readPlaces l
      let s := l.foldl (fun s q => if q.1.isNone && !s.ranAhead m then s.touchRange q.2.1 q.2.2 else s) s
      s.respond m { op := 0, poison := p, payload := if p then fillBytes bs.length 0xFF else bs }

/-! ### Order of writes (R291 to R293) -/

/-- The Field whose reorder store holds an early arrival: that of its port; Field 0 inside the device. -/
def reqField (m : Req) : Nat :=
  match m.port with
  | none => 0
  | some p => p.val / 6

/-- Messages and payload bytes in a Field's reorder store (R291, R312). -/
def State.storeUse (s : State) (field : Nat) : Nat × Nat :=
  let held := (s.rx.flatMap (fun p => p.2.held)).filter (fun h => reqField h.1 == field)
  let parts := s.reasm.filter (fun r => r.field == field)
  (held.length + parts.length,
    (held.map (fun h => h.1.payload.length)).sum + (parts.map (fun r => (r.parts.map (fun p => p.2.length)).sum)).sum)

/-- The store takes one more message of a length. -/
def State.storeRoom (s : State) (field bytes : Nat) : Bool :=
  let (n, b) := s.storeUse field
  n < 2048 && b + bytes ≤ 1048576

/-- Apply requests in SEQ order; `apply` serves one request, given the PAGE_OPEN just before it. -/
def State.applyInOrder (s : State) (apply : Req → Target → Option Req → State → State) (k : Nat × Nat × Nat) (m : Req)
    (t : Option Target) : State :=
  let x := s.rxStream k
  let s := s.setRx k { x with next := (x.next + 1) % 2 ^ 24, opened := none }
  match t with
  | none => s
  | some t => apply m t x.opened s

/-- Held requests whose turn has come; `fuel` bounds their number. -/
def State.drain (apply : Req → Target → Option Req → State → State) (k : Nat × Nat × Nat) : (fuel : Nat) → State → State
  | 0, s => s
  | n + 1, s =>
    let x := s.rxStream k
    match x.held.find? (fun h => seqAhead h.1 x == 0) with
    | none => s
    | some h =>
      let s := s.setRx k { x with held := x.held.filter (fun g => g.1.seq != h.1.seq) }
      State.drain apply k n (s.applyInOrder apply k h.1 h.2)

/-- A stream's hole, if it has one, is timed anew, under the FAB_TIMEOUT of now (R27, R293). -/
def State.timeHole (s : State) (x : RxStream) : RxStream :=
  { x with holeSince := if x.held.isEmpty then none else some s.time, holeWait := s.fabTimeout }

/-- Once nothing is held, the ordered loads that waited are served, oldest first (R294). -/
def State.wakeLoads (s : State) (k : Nat × Nat × Nat) : State :=
  let x := s.rxStream k
  if x.held.isEmpty then x.loads.foldl (fun s p => s.serveLoad p.1 p.2 true) (s.setRx k { x with loads := [] }) else s

/-- A stream restarts at a SEQ (R293): what is held within the 255 values after it stays, as the early arrivals they are. -/
def RxStream.restart (x : RxStream) (seq : Nat) : RxStream :=
  { next := seq, loads := x.loads, holeSince := x.holeSince, holeWait := x.holeWait,
    held := x.held.filter (fun h =>
      let d := (h.1.seq + 2 ^ 24 - seq) % 2 ^ 24
      0 < d && d < 256) }

/-- A write-class request past its translation: applied in its turn, held when early, refused with RETRY when the
store is full (R291, R292). -/
def State.order (s : State) (apply : Req → Target → Option Req → State → State) (m : Req) (t : Option Target) : State :=
  let k := s.reqStream m
  let x := s.rxStream k
  let s :=
    if m.resync then
      let s := if x.lost then s else s.violation m.port 12 false false
      s.setRx k ((s.rxStream k).restart m.seq)
    else s
  let x := s.rxStream k
  if seqAhead m x = 0 then
    let s := (s.applyInOrder apply k m t)
    let s := State.drain apply k (s.rxStream k).held.length s
    (s.setRx k (s.timeHole (s.rxStream k))).wakeLoads k
  else if x.held.any (fun h => h.1.seq == m.seq) then s
  else if t.isSome && !s.storeRoom (reqField m) m.payload.length then s.respond m { op := 0, status := 0x5E }
  else
    let x := if x.holeSince.isNone then s.timeHole { x with held := x.held ++ [(m, t)] } else { x with held := x.held ++ [(m, t)] }
    s.setRx k x

/-- A hole of a stream has lasted FAB_TIMEOUT: every held request is refused with SEQ_LOST (R293). -/
def State.holeTimeout (s : State) (k : Nat × Nat × Nat) : State :=
  let x := s.rxStream k
  match x.holeSince with
  | none => s
  | some t =>
    if s.time < t + x.holeWait then s
    else
      let s := (s.setRx k { next := x.next, lost := true, loads := x.loads }).bump ⟨.fabSeqLostCnt, 0, 0, 0⟩
      (x.held.foldl (fun s h => if h.2.isSome then s.refuse h.1 0x5A else s) s).wakeLoads k

/-- SEQ_HOLE_TIMEOUT; the local node's streams are those of its engines too. -/
def seqHoleTimeout (src : NodeId) (slice : SliceId) (cls : Fin 8) (s : State) : State :=
  let srcs := if src.val = s.node then src.val :: (List.range 24).map (· + 16384) else [src.val]
  srcs.foldl (fun s n => s.holeTimeout (n, slice.val, cls.val)) s

/-! ### Loads, copy reads, stores and atomics at the target (R279 to R281) -/

/-- Whether a read-class request with ORD must wait for earlier writes of its source (R294). -/
def State.ordWaits (s : State) (m : Req) : Bool := m.ord && !(s.rxStream (s.reqStream m)).held.isEmpty

/-- LD_REQUEST: an arriving load, translated as it arrives; one that must wait is kept with its translation (R279, R290,
R294). -/
def ldRequest (m : Req) (s : State) : State :=
  let m := { m with op := 0x01 }
  match s.screen m with
  | (.served t, s) =>
    if s.ordWaits m then
      let k := s.reqStream m
      let x := s.rxStream k
      s.setRx k { x with loads := x.loads ++ [(m, t)] }
    else s.serveLoad m t true
  | (_, s) => s

/-- COPY_RD: an arriving copy segment to be read (R281). -/
def copyRd (m : Req) (s : State) : State :=
  let m := { m with op := 0x04 }
  match s.screen m with
  | (.served t, s) => s.serveLoad m t false
  | (_, s) => s

/-- A store or copy write in its turn (R279, R281). -/
def State.serveStore (s : State) (m : Req) (t : Target) : State :=
  match s.places (gaSlice m.addr) t m.payload.length true with
  | none => s.refuse m 0x54
  | some l => ((s.writePlaces l m.payload m.poison).ownGlean m l).ack m []

/-- An element-wise floating-point sum of two byte strings, canonical NaN included (R280). -/
def fpAdd (half : Bool) (x y : List Byte) : List Byte :=
  let w := if half then 2 else 4
  let f := if half then bf16 else fp32
  (chunks w x).zip (chunks w y) |>.flatMap fun p =>
    toBytes w (f.encode (FVal.add (f.decode (fromBytes p.1)) (f.decode (fromBytes p.2))))

/-- The new value of an atomic (Table 11-5) on n bytes. -/
def atomResult (subop n : Nat) (old payload : List Byte) : List Byte :=
  let x := fromBytes old
  let y := leAt payload 0 n
  let sx := signed (8 * n) x
  let sy := signed (8 * n) y
  match subop with
  | 0 => toBytes n (x + y)
  | 1 => toBytes n (if sx ≤ sy then x else y)
  | 2 => toBytes n (if sx ≤ sy then y else x)
  | 3 => toBytes n (min x y)
  | 4 => toBytes n (max x y)
  | 5 => toBytes n y
  | 6 => toBytes n (if x = y then leAt payload n n else x)
  | 7 => fpAdd false old (payload.take n)
  | _ => fpAdd true old (payload.take n)

/-- An atomic in its turn: the old value is the answer (R280). A poisoned line answers poison and keeps its mark. -/
def State.serveAtom (s : State) (m : Req) (t : Target) : State :=
  match s.places (gaSlice m.addr) t m.len true with
  | none => s.refuse m 0x54
  | some l =>
    let (old, p) := s.readPlaces l
    let s := (s.writePlaces l (atomResult m.subop m.len old m.payload) (p || m.poison)).ownGlean m l
    let bs := old ++ fillBytes (pad8 m.len - m.len) 0
    s.respond m { op := 0, poison := p, arg0 := m.seq, payload := if p then fillBytes bs.length 0xFF else bs }

/-! ### Commands -/

/-- SEQ_HOLE_TIMEOUT (R293). -/
def execSeqHoleTimeout (src : NodeId) (slice : SliceId) (cls : Fin 8) (s : State) : Res :=
  answer (seqHoleTimeout src slice cls s)

/-- LD_REQUEST (R279). -/
def execLdRequest (m : Req) (s : State) : Res := answer (ldRequest m s)

/-- COPY_RD (R281). -/
def execCopyRd (m : Req) (s : State) : Res := answer (copyRd m s)

end Sys2Proof.Machine
end

