-- ==== Sys2Proof/Machine/Link.lean ====
section
/-! DEFINITION. A port's link layer: flits and their CRC, control flits, acceptance in order, packets and their reassembly,
credits, replay and beacons (R309 to R318, R326; log entry 27). -/

namespace Sys2Proof.Machine

/-! ### Flits (R310, Table 12-3) -/

/-- Header bits [95:0] of a flit, as 12 bytes. -/
def Flit.head (f : Flit) : List Byte :=
  toBytes 12 (f.kind % 16 + f.vc % 8 * 2 ^ 4 + f.fseq % 4096 * 2 ^ 8 + f.ack % 4096 * 2 ^ 20 + bitVal f.ackv 32 +
    f.cvc % 8 * 2 ^ 33 + f.ccum % 4096 * 2 ^ 36 + bitVal f.cv 48 + f.nflit % 64 * 2 ^ 49 + bitVal f.last 55 +
    f.segoff % 2 ^ 14 * 2 ^ 56)

/-- The 128 bytes of a flit. -/
def Flit.bytes (f : Flit) : List Byte :=
  let body := f.body ++ fillBytes (112 - f.body.length) 0
  f.head ++ toBytes 4 (crc32 (f.head ++ body)) ++ body

/-- The fields of 128 bytes. -/
def flitOf (bs : List Byte) : Flit :=
  let w := leAt bs 0 12
  { kind := bits w 3 0, vc := bits w 6 4, fseq := bits w 19 8, ack := bits w 31 20, ackv := w.testBit 32, cvc := bits w 35 33,
    ccum := bits w 47 36, cv := w.testBit 48, nflit := bits w 54 49, last := w.testBit 55, segoff := bits w 69 56,
    body := bs.drop 16 }

/-- A flit whose CRC fits. -/
def crcOk (bs : List Byte) : Bool := bs.length = 128 && leAt bs 12 4 = crc32 (bs.take 12 ++ bs.drop 16)

/-- A reserved KIND or a reserved header bit. -/
def flitReserved (bs : List Byte) : Bool :=
  let w := leAt bs 0 12
  4 ≤ bits w 3 0 || w.testBit 7 || bits w 95 70 != 0

/-! ### Sending flits (R315, R316) -/

/-- Credits the next header reports: the first VC after the one reported last that has freed flits. -/
def Port.report (x : Port) : Option (Nat × Nat) :=
  ((List.range 8).map (fun k => (x.lastCvc + 1 + k) % 8)).findSome? (fun v =>
    let n := Table.get 0 x.freed v
    if n = 0 then none else some (v, n))

/-- A flit leaves with the acknowledgement and one VC's count of freed flits in its header. -/
def Port.stampFlit (x : Port) (f : Flit) : Flit × Port :=
  let f := { f with ack := (x.expect + 4095) % 4096, ackv := true }
  match x.report with
  | none => (f, x)
  | some (v, n) => ({ f with cvc := v, ccum := n % 4096, cv := true }, { x with lastCvc := v })

/-- Put flits on the transmit fibre; their headers acknowledge what was accepted. -/
def Port.put (x : Port) (fs : List Flit) : Port :=
  let (out, x) := fs.foldl (fun (p : List (List Byte) × Port) f =>
    let (g, x) := p.2.stampFlit f
    (p.1 ++ [g.bytes], x)) ([], x)
  { x with line := out, toAck := 0 }

/-- A CTRL flit. -/
def ctrlFlit (subtype : Nat) (body : List Byte) : Flit := { kind := 3, body := toBytes 1 subtype ++ body }

/-- A port sends a CTRL flit. -/
def State.sendCtrl (s : State) (p subtype : Nat) (body : List Byte) : State :=
  s.modPort p (fun x => x.put [ctrlFlit subtype body])

/-- ACK of the last flit accepted. -/
def State.sendAck (s : State) (p : Nat) : State := s.sendCtrl p 2 (toBytes 2 (((s.port p).expect + 4095) % 4096))

/-- NAK of the flit expected; it is sent again after 1 µs (R316). -/
def State.sendNak (s : State) (p : Nat) : State :=
  (s.sendCtrl p 3 (toBytes 2 (s.port p).expect)).modPort p (fun x => { x with nakSince := some (s.time + 1000) })

/-- CREDIT: the cumulative counts of all eight VCs (R315). -/
def State.sendCredit (s : State) (p : Nat) : State :=
  s.sendCtrl p 4 (toBytes 12 ((List.range 8).map (fun v => Table.get 0 (s.port p).freed v % 4096 * 2 ^ (12 * v))).sum)

/-- PRT_CREDIT follows the counts of a VC. -/
def State.showCredit (s : State) (p v : Nat) : State := s.wr ⟨.prtCredit, p, v, 0⟩ (BitVec.ofNat 64 ((s.port p).credit v))

/-! ### Retraining (R318, R319) -/

/-- A retrain cause: an ACTIVE port goes to PHY_TRAIN and the retrain is counted. -/
def State.retrain (s : State) (p reason : Nat) : State :=
  if s.portState p = 5 then (s.portGo p 2 reason).bump ⟨.prtRetrainCnt, p, 0, 0⟩ else s

/-! ### Acknowledgements, credits and NAKs at the sender (R315, R316, R318) -/

/-- An ACK up to a FSEQ frees the flits it covers. -/
def Port.acked (x : Port) (a : Nat) : Port :=
  { x with replay := x.replay.filter (fun f => !decide ((a + 4096 - f.fseq) % 4096 < 2048)) }

/-- A cumulative count of freed flits; only a higher one counts. -/
def Port.credited (x : Port) (v n : Nat) : Port :=
  if (n + 4096 - Table.get 0 x.freedByPeer v) % 4096 < 2048 then { x with freedByPeer := Table.set x.freedByPeer v n } else x

/-- CTRL_ACK (R316). -/
def ctrlAck (p : PortId) (payload : List Byte) (s : State) : State :=
  s.modPort p.val (fun x => x.acked (leAt payload 0 2 % 4096))

/-- CTRL_CREDIT (R315). -/
def ctrlCredit (p : PortId) (payload : List Byte) (s : State) : State :=
  let w := leAt payload 0 12
  (List.range 8).foldl (fun s v => (s.modPort p.val (fun x => x.credited v (bits w (12 * v + 11) (12 * v)))).showCredit p.val v) s

/-- CTRL_NAK (R316, R318): flits from the named FSEQ are sent again in order; the eighth NAK of one FSEQ in a row
retrains. -/
def ctrlNak (p : PortId) (payload : List Byte) (s : State) : State :=
  let p := p.val
  let n := leAt payload 0 2 % 4096
  if s.portState p != 5 then s
  else
    let x := (s.port p).acked ((n + 4095) % 4096)
    let run := if x.nakRun.1 = n && x.nakRun.2 != 0 then x.nakRun.2 + 1 else 1
    let s := s.modPort p (fun _ => { x with nakRun := (n, run) })
    if 8 ≤ run then (s.modPort p (fun x => { x with nakRun := (0, 0) })).retrain p 0x0B
    else if x.replay.isEmpty then s
    else (s.modPort p (fun x => x.put x.replay)).bump ⟨.prtReplayCnt, p, 0, 0⟩

/-! ### Beacons and system time (R32, R326) -/

/-- A correction of system time: forward by at most 100 ppm of the time since the last one; backward by holding the count.
The first one after a cold boot steps it forward once and makes it valid (R480). -/
def State.steer (s : State) (by' : Int) : State :=
  let st : Csr := ⟨.clkTimeStatus, 0, 0, 0⟩
  if !s.rdb st 0 then
    let s := { s.passTo (s.time + by'.toNat) with steeredAt := s.time + by'.toNat }
    (s.wrf st 0 0 1).powerRecord 11 0 0xFF 0
  else if 0 ≤ by' then
    let most := (s.time - s.steeredAt) / 10000
    { s.passTo (s.time + min by'.toNat most) with timeHold := 0, steeredAt := s.time }
  else { s with timeHold := by'.natAbs, steeredAt := s.time }

/-- BEACON (R326). -/
def beacon (p : PortId) (payload : List Byte) (s : State) : State :=
  if s.portState p.val = 5 then s.sendCtrl p.val 6 (payload.take 8 ++ toBytes 8 s.time ++ toBytes 8 s.time) else s

/-- Ports that steer system time: ACTIVE ones with UPSTREAM set. -/
def State.upstream (s : State) : List Nat := (List.range 24).filter (fun p => s.rdb ⟨.prtTime, p, 0, 0⟩ 1 && s.portState p = 5)

/-- BEACON_REPLY (R326): delay and offset are kept, and the mean offset of the upstream ports that have measured one since they
became ACTIVE steers system time by its full value; PRT_TIME_OFF shows its low 32 bits (log entry 27). -/
def beaconReply (p : PortId) (payload : List Byte) (s : State) : State :=
  let p := p.val
  if s.portState p != 5 then s
  else
    let t1 : Int := leAt payload 0 8
    let t2 : Int := leAt payload 8 8
    let t3 : Int := leAt payload 16 8
    let t4 : Int := s.time
    let s := s.wr ⟨.prtTimeDelay, p, 0, 0⟩ (BitVec.ofNat 64 (unsigned 32 (((t4 - t1) - (t3 - t2)) / 2)))
    let off := ((t2 - t1) - (t4 - t3)) / 2
    let s := s.wr ⟨.prtTimeOff, p, 0, 0⟩ (BitVec.ofNat 64 (unsigned 32 off))
    let s := s.modPort p (fun x => { x with offset := some off })
    let up := s.upstream
    if up.contains p then
      let offs := up.filterMap (fun q => (s.port q).offset)
      s.steer (offs.foldl (· + ·) 0 / (offs.length : Int))
    else s

/-- BEACON_TIMER (R326). -/
def beaconTimer (p : PortId) (s : State) : State :=
  if s.portState p.val = 5 && s.rdb ⟨.prtTime, p.val, 0, 0⟩ 0 then s.sendCtrl p.val 5 (toBytes 8 s.time) else s

/-- ACK_TIMER (R316). -/
def ackTimer (p : PortId) (s : State) : State :=
  let x := s.port p.val
  if s.portState p.val = 5 && x.toAck != 0 && x.ackSince + 100 ≤ s.time then s.sendAck p.val else s

/-- NAK_RESEND (R316). -/
def nakResend (p : PortId) (s : State) : State :=
  match (s.port p.val).nakSince with
  | none => s
  | some t => if s.portState p.val = 5 && t ≤ s.time then s.sendNak p.val else s

/-! ### Messages from packets (R311 to R313) -/

/-- Payload bytes of a packet of a message of P bytes, if its NFLIT and SEGOFF fit the message. -/
def packetBytes (total segoff nflit : Nat) : Option Nat :=
  let off := 8 * segoff
  let b := min 3672 (total - off)
  if off % 3672 = 0 && (off < total || off = 0) && nflit = ceilDiv (24 + b) 112 then some b else none

/-- The bytes a load, copy read or atomic concerns, for which a header has no field: an atomic's follow from its payload
where that settles them, the rest is open and free (log entry 13). -/
def State.lenOf (s : State) (op subop bytes : Nat) : Nat × State :=
  let (u, t) := s.free
  match op with
  | 0x01 => (8 * 2 ^ (u.toNat % 6), t)
  | 0x04 => (64 * (1 + u.toNat % 64), t)
  | 0x03 =>
    if subop = 6 then (bytes / 2, s)
    else if bytes = 8 then (if u.getLsbD 0 then 4 else 8, t)
    else (bytes, s)
  | 0x06 => (65544, s)
  | _ => (bytes, s)

/-- The request a header and a payload make. -/
def State.requestOf (s : State) (p : PortId) (stamp : Nat) (h payload : List Byte) : Req × State :=
  let w := leAt h 0 8
  let v := leAt h 16 8
  let (len, s) := s.lenOf (bits w 7 0) (bits w 11 8) payload.length
  ({ op := bits w 7 0, subop := bits w 11 8, cls := bits w 14 12, resync := w.testBit 15, ord := w.testBit 16,
     reserved := w.testBit 17 || bits v 63 56 != 0, src := bits w 31 18, tag := bits w 47 32, plen := bits w 63 48,
     addr := wordAt h 8, job := bits v 31 0, seq := bits v 55 32, payload, len, port := some p, stamp }, s)

/-- The response a header and a payload make. -/
def responseOf (p : PortId) (stamp cls : Nat) (h payload : List Byte) : Rsp :=
  let w := leAt h 0 8
  let v := leAt h 8 8
  { op := bits w 7 0, status := bits w 15 8, poison := w.testBit 16, src := bits w 31 18, tag := bits w 47 32,
    plen := bits w 63 48, arg0 := bits v 23 0, arg1 := bits v 47 24, cause := bits v 55 48, empty := v.testBit 56,
    underrun := v.testBit 57, used := leAt h 16 4, cls, payload, port := some p, stamp }

/-- A whole message waits to be served (R312). -/
def State.messageArrived (s : State) (p : PortId) (stamp cls : Nat) (h payload : List Byte) : State :=
  if (leAt h 0 1).testBit 7 then { s with answers := s.answers ++ [responseOf p stamp cls h payload] }
  else
    let (m, s) := s.requestOf p stamp h payload
    { s with arrived := s.arrived ++ [m] }

/-- Condition 2 of a packet: NAK BAD_LEN to a request's sender (R302, R312). -/
def State.packetBad (s : State) (p : PortId) (stamp : Nat) (h : List Byte) : State :=
  if (leAt h 0 1).testBit 7 then s.violation (some p) 2 true false
  else
    let (m, s) := s.requestOf p stamp h []
    s.nak m 2 0x58

/-- The key of a message: SRC_NODE, TAG and OP. -/
def messageKey (h : List Byte) : Nat × Nat × Nat := let w := leAt h 0 8; (bits w 31 18, bits w 47 32, bits w 7 0)

/-- Packets of a message, once its length is known. -/
def packetCount (total : Nat) : Nat := max 1 (ceilDiv total 3672)

/-- The parts of a message in order. -/
def joinParts (parts : List (Nat × List Byte)) (n : Nat) : List Byte :=
  (List.range n).flatMap (fun i => match parts.find? (fun q => q.1 = 459 * i) with | none => [] | some q => q.2)

/-- LINK_RX of the slice a packet is delivered to: the target of a request, the slice of the operation a response answers
(R395). -/
def State.meterRx (s : State) (h : List Byte) (nflit : Nat) : State :=
  if (leAt h 0 1).testBit 7 then
    match s.fabOps.find? (fun o => o.tag = leAt h 4 2) with
    | none => s
    | some o => s.meter o.slice 7 (128 * nflit)
  else s.meter (gaSlice (wordAt h 8)) 7 (128 * nflit)

/-- The reorder store a packet goes to: that of its message's earlier packets, whichever port brought them, else that of its
own port's Field (R312). -/
def State.packetStore (s : State) (p : PortId) (fs : List Flit) : Nat :=
  let h := (fs.flatMap (fun g => g.body)).take 24
  match s.reasm.find? (fun r => messageKey r.header == messageKey h) with
  | none => p.val / 6
  | some r => r.field

/-- A packet enters its Field's reorder store (R312). -/
def State.packetIn (s : State) (p : PortId) (stamp : Nat) (fs : List Flit) : State :=
  match fs with
  | [] => s
  | f :: _ =>
    let bytes := fs.flatMap (fun g => g.body)
    let h := bytes.take 24
    let total := 8 * leAt h 6 2
    match packetBytes total f.segoff f.nflit with
    | none => s.packetBad p stamp h
    | some b =>
      let s := s.meterRx h f.nflit
      let part := (f.segoff, (bytes.drop 24).take b)
      let n := packetCount total
      let field := p.val / 6
      match s.reasm.find? (fun r => messageKey r.header == messageKey h) with
      | none =>
        if n = 1 then s.messageArrived p stamp f.vc h part.2
        else
          let (id, s) := s.fresh
          { s with reasm := s.reasm ++ [⟨id, field, p.val, stamp, h, [part], some n, s.fabTimeout⟩] }
      | some r =>
        if r.header != h then s.packetBad p stamp h
        else
          let parts := r.parts.filter (fun q => q.1 != f.segoff) ++ [part]
          if parts.length < n then
            { s with reasm := s.reasm.map (fun (q : Reassembly) => if q.id = r.id then { q with parts } else q) }
          else ({ s with reasm := s.reasm.filter (fun q => q.id != r.id) }).messageArrived p r.stamp f.vc h (joinParts parts n)

/-- REASSEMBLY_TIMEOUT (R312). -/
def reassemblyTimeout (f : FieldId) (id : Nat) (s : State) : State :=
  match s.reasm.find? (fun r => r.id = id && r.field = f.val) with
  | none => s
  | some r =>
    if s.time < r.stamp + r.limit then s
    else ({ s with reasm := s.reasm.filter (fun q => q.id != id) }).bump ⟨.prtReasmDropCnt, 0, 0, 0⟩

/-- A packet leaves the receive buffer: its flits are freed. -/
def State.freeFlits (s : State) (p v n : Nat) : State :=
  s.modPort p (fun x => { x with freed := Table.set x.freed v (Table.get 0 x.freed v + min n (x.held v)) })

/-- Packets whose store was full move on while there is room (R291). -/
def State.unblock (s : State) (p : PortId) : State :=
  (s.port p.val).waiting.foldl (fun s q =>
    match (s.port p.val).waiting.head?, q.1 with
    | some w, f :: _ =>
      if w == q && s.storeRoom (s.packetStore p q.1) (112 * f.nflit) then
        let s := s.modPort p.val (fun x => { x with waiting := x.waiting.drop 1 })
        (s.freeFlits p.val f.vc f.nflit).packetIn p q.2 q.1
      else s
    | _, _ => s) s

/-- A whole packet has been received. -/
def State.packetDone (s : State) (p : PortId) (stamp : Nat) (fs : List Flit) : State :=
  (s.modPort p.val (fun x => { x with waiting := x.waiting ++ [(fs, stamp)] })).unblock p

/-! ### Receiving a flit (R310, R315, R316) -/

/-- A data flit in its turn: it joins its packet. A HEAD starts a packet; a BODY outside a packet is dropped (log entry
27). -/
def State.dataFlit (s : State) (p : PortId) (f : Flit) : State :=
  let q := p.val
  let s := s.modPort q (fun x =>
    { x with expect := (x.expect + 1) % 4096, nakSince := none, toAck := x.toAck + 1,
             ackSince := if x.toAck = 0 then s.time else x.ackSince,
             received := Table.set x.received f.vc ((Table.get 0 x.received f.vc + 1) % 4096) })
  let s := if 64 ≤ (s.port q).toAck then s.sendAck q else s
  let x := s.port q
  let full := 512 < x.held f.vc
  let s :=
    if full then
      -- condition 13: the packet is dropped, and the training that follows resets the counts
      (s.modPort q (fun x => { x with partialPkt := [] })).violation (some p) 13 false true
    else if f.kind = 1 then s.modPort q (fun x => { x with partialPkt := [f], partialStamp := s.time })
    else if x.partialPkt.isEmpty then s.freeFlits q f.vc 1
    else s.modPort q (fun x => { x with partialPkt := x.partialPkt ++ [f] })
  let x := s.port q
  match x.partialPkt with
  | [] => s
  | h :: _ =>
    if x.partialPkt.length < h.nflit then s
    else (s.modPort q (fun x => { x with partialPkt := [] })).packetDone p x.partialStamp x.partialPkt

/-- The header fields of a flit that concern what this end sends. -/
def State.flitReports (s : State) (p : Nat) (f : Flit) : State :=
  let s := if f.ackv then s.modPort p (fun x => x.acked f.ack) else s
  if f.cv then (s.modPort p (fun x => x.credited f.cvc f.ccum)).showCredit p f.cvc else s

/-! ### Commands -/

/-- CTRL_ACK (R316). -/
def execCtrlAck (p : PortId) (payload : List Byte) (s : State) : Res := answer (ctrlAck p payload s)

/-- CTRL_CREDIT (R315). -/
def execCtrlCredit (p : PortId) (payload : List Byte) (s : State) : Res := answer (ctrlCredit p payload s)

/-- CTRL_NAK (R316). -/
def execCtrlNak (p : PortId) (payload : List Byte) (s : State) : Res := answer (ctrlNak p payload s)

/-- BEACON (R326). -/
def execBeacon (p : PortId) (payload : List Byte) (s : State) : Res := answer (beacon p payload s)

/-- BEACON_REPLY (R326). -/
def execBeaconReply (p : PortId) (payload : List Byte) (s : State) : Res := answer (beaconReply p payload s)

/-- BEACON_TIMER (R326). -/
def execBeaconTimer (p : PortId) (s : State) : Res := answer (s.every (512 + p.val) 10000 (beaconTimer p))

/-- ACK_TIMER (R316). -/
def execAckTimer (p : PortId) (s : State) : Res := answer (ackTimer p s)

/-- NAK_RESEND (R316). -/
def execNakResend (p : PortId) (s : State) : Res := answer (nakResend p s)

/-- REASSEMBLY_TIMEOUT (R312). -/
def execReassemblyTimeout (f : FieldId) (id : Nat) (s : State) : Res := answer (reassemblyTimeout f id s)

end Sys2Proof.Machine
end

