-- ==== Sys2Proof/Machine/Tables.lean ====
section
/-! DEFINITION. Embedding records and the adapter directory as their instructions change them (R246 to R257). -/

namespace Sys2Proof.Machine

/-! ### Embedding records (Table 10-1) -/

/-- An embedding record. -/
structure EmbRec where
  base : Nat
  so : Nat
  rows : Nat
  dim : Nat
  fmt : Nat
  version : Nat
  owner : Nat
  readers : Nat
  prevReaders : Nat
  prevVersion : Nat
  prevV : Bool
  valid : Bool
deriving DecidableEq, Repr

/-- Address of record i, none where no record exists (R246, R514). -/
def State.embAddr (s : State) (i : Nat) : Option Nat :=
  let b := (s.rd ⟨.shfEmbBase, 0, 0, 0⟩).toNat
  if b = 0 || 4096 ≤ i then none else some (b + 64 * i)

/-- The record at an address. -/
def State.embAt (s : State) (a : Nat) : EmbRec :=
  let w2 := s.gword (a + 0x10)
  let w3 := s.gword (a + 0x18)
  let w6 := s.gword (a + 0x30)
  { base := (s.gword a).toNat, so := (s.gword (a + 8)).toNat, rows := fld w2 23 0, dim := fld w2 37 24, fmt := fld w2 41 38,
    version := fld w2 57 42, owner := fld w2 63 58, readers := fld w3 31 0, prevReaders := fld w3 63 32,
    prevVersion := fld w6 15 0, prevV := w6.getLsbD 16, valid := w6.getLsbD 17 }

/-- The record a gather latches, if it is valid. -/
def State.embRec (s : State) (i : Nat) : Option EmbRec :=
  match s.embAddr i with
  | none => none
  | some a => if (s.embAt a).valid then some (s.embAt a) else none

/-- Bytes of a stored row (R247). -/
def embRowBytes (fmt dim : Nat) : Nat := ceilDiv (if fmt = 0 then dim else dim / 2) 64 * 64

/-- A publish descriptor's fields out of range (R246, R248). -/
def badEmb (d : List Byte) : Bool :=
  let w := leAt d 16 8
  let rows := bits w 23 0
  let dim := bits w 37 24
  let fmt := bits w 41 38
  leAt d 0 8 % 64 != 0 || leAt d 8 8 % 4 != 0 || !granaryOk (leAt d 0 8) || !granaryOk (leAt d 8 8) || rows = 0 ||
    dim < 64 || 8192 < dim || dim % 64 != 0 || (fmt != 0 && fmt != 2) || bits w 63 42 != 0 || leAt d 24 8 != 0

/-- The version after v; it skips 0. -/
def nextVersion (v : Nat) : Nat := if (v + 1) % 65536 = 0 then 1 else (v + 1) % 65536

/-- The new current fields of a record. -/
def State.embFill (s : State) (a owner version : Nat) (d : List Byte) : State :=
  let w := leAt d 16 8 % 2 ^ 42 + version * 2 ^ 42 + owner * 2 ^ 58
  ((s.setGword a (wordAt d 0)).setGword (a + 8) (wordAt d 8)).setGword (a + 0x10) (BitVec.ofNat 64 w)

/-- EMB.PUBLISH (R248): status and result. PROTECTION stands before BAD_PARAM, and that before BUSY (log entry 16). -/
def State.embPublish (s : State) (slice i : Nat) (d : List Byte) : Nat × Nat × State :=
  match s.embAddr i with
  | none => (0x86, 0, s)
  | some a =>
    let e := s.embAt a
    if e.valid && e.owner != slice then (0x9B, 0, s)
    else if badEmb d then (0x86, 0, s)
    else if e.valid then
      if e.prevReaders != 0 then (0x87, 0, s)
      else
        let v := nextVersion e.version
        let s := (s.setGword (a + 0x20) (s.gword a)).setGword (a + 0x28) (s.gword (a + 8))
        let s := s.setGword (a + 0x30) (BitVec.ofNat 64 (e.version + 2 ^ 16 + 2 ^ 17))
        let s := s.setGword (a + 0x18) (BitVec.ofNat 64 (e.readers * 2 ^ 32))
        (0, v, s.embFill a e.owner v d)
    else
      let s := (s.embFill a slice 1 d).setGword (a + 0x18) 0
      (0, 1, s.setGword (a + 0x30) (BitVec.ofNat 64 (2 ^ 17)))

/-- EMB.PUBLISH. -/
def opEmbPublish : SlotOp :=
  { enc := { opc := 0xF2, x := .g, y := .g, z := .g, dx := true, ctr := true }
    cls := some .sys
    checks := fun c _ => ckHull c.z 32 64
    reads := fun c _ => [(fld c.z 31 0, 32)]
    run := fun c s =>
      let (code, v, s) := s.embPublish c.slice c.y.toNat ((s.hull c.f).readBytes (fld c.z 31 0) 32)
      c.status code v s }

/-- A gather latches a record's current version: READERS rises (R249). -/
def State.embLatch (s : State) (i : Nat) : State :=
  match s.embAddr i with
  | none => s
  | some a => s.setGword (a + 0x18) (setFld (s.gword (a + 0x18)) 31 0 ((s.embAt a).readers + 1))

/-- A gather that latched a version ends: the count of that version falls (R249). -/
def State.embRelease (s : State) (i version : Nat) : State :=
  match s.embAddr i with
  | none => s
  | some a =>
    let e := s.embAt a
    let w := s.gword (a + 0x18)
    s.setGword (a + 0x18)
      (if e.version = version then setFld w 31 0 (e.readers - 1) else setFld w 63 32 (e.prevReaders - 1))

/-! ### Adapter directory (R253 to R257) -/

/-- The version in slot j of an entry. -/
def State.adpVersion (s : State) (a j : Nat) : Nat := fld (s.gword (a + 0x18 + 16 * j)) 7 0

/-- The slot that can take a new version: empty, or with REFS 0 and not CURRENT. -/
def State.adpRoom (s : State) (a : Nat) : Option Nat :=
  let cur := fld (s.gword a) 58 51
  firstBelow 4 fun j =>
    let v := s.adpVersion a j
    v = 0 || (fld (s.gword (a + 0x18 + 16 * j)) 49 26 = 0 && v != cur)

/-- The first invalid probe position of a key. -/
def State.adpFree (s : State) (key : Nat) : Option Nat :=
  match s.adpSize with
  | none => none
  | some l => ((adpProbes l key).map s.adpEntry).find? (fun a => !(s.gword a).getLsbD 44)

/-- A publish descriptor out of range (Tables 10-2 and 14-15). -/
def badAdp (d : List Byte) : Bool :=
  let w0 := leAt d 0 8
  let w2 := leAt d 16 8
  let rows := bits w2 6 0
  bits w0 63 52 != 0 || bits w2 63 18 != 0 || leAt d 24 8 != 0 || bits w0 51 44 = 0 || leAt d 8 8 % 64 != 0 ||
    !granaryOk (leAt d 8 8) || rows = 0 || 64 < rows || bits w2 17 8 = 0

/-- Put a version into slot j of an entry and make it CURRENT. -/
def State.adpPlace (s : State) (a j : Nat) (d : List Byte) : State :=
  let w0 := leAt d 0 8
  let w2 := leAt d 16 8
  let v := bits w0 51 44
  let w := v + bits w2 6 0 * 2 ^ 8 + bitVal (w2.testBit 7) 15 + bits w2 17 8 * 2 ^ 16
  let s := (s.setGword (a + 0x10 + 16 * j) (wordAt d 8)).setGword (a + 0x18 + 16 * j) (BitVec.ofNat 64 w)
  s.setGword a (setFld (s.gword a) 58 51 v)

/-- ADP.PUBLISH in the order of R254. -/
def State.adpPublish (s : State) (slice : Nat) (d : List Byte) : Nat × State :=
  if s.adpSize.isNone then (0x86, s)
  else
    let key := bits (leAt d 0 8) 43 0
    let v := bits (leAt d 0 8) 51 44
    match s.adpFind key with
    | some a =>
      if fld (s.gword a) 50 45 != slice then (0x9B, s)
      else if badAdp d then (0x86, s)
      else if (s.adpSlot a v).isSome then (0x9C, s)
      else
        match s.adpRoom a with
        | none => (0x87, s)
        | some j => (0, s.adpPlace a j d)
    | none =>
      if badAdp d then (0x86, s)
      else
        match s.adpFree key with
        | none => (0x88, s)
        | some a =>
          let s := s.gwrite a (fillBytes 128 0) false
          (0, (s.setGword a (BitVec.ofNat 64 (key + 2 ^ 44 + slice * 2 ^ 45))).adpPlace a 0 d)

/-- ADP.PUBLISH. -/
def opAdpPublish : SlotOp :=
  { enc := { opc := 0xF3, x := .g, y := .g, dx := true, ctr := true }
    cls := some .sys
    checks := fun c _ => ckHull c.y 32 64
    reads := fun c _ => [(fld c.y 31 0, 32)]
    run := fun c s =>
      let (code, s) := s.adpPublish c.slice ((s.hull c.f).readBytes (fld c.y 31 0) 32)
      c.status code 0 s }

/-- ADP.RETIRE: empties a slot with REFS 0 that is not CURRENT, else BUSY (R254). An absent key or version names no such
slot; another slice's entry is PROTECTION, as for ADP.PUBLISH (log entry 16). -/
def State.adpRetire (s : State) (slice key v : Nat) : Nat × State :=
  match s.adpFind key with
  | none => (0x87, s)
  | some a =>
    if fld (s.gword a) 50 45 != slice then (0x9B, s)
    else
      match s.adpSlot a v with
      | none => (0x87, s)
      | some j =>
        let w := s.gword (a + 0x18 + 16 * j)
        if fld w 49 26 != 0 || fld (s.gword a) 58 51 = v then (0x87, s)
        else (0, s.setGword (a + 0x18 + 16 * j) (setFld w 7 0 0))

/-- ADP.RETIRE. -/
def opAdpRetire : SlotOp :=
  { enc := { opc := 0xF4, x := .g, y := .g, z := .g, dx := true, ctr := true }
    cls := some .sys
    checks := fun c _ => ckBits c.y (2 ^ 44 - 1)
    run := fun c s =>
      let (code, s) := s.adpRetire c.slice (fld c.y 43 0) c.z.toNat
      c.status code 0 s }

/-- A version as a reader finds it: store address, ROWS, FP32, LINES. -/
structure AdpVersion where
  store : Nat
  rows : Nat
  wide : Bool
  lines : Nat
deriving DecidableEq, Repr

/-- A version of a key, if the directory holds it. -/
def State.adpVer (s : State) (key v : Nat) : Option AdpVersion :=
  match s.adpFind key with
  | none => none
  | some a =>
    (s.adpSlot a v).map fun j =>
      let w := s.gword (a + 0x18 + 16 * j)
      ⟨(s.gword (a + 0x10 + 16 * j)).toNat, fld w 14 8, w.getLsbD 15, fld w 25 16⟩

/-! ### Commands -/

/-- EMB_PUBLISH (R248). -/
def execEmbPublish (f : FurrowId) (o : Slot) (s : State) : Res := answer (runSlot opEmbPublish f o s)

/-- ADP_PUBLISH (R254). -/
def execAdpPublish (f : FurrowId) (o : Slot) (s : State) : Res := answer (runSlot opAdpPublish f o s)

/-- ADP_RETIRE (R254). -/
def execAdpRetire (f : FurrowId) (o : Slot) (s : State) : Res := answer (runSlot opAdpRetire f o s)

end Sys2Proof.Machine
end

