-- ==== Sys2Proof/Machine/Thresher.lean ====
section
/-! DEFINITION. Thresher arithmetic: operand, scale and zero-point descriptors, the issue of tiles, the checks at
completion and the product itself (R113 to R126, R135, R139 to R154). -/

namespace Sys2Proof.Machine

/-! ### Formats (Table 5-2) -/

/-- Bits of an element; 0 for a reserved code. -/
def elemBits (fmt : Nat) : Nat :=
  match fmt with
  | 0 => 8
  | 1 => 8
  | 2 => 4
  | 3 => 4
  | 4 => 8
  | 5 => 8
  | 6 => 16
  | 7 => 16
  | 8 => 32
  | 9 => 32
  | _ => 0

/-- Bytes of a row of elements. -/
def rowBytes (fmt cols : Nat) : Nat := ceilDiv (cols * elemBits fmt) 8

/-- Integer formats. -/
def isIntFmt (fmt : Nat) : Bool := fmt ≤ 3 || fmt = 8

/-- Signed integer formats. -/
def isSignedFmt (fmt : Nat) : Bool := fmt = 0 || fmt = 2 || fmt = 8

/-- The floating-point format of a code. -/
def floatFmt (fmt : Nat) : FFmt :=
  match fmt with
  | 4 => e4m3
  | 5 => e5m2
  | 6 => bf16
  | 7 => fp16
  | _ => fp32

/-- Formats that pair in a tile (R119): one width of integers, one kind of floats. -/
def pairKind (fmt : Nat) : Nat :=
  match fmt with
  | 0 => 1
  | 1 => 1
  | 2 => 2
  | 3 => 2
  | 4 => 3
  | 5 => 3
  | 6 => 4
  | 7 => 5
  | _ => 0

/-- Largest K. -/
def maxK (fmt : Nat) : Nat := if fmt = 2 || fmt = 3 then 256 else 128

/-- The codes of a row: an even element of a 4-bit format in the low nibble (R114). -/
def rowCodes (fmt cols : Nat) (bs : List Byte) : List Nat :=
  let w := elemBits fmt
  if w = 4 then (bs.flatMap (fun b => [b.toNat % 16, b.toNat / 16])).take cols
  else ((chunks (w / 8) bs).map fromBytes).take cols

/-- The integer a code spells. -/
def codeInt (fmt c : Nat) : Int := if isSignedFmt fmt then signed (elemBits fmt) c else (c : Int)

/-- The value a code spells. -/
def codeVal (fmt c : Nat) : FVal := if isIntFmt fmt then FVal.ofInt (codeInt fmt c) else (floatFmt fmt).decode c

/-- Nibbles packed two to a byte, the even one low; `last` fills the high half of an odd row's last byte. -/
def packNibbles (last : Nat) : List Nat → List Byte
  | [] => []
  | [a] => [BitVec.ofNat 8 (a % 16 + last % 16 * 16)]
  | a :: b :: t => BitVec.ofNat 8 (a % 16 + b % 16 * 16) :: packNibbles last t

/-- The bytes of a row of codes. -/
def packRow (fmt last : Nat) (cs : List Nat) : List Byte :=
  if elemBits fmt = 4 then packNibbles last cs else cs.flatMap (toBytes (elemBits fmt / 8))

/-! ### Descriptors (Tables 5-3, 6-2, 6-4) -/

/-- An operand descriptor. -/
structure OpDesc where
  base : Nat
  space : Nat
  fmt : Nat
  tag : Nat
  rows : Nat
  cols : Nat
  stride : Nat
  scale : Nat
  zp : Nat
deriving DecidableEq, Repr

/-- An operand descriptor from its 32 bytes. -/
def opDescOf (bs : List Byte) : OpDesc :=
  let w0 := leAt bs 0 8
  let w1 := leAt bs 8 8
  ⟨bits w0 31 0, bits w0 33 32, bits w0 37 34, bits w0 63 48, bits w1 12 0, bits w1 22 13, bits w1 63 32, leAt bs 16 4,
    leAt bs 20 4⟩

/-- Reserved bits of an operand descriptor, or a reserved SPACE. -/
def opDescReserved (bs : List Byte) : Bool :=
  let w0 := leAt bs 0 8
  let w1 := leAt bs 8 8
  bits w0 47 38 != 0 || bits w1 31 23 != 0 || leAt bs 24 8 != 0 || 2 ≤ bits w0 33 32

/-- ROWS, COLS and STRIDE within the ranges of Table 5-3. -/
def OpDesc.ranged (d : OpDesc) : Bool :=
  1 ≤ d.rows && d.rows ≤ 4096 && 1 ≤ d.cols && d.cols ≤ 512 && elemBits d.fmt != 0 && rowBytes d.fmt d.cols ≤ d.stride

/-- Size of a space: Hull or operand SRAM. -/
def spaceSize (space : Nat) : Nat := if space = 0 then 0x300000 else 0x800000

/-- Bytes of a row of an operand. -/
def OpDesc.bytes (d : OpDesc) : Nat := rowBytes d.fmt d.cols

/-- First byte of row i. -/
def OpDesc.row (d : OpDesc) (i : Nat) : Nat := d.base + i * d.stride

/-- A scale-stream descriptor. -/
structure ScaleD where
  base : Nat
  space : Nat
  gran : Nat
  rmode : Nat
  stat : Bool
  set : Nat
  oshift : Nat
  constE : Nat
  stride : Nat
  reserved : Bool
deriving DecidableEq, Repr

/-- A scale-stream descriptor from the 16 bytes read at issue; none where the operand names none. -/
def scaleOf (bs : List Byte) : Option ScaleD :=
  if bs.isEmpty then none
  else
    let w := leAt bs 0 8
    let v := leAt bs 8 8
    some ⟨bits w 31 0, bits w 33 32, bits w 35 34, bits w 37 36, w.testBit 38, bits w 40 39, bits w 45 41, bits w 55 48,
      bits v 31 0, bits w 47 46 != 0 || bits w 63 56 != 0 || bits v 63 32 != 0⟩

/-- A zero-point descriptor. -/
structure ZpD where
  base : Nat
  space : Nat
  gran : Nat
  constZ : Int
  csum : Nat
  reserved : Bool
deriving DecidableEq, Repr

/-- A zero-point descriptor from the 16 bytes read at issue. -/
def zpOf (bs : List Byte) : Option ZpD :=
  if bs.isEmpty then none
  else
    let w := leAt bs 0 8
    let v := leAt bs 8 8
    some ⟨bits w 31 0, bits w 33 32, bits w 35 34, signed 16 (bits w 63 48), bits v 31 0,
      bits w 47 36 != 0 || bits v 63 32 != 0⟩

/-! ### Arrays -/

/-- Array k beside its registers. -/
def State.array (s : State) (k : Nat) : ThrArray := Table.get {} s.arrays k

/-- Change array k. -/
def State.modArray (s : State) (k : Nat) (g : ThrArray → ThrArray) : State :=
  { s with arrays := Table.set s.arrays k (g (s.array k)) }

/-- The unit of array k. -/
def arrayUnit (k : Nat) : UnitId := .thresher (Fin.ofNat 8 k)

/-- An array that is powered, not failed and not fenced (R135). -/
def State.arrayAvailable (s : State) (k : Nat) : Bool :=
  let u := s.unit (arrayUnit k)
  s.domainOn (64 + k) && !u.failed && !u.fenced

/-- Places taken of an array's queue of 32 (R124, R166); a query ship's service takes none (log entry 14). -/
def ThrArray.load (a : ThrArray) : Nat := (a.queue.filter (fun j => j.kind != .ship)).length

/-- The available array of a Field with fewer queued tiles, the lower number on a tie (R124, R135). -/
def State.anyArray (s : State) (field : Nat) : Option Nat :=
  let a := 2 * field
  let b := a + 1
  match s.arrayAvailable a, s.arrayAvailable b with
  | true, true => some (if (s.array b).load < (s.array a).load then b else a)
  | true, false => some a
  | false, true => some b
  | false, false => none

/-- The array a tile goes to and whether it was redirected (R135); `hull` says that every operand is in Hull. -/
def State.tileTarget (s : State) (field mod : Nat) (hull : Bool) : Option (Nat × Bool) :=
  if mod % 4 = 0 then (s.anyArray field).map (fun k => (k, false))
  else
    let k := 2 * field + (mod % 4 - 1)
    if s.arrayAvailable k then some (k, false)
    else
      let o := if k % 2 = 0 then k + 1 else k - 1
      if s.arrayAvailable o && hull then some (o, true) else none

/-- The array that a tile's operand SRAM belongs to, for the ownership check, whether or not one can take the tile. -/
def State.tileSram (s : State) (field mod : Nat) : Nat :=
  if mod % 4 = 0 then (s.anyArray field).getD (2 * field) else 2 * field + (mod % 4 - 1)

/-- An operand-SRAM block that belongs to a slice (Table 5-7). -/
def State.ownsBlock (s : State) (k slice b : Nat) : Bool :=
  let w := s.rd ⟨.thrOpsOwn, k, b, 0⟩
  w.getLsbD 6 && fld w 5 0 = slice

/-- Bytes of a space that a slice may use. -/
def State.spaceOk (s : State) (k slice space a n : Nat) : Bool :=
  a + n ≤ spaceSize space &&
    (space = 0 || n = 0 || (List.range ((a + n - 1) / 65536 - a / 65536 + 1)).all (fun i => s.ownsBlock k slice (a / 65536 + i)))

/-- The memory of a space. -/
def State.spaceMem (s : State) (k f space : Nat) : Memory := if space = 0 then s.hull f else (s.array k).sram

/-- Change the memory of a space. -/
def State.modSpace (s : State) (k f space : Nat) (g : Memory → Memory) : State :=
  if space = 0 then s.modHull f g else s.modArray k (fun a => { a with sram := g a.sram })

/-! ### Issue (R116 to R118, R124, R382) -/

/-- Read the descriptors an operation names: d, a and b, then the scale-stream and zero-point descriptors of each. -/
def State.readDescs (s : State) (f : Nat) (ws : List Word) : List (List Byte) :=
  let m := s.hull f
  let ds := ws.map (fun w => m.readBytes (fld w 31 0) 32)
  let opt (a : Nat) : List Byte := if a = 0 then [] else m.readBytes a 16
  ds ++ ds.map (fun d => opt (opDescOf d).scale) ++ ds.map (fun d => opt (opDescOf d).zp)

/-- A row check is made only on a descriptor whose fields are in range (R118). -/
def OpDesc.rowsOk (d : OpDesc) : Bool := !d.ranged || d.row (d.rows - 1) + d.bytes ≤ spaceSize d.space

/-- Operand SRAM that belongs to another slice. -/
def State.sramFault (s : State) (k slice : Nat) (d : OpDesc) : Bool :=
  d.space = 1 && d.ranged && d.rowsOk && !((List.range d.rows).all (fun i => s.spaceOk k slice 1 (d.row i) d.bytes))

/-- The checks of one operand descriptor (R118). -/
def ckDescriptor (s : State) (f slice k : Nat) (w : Word) : List (Nat × Word) :=
  let a := fld w 31 0
  let bs := (s.hull f).readBytes a 32
  let d := opDescOf bs
  ckHull w 32 32 ++ chk (!opDescReserved bs) 0x03 w ++
    chk (d.base % 64 == 0 && d.stride % 64 == 0 && d.scale % 16 == 0 && d.zp % 16 == 0) 0x08 w ++
    chk (d.rowsOk && (d.scale == 0 || d.scale + 16 ≤ 0x300000) && (d.zp == 0 || d.zp + 16 ≤ 0x300000)) 0x05 w ++
    chk (!s.sramFault k slice d) 0x06 w

/-- Every operand of a tile lies in Hull, scale tensors and zero points with it (R135, R137): the three operand descriptors,
then the scale-stream and the zero-point descriptors that they name. -/
def allHull (ds : List (List Byte)) : Bool :=
  (ds.take 3).all (fun d => (opDescOf d).space == 0) && ((ds.drop 3).take 3).all (fun d => (scaleOf d).all (fun e => e.space == 0)) &&
    (ds.drop 6).all (fun d => (zpOf d).all (fun e => e.space == 0))

/-- Put a job at the tail of an array's queue. -/
def State.queueJob (s : State) (k : Nat) (j : ArrayJob) : State := s.modArray k (fun a => { a with queue := a.queue ++ [j] })

/-- TILE.MM and TILE.MM.ACC differ in their opcode. -/
def tileOp (opc : Nat) : SlotOp :=
  let enc : EncSpec := { opc, x := .g, y := .g, z := .g, mods := 7, reserved := fun o => o.mod.toNat % 4 == 3, ctr := true }
  let target (c : Ctx) (s : State) : Option (Nat × Bool) :=
    s.tileTarget c.field c.mod (allHull (s.readDescs c.f [c.x, c.y, c.z]))
  { enc
    cls := some .mat
    stalls := fun c s =>
      match target c s with
      | some (k, _) => 32 ≤ (s.array k).load
      | none => false
    checks := fun c s =>
      let k := s.tileSram c.field c.mod
      ckDescriptor s c.f c.slice k c.x ++ ckDescriptor s c.f c.slice k c.y ++ ckDescriptor s c.f c.slice k c.z ++
        chk (target c s).isSome 0x07 0
    run := fun c s =>
      match target c s with
      | none => s
      | some (k, redirected) =>
        let (id, s) := c.issue enc .mat (s.readDescs c.f [c.x, c.y, c.z]) s
        (s.queueJob k ⟨.tile, c.f, id⟩).bumpIf redirected ⟨.fldThrRedirectCnt, c.field, 0, 0⟩ }

/-- TILE.MM (R116). -/
def opTileMm : SlotOp := tileOp 0xC1
/-- TILE.MM.ACC (R116). -/
def opTileMmAcc : SlotOp := tileOp 0xC2

/-! ### Checks at completion (R119, R148, R150) -/

/-- A tile as its operation was issued: descriptors of d, a and b with what they name. -/
structure Tile where
  d : OpDesc
  a : OpDesc
  b : OpDesc
  sd : Option ScaleD
  sa : Option ScaleD
  sb : Option ScaleD
  zd : Option ZpD
  za : Option ZpD
  zb : Option ZpD
  acc : Bool
  reload : Bool
  furrow : Nat
  slice : Nat

/-- The tile of an outstanding operation. -/
def tileOf (f : Nat) (o : AsyncOp) : Tile :=
  let d (i : Nat) : List Byte := o.desc.getD i []
  { d := opDescOf (d 0), a := opDescOf (d 1), b := opDescOf (d 2), sd := scaleOf (d 3), sa := scaleOf (d 4),
    sb := scaleOf (d 5), zd := zpOf (d 6), za := zpOf (d 7), zb := zpOf (d 8), acc := o.opc = 0xC2,
    reload := o.mod.testBit 2, furrow := f, slice := o.slice }

/-- The format rules of R119. -/
def Tile.formatOk (t : Tile) : Bool :=
  pairKind t.a.fmt != 0 && pairKind t.a.fmt = pairKind t.b.fmt &&
    (if isIntFmt t.a.fmt then t.d.fmt = 8 || (!t.acc && t.d.fmt ≤ 3)
     else t.d.fmt = 9 || (!t.acc && 4 ≤ t.d.fmt && t.d.fmt ≤ 7))

/-- The shape rules of R119. -/
def Tile.shapeOk (t : Tile) : Bool :=
  t.d.ranged && t.a.ranged && t.b.ranged && t.b.rows ≤ maxK t.b.fmt && t.a.cols = t.b.rows && t.d.rows = t.a.rows &&
    t.d.cols = t.b.cols

/-- K. -/
def Tile.k (t : Tile) : Nat := t.b.rows
/-- N. -/
def Tile.n (t : Tile) : Nat := t.b.cols
/-- G of Table 6-3. -/
def Tile.groups (t : Tile) : Nat := ceilDiv t.b.rows 32

/-- A destination narrower than its accumulator. -/
def narrower (fmt : Nat) : Bool := fmt ≤ 7

/-- Faults of a scale-stream descriptor that its place decides (R150): `count` rows or columns, `groups` groups, b's
layout by groups. -/
def State.scaleBad (s : State) (k slice : Nat) (sd : Option ScaleD) (dest isB : Bool) (fmt count groups : Nat) : Bool :=
  match sd with
  | none => false
  | some e =>
    let n := if isB then count else groups
    let m := if isB then groups else count
    e.reserved || 2 ≤ e.space || e.gran = 3 ||
      (if dest then e.gran = 2 || e.rmode = 3 || (e.oshift != 0 && !(isIntFmt fmt && narrower fmt))
       else e.rmode != 0 || e.stat || e.set != 0 || e.oshift != 0) ||
      (match e.gran with
       | 0 => false
       | 1 => !s.spaceOk k slice e.space e.base count
       | _ => e.stride < n || !(List.range m).all (fun i => s.spaceOk k slice e.space (e.base + i * e.stride) n))

/-- The zero point of a row or column. -/
def zpAt (m : Memory) (z : Option ZpD) (i : Nat) : Int :=
  match z with
  | none => 0
  | some e => if e.gran = 0 then e.constZ else signed 16 (m.readNat (e.base + 2 * i) 2)

/-- The element range of an integer format. -/
def elemRange (fmt : Nat) (z : Int) : Bool :=
  match fmt with
  | 0 => -128 ≤ z && z ≤ 127
  | 1 => 0 ≤ z && z ≤ 255
  | 2 => -8 ≤ z && z ≤ 7
  | _ => 0 ≤ z && z ≤ 15

/-- Faults of a zero-point descriptor (R148, R150). -/
def State.zpBad (s : State) (k slice f : Nat) (z : Option ZpD) (isB groupScales : Bool) (fmt count : Nat) : Bool :=
  match z with
  | none => false
  | some e =>
    e.reserved || 2 ≤ e.space || 2 ≤ e.gran || (!isB && e.csum != 0) || !isIntFmt fmt || groupScales ||
      e.base % 2 != 0 || e.csum % 4 != 0 ||
      (e.gran = 1 && !s.spaceOk k slice e.space e.base (2 * count)) ||
      (e.csum != 0 && 0x300000 < e.csum + 4 * count) ||
      !(List.range (if e.gran = 0 then 1 else count)).all (fun i => elemRange fmt (zpAt (s.spaceMem k f e.space) z i))

/-- GRAN 2 in use. -/
def byGroup (e : Option ScaleD) : Bool :=
  match e with
  | none => false
  | some d => d.gran = 2

/-- The descriptors a tile's completion refuses (R150). -/
def State.tileScaleBad (s : State) (k : Nat) (t : Tile) : Bool :=
  let g := byGroup t.sa || byGroup t.sb
  s.scaleBad k t.slice t.sa false false t.a.fmt t.a.rows t.groups ||
    s.scaleBad k t.slice t.sb false true t.b.fmt t.n t.groups ||
    s.scaleBad k t.slice t.sd true false t.d.fmt t.d.rows 1 || t.d.zp != 0 ||
    s.zpBad k t.slice t.furrow t.za false g t.a.fmt t.a.rows || s.zpBad k t.slice t.furrow t.zb true g t.b.fmt t.n

/-- The first code of Table 5-4 that a tile's description earns; 0 when it is valid. -/
def State.tileCode (s : State) (k : Nat) (t : Tile) : Nat :=
  if !t.formatOk then 0x10 else if !t.shapeOk then 0x11 else if s.tileScaleBad k t then 0x12 else 0

/-! ### Exponents -/

/-- An exponent byte; a poisoned line's byte governs as the void exponent does (log entry 15). -/
def expByte (m : Memory) (a : Nat) : Nat := if m.marked a then voidExp else (m.byte a).toNat

/-- The exponent byte that governs row or column i and group g (Table 6-3). -/
def expAt (m : Memory) (e : Option ScaleD) (isB : Bool) (i g : Nat) : Nat :=
  match e with
  | none => 0
  | some d =>
    match d.gran with
    | 0 => d.constE
    | 1 => expByte m (d.base + i)
    | _ => if isB then expByte m (d.base + g * d.stride + i) else expByte m (d.base + i * d.stride + g)

/-- The memory a scale stream reads. -/
def State.scaleMem (s : State) (k f : Nat) (e : Option ScaleD) : Memory :=
  match e with
  | none => {}
  | some d => s.spaceMem k f d.space

/-- The memory a zero-point vector lies in. -/
def State.zpMem (s : State) (k f : Nat) (e : Option ZpD) : Memory :=
  match e with
  | none => {}
  | some d => s.spaceMem k f d.space

/-! ### The product (R120, R121, R145, R146, R148) -/

/-- INT32 bounds. -/
def int32Min : Int := -2147483648
/-- INT32 bounds. -/
def int32Max : Int := 2147483647

/-- A shift of R145, clamped into 0 to 31. -/
def clampShift (e : Int) : Nat := (max 0 (min 31 e)).toNat

/-- Add shifted parts to an INT32 accumulator that sticks at a bound (R120, R145): answers the lane, whether it saturated
and how many shifts were clamped. A part carries its sum, its combined exponent and the groups it stands for. A shifted sum
that itself leaves the range saturates the lane, whatever the accumulator holds. -/
def addParts : List (Int × Int × Nat) → Int → Bool → Nat → Int × Bool × Nat
  | [], acc, sat, n => (acc, sat, n)
  | (p, e, w) :: t, acc, sat, n =>
    let sh := clampShift e
    let n := if (sh : Int) = e then n else n + w
    if sat then addParts t acc sat n
    else
      let y := p * ((2 ^ sh : Nat) : Int)
      let x := if int32Max < y || y < int32Min then y else acc + y
      if int32Max < x then addParts t int32Max true n
      else if x < int32Min then addParts t int32Min true n
      else addParts t x false n

/-- Σ of products. -/
def dotInt (a b : List Int) : Int := (List.zipWith (· * ·) a b).sum

/-- The products of a lane, those that a fault replaces as the fault delivers them. -/
def lanesOf {α : Type} (fs : List LaneFault) (n : Nat) (of : BitVec 64 → α) (ps : List α) : List α :=
  if fs.isEmpty then ps
  else ps.zipIdx.map (fun p => match fs.find? (fun (x : LaneFault) => x.k = p.2 && x.col = n) with
    | some x => of x.product
    | none => p.1)

/-- The parts of an integer lane of products `ps` of row `a` and column `b`; `shift g` is the combined exponent of group g,
`zero` the zero points where the tile has any (R145, R148). -/
def intParts (ps a b : List Int) (scaled : Bool) (zero : Option (Int × Int)) (shift : Nat → Int) : List (Int × Int × Nat) :=
  match zero with
  | some (za, zb) =>
    [(ps.sum - zb * a.sum - za * b.sum + (a.length : Int) * za * zb, shift 0, ceilDiv a.length 32)]
  | none => if scaled then (chunks 32 ps).zipIdx.map (fun p => (p.1.sum, shift p.2, 1)) else [(ps.sum, 0, 1)]

/-- What the row check sums of an integer lane: its products under the clamped shifts, before any correction (R130, R145,
R148). -/
def intOwn (ps : List Int) (scaled : Bool) (shift : Nat → Int) : Int :=
  if scaled then ((chunks 32 ps).zipIdx.map (fun p => p.1.sum * ((2 ^ clampShift (shift p.2) : Nat) : Int))).sum else ps.sum

/-- Exact products summed in groups of 32: each group's sum times 2^s rounded once, added in order (R121, R146). -/
def floatSum (ps : List FVal) (shift : Nat → Int) (init : Nat) : Nat :=
  (chunks 32 ps).zipIdx.foldl
    (fun acc p => f32add acc (fp32.encode (FVal.scale (shift p.2) (p.1.foldl FVal.add FVal.zero)))) init

/-- A floating-point lane of two rows of values. -/
def floatLane (a b : List FVal) (shift : Nat → Int) (init : Nat) : Nat := floatSum (List.zipWith FVal.mul a b) shift init

/-- Column n of rows of codes. -/
def columnOf (rows : List (List Nat)) (n : Nat) : List Nat := rows.map (fun r => r.getD n 0)

/-- One destination row: its bytes, whether it is poisoned, whether its check is skipped, saturated elements, clamped
shifts, the elements it converted; and for the checks the lanes' own outputs before the destination is added, the difference
of the row check with its limit, and whether it fails (R130). -/
structure RowOut where
  bytes : List Byte
  poison : Bool := false
  skip : Bool := false
  sat : Nat := 0
  ssat : Nat := 0
  stats : List StatElem := []
  own : List Int := []
  diff : Nat := 0
  limit : Nat := 0
  bad : Bool := false

/-- The narrowing target of a format. -/
def narrowOf (fmt : Nat) : Narrow := if isIntFmt fmt then .int (elemBits fmt) (isSignedFmt fmt) else .fp (floatFmt fmt)

/-- A row of exact values laid into a destination: 32-bit accumulators as they are, narrower formats rounded per mode
(R151 to R154); `ed` is the destination's exponent, for the statistics. -/
def layRow (fmt oshift : Nat) (ed : Int) (mode : Nat → RMode) (i0 last : Nat) (vals : List FVal) :
    List Byte × List StatElem :=
  let outs := vals.zipIdx.map fun p =>
    let x := FVal.scale ed p.1
    if fmt = 9 then (fp32.encode p.1, (⟨x, if p.1.isFinite then some x else none, false⟩ : StatElem))
    else
      let (c, q, cl) := (narrowOf fmt).apply (mode (i0 + p.2)) (FVal.scale (-(oshift : Int)) p.1)
      (c, ⟨x, if p.1.isFinite && !cl then some (FVal.scale (ed + oshift) q) else none, cl⟩)
  (packRow fmt last (outs.map (·.1)), outs.map (·.2))

/-- Everything a tile's rows are computed from: the codes the cells hold and those that entered, poison, the exponents and zero
points by index, the rounding of element i, the filler of an odd nibble row, and t of the row check. -/
structure TileIn where
  t : Tile
  b : List (List Nat)
  entered : List (List Nat)
  bPoison : Bool
  ea : Nat → Nat → Nat
  eb : Nat → Nat → Nat
  ed : Nat → Nat
  za : Nat → Int
  zb : Nat → Int
  mode : Nat → RMode
  last : Nat
  tol : Nat

/-- The combined exponent s of row i, column n and group g. -/
def TileIn.shift (x : TileIn) (i n g : Nat) : Int := expVal (x.ea i g) + expVal (x.eb n g) - expVal (x.ed i)

/-- An operand of the tile names a scale stream. -/
def Tile.scaled (t : Tile) : Bool := t.sa.isSome || t.sb.isSome || t.sd.isSome

/-- A tile with zero points, whose groups share one exponent (R148). -/
def Tile.zeroed (t : Tile) : Bool := t.za.isSome || t.zb.isSome

/-- e_i of an integer tile: the streaming row against s_k, under the scale stream of the logical columns, so that the check
stays exact (R130, R145). -/
def TileIn.eInt (x : TileIn) (i : Nat) (a : List Int) : Int :=
  let t := x.t
  let s (k : Nat) (row : List Nat) : Int :=
    (row.zipIdx.map (fun p =>
      codeInt t.b.fmt p.1 * (if t.scaled && !t.zeroed then ((2 ^ clampShift (x.shift i p.2 (k / 32)) : Nat) : Int) else 1))).sum
  dotInt a (x.entered.zipIdx.map (fun r => s r.2 r.1))

/-- s_k and u_k of a floating-point tile: the stationary operand's rows under the columns' exponents, summed with the grouping
of R121. -/
def TileIn.sFloat (x : TileIn) (absolute : Bool) : List FVal :=
  x.entered.zipIdx.map fun r =>
    let vs := r.1.zipIdx.map (fun p => FVal.scale (expVal (x.eb p.2 (r.2 / 32))) (codeVal x.t.b.fmt p.1))
    fp32.decode (floatSum (if absolute then vs.map FVal.abs else vs) (fun _ => 0) 0)

/-- Row i of a tile, from the streaming row's codes and, under .ACC, the destination's contents, with the array's faults in
that row. -/
def tileRow (x : TileIn) (fs : List LaneFault) (i : Nat) (a : List Nat) (aPoison : Bool) (acc : List Nat) (accPoison : Bool) :
    RowOut :=
  let t := x.t
  let poison := aPoison || x.bPoison || accPoison || x.ed i = voidExp ||
    (List.range t.groups).any (fun g => x.ea i g = voidExp)
  if poison then { bytes := fillBytes t.d.bytes 0xFF, poison := true }
  else
    let ed := expVal (x.ed i)
    let oshift := match t.sd with | none => 0 | some e => e.oshift
    let fs := fs.filter (fun c => c.row = i)
    if isIntFmt t.a.fmt then
      let ai := a.map (codeInt t.a.fmt)
      let cols := (List.range t.n).map (fun n => (columnOf x.b n).map (codeInt t.b.fmt))
      let prods := cols.zipIdx.map (fun c => lanesOf fs c.2 (fun v => v.toInt) (List.zipWith (· * ·) ai c.1))
      let lanes := (List.zip prods cols).zipIdx.map fun c =>
        let zero := if t.zeroed then some (x.za i, x.zb c.2) else none
        addParts (intParts c.1.1 ai c.1.2 t.scaled zero (x.shift i c.2)) (signed 32 (acc.getD c.2 0)) false 0
      let (bs, st) := layRow t.d.fmt oshift ed x.mode (i * t.n) x.last (lanes.map (fun l => FVal.ofInt l.1))
      let sat := (lanes.filter (fun l => l.2.1)).length
      let own := prods.zipIdx.map (fun c => intOwn c.1 (t.scaled && !t.zeroed) (x.shift i c.2))
      let diff := own.sum - x.eInt i ai
      { bytes := bs, skip := sat != 0, sat, ssat := (lanes.map (fun l => l.2.2)).sum, stats := st, own,
        diff := fp32.encode (FVal.ofInt (diff.natAbs : Int)), bad := sat = 0 && diff != 0 }
    else
      let av := a.map (codeVal t.a.fmt)
      let prods := (List.range t.n).map fun n =>
        lanesOf fs n (fun v => fp32.decode (fld v 31 0)) (List.zipWith FVal.mul av ((columnOf x.b n).map (codeVal t.b.fmt)))
      let vals := prods.zipIdx.map (fun p => fp32.decode (floatSum p.1 (x.shift i p.2) (acc.getD p.2 0)))
      let own := prods.zipIdx.map (fun p => floatSum p.1 (x.shift i p.2) 0)
      let (bs, st) := layRow t.d.fmt oshift ed x.mode (i * t.n) x.last vals
      let fin := av.all FVal.isFinite && vals.all FVal.isFinite && own.all (fun c => (fp32.decode c).isFinite) &&
        x.b.all (fun r => r.all (fun c => (codeVal t.b.fmt c).isFinite))
      let at' (g : Nat) : Int := expVal (x.ea i g) - ed
      let e := floatSum (List.zipWith FVal.mul av (x.sFloat false)) at' 0
      let f := floatSum (List.zipWith FVal.mul (av.map FVal.abs) (x.sFloat true)) at' 0
      let sum := own.foldl (fun u c => FVal.add u (fp32.decode c)) FVal.zero
      let diff := (FVal.add sum (FVal.neg (fp32.decode e))).abs
      let limit := FVal.scale (-(x.tol : Int)) (fp32.decode f)
      { bytes := bs, skip := !fin, stats := st, own := own.map (fun c => (c : Int)), diff := fp32.encode diff,
        limit := fp32.encode limit, bad := fin && FVal.lt limit diff }

/-- The inputs of a tile on array k: the stationary operand as the array holds it, what the tile began with, and the exponents
and zero points that stream with the rows (R144). -/
def State.tileIn (s : State) (k : Nat) (t : Tile) (buf : StatBuf) (last : Nat) : TileIn :=
  let f := t.furrow
  let ma := s.scaleMem k f t.sa
  let md := s.scaleMem k f t.sd
  let mza := s.zpMem k f t.za
  let l := (s.array k).begun
  let rmode := match t.sd with | none => 0 | some e => e.rmode
  let eb (n g : Nat) : Nat := (l.eb.getD n []).getD g 0
  { t, b := buf.cells, entered := buf.entered
    bPoison := buf.poison || (List.range t.n).any (fun n => (List.range t.groups).any (fun g => eb n g = voidExp))
    ea := expAt ma t.sa false, eb, ed := fun i => expAt md t.sd false i 0
    za := zpAt mza t.za, zb := fun n => l.zb.getD n 0
    mode := rmodeOf rmode l.srKey (64 + k) (s.array k).srCount
    last, tol := l.tol }

/-- Row i of a tile on array k. -/
def State.tileRowAt (s : State) (k : Nat) (x : TileIn) (fs : List LaneFault) (i : Nat) : RowOut :=
  let t := x.t
  let ma := s.spaceMem k t.furrow t.a.space
  let md := s.spaceMem k t.furrow t.d.space
  let a := rowCodes t.a.fmt t.a.cols (ma.readBytes (t.a.row i) t.a.bytes)
  let acc := if t.acc then rowCodes t.d.fmt t.d.cols (md.readBytes (t.d.row i) t.d.bytes) else []
  tileRow x fs i a (ma.anyPoison (t.a.row i) t.a.bytes) acc (t.acc && md.anyPoison (t.d.row i) t.d.bytes)

/-- What names a stationary operand's contents (R126). -/
def Tile.key (t : Tile) : List Nat :=
  [t.b.space, t.b.base, t.b.fmt, t.b.rows, t.b.cols, t.b.stride, t.b.tag] ++ (if t.b.space = 0 then [t.furrow] else [])

/-- What a tile begins with (R27, R144): t is T8 for FP8 and T16 for the wider formats (Table 5-7). -/
def State.tileLatch (s : State) (k : Nat) (t : Tile) : TileLatch :=
  let f := t.furrow
  let mb := s.scaleMem k f t.sb
  let mzb := s.zpMem k f t.zb
  let tol : Csr := ⟨.thrTol, k, 0, 0⟩
  { retry := s.rdb ⟨.thrCtl, k, 0, 0⟩ 0
    tol := if pairKind t.a.fmt = 3 then s.rdf tol 12 8 else s.rdf tol 4 0
    log2n := s.rdf ⟨.chpRasGlean, 0, 0, 0⟩ 4 0
    srKey := s.rd ⟨.slcSrKey, t.slice, 0, 0⟩
    eb := (List.range t.n).map (fun n => (List.range t.groups).map (fun g => expAt mb t.sb true n g))
    zb := (List.range t.n).map (zpAt mzb t.zb) }

/-- Load the stationary operand (R123, R126), with the cells that come in wrong. -/
def State.loadStationary (s : State) (k : Nat) (t : Tile) (fs : List CellFault) : StatBuf :=
  let m := s.spaceMem k t.furrow t.b.space
  let entered := (List.range t.b.rows).map (fun i => rowCodes t.b.fmt t.n (m.readBytes (t.b.row i) t.b.bytes))
  let cells := fs.foldl (fun rows c => rows.modify c.k (fun r => r.set c.col (c.code % 2 ^ elemBits t.b.fmt))) entered
  ⟨t.key, cells, entered, (List.range t.b.rows).any (fun i => m.anyPoison (t.b.row i) t.b.bytes)⟩

/-- The comparison of Σ c_n with Σ s_k after a load (R129): the difference and its limit as FP32 codes, and whether it fails. A
NaN or an infinity in the operand leaves nothing to compare (log entry 29). -/
def loadCheck (t : Tile) (tol : Nat) (buf : StatBuf) : Nat × Nat × Bool :=
  if isIntFmt t.b.fmt then
    let sum (rows : List (List Nat)) : Int := (rows.map (fun r => (r.map (codeInt t.b.fmt)).sum)).sum
    let d := (sum buf.cells - sum buf.entered).natAbs
    (fp32.encode (FVal.ofInt (d : Int)), 0, d != 0)
  else
    let total (cs : List Nat) : FVal := cs.foldl (fun u c => FVal.add u (fp32.decode c)) FVal.zero
    let vals (rows : List (List Nat)) : List (List FVal) := rows.map (fun r => r.map (codeVal t.b.fmt))
    let c := total ((List.range t.n).map (fun n => floatSum ((columnOf buf.cells n).map (codeVal t.b.fmt)) (fun _ => 0) 0))
    let s := total ((vals buf.entered).map (fun r => floatSum r (fun _ => 0) 0))
    let u := total ((vals buf.entered).map (fun r => floatSum (r.map FVal.abs) (fun _ => 0) 0))
    let d := (FVal.add c (FVal.neg s)).abs
    let limit := FVal.scale (-(tol : Int)) u
    (fp32.encode d, fp32.encode limit, c.isFinite && u.isFinite && FVal.lt limit d)

/-- R149: the greatest difference between a stored column sum and the load's c_n; 0 where they agree or none is stored. -/
def State.csumDiff (s : State) (t : Tile) (buf : StatBuf) : Nat :=
  match t.zb with
  | none => 0
  | some z =>
    if z.csum = 0 then 0
    else
      let m := s.hull t.furrow
      ((List.range t.n).map (fun n =>
        (((columnOf buf.cells n).map (codeInt t.b.fmt)).sum - signed 32 (m.readNat (z.csum + 4 * n) 4)).natAbs)).foldl max 0

/-- Cycles of a load that is not hidden (Table 5-5, R144). -/
def Tile.loadCycles (t : Tile) : Nat :=
  let exps := match t.sb with | none => 0 | some e => if e.gran = 0 then 0 else if e.gran = 1 then t.n else t.groups * t.n
  let zps := match t.zb with | none => 0 | some z => (if z.gran = 1 then 2 * t.n else 0) + (if z.csum = 0 then 0 else 4 * t.n)
  max (ceilDiv (t.b.rows * t.b.bytes) (if t.b.space = 0 then 256 else 2048)) (ceilDiv (exps + zps) 64)

/-! ### Ownership of operand SRAM (R138) -/

/-- The byte ranges of operand SRAM that a tile touches: operand rows, scale tensors and zero-point vectors. -/
def Tile.sramRanges (t : Tile) : List (Nat × Nat) :=
  let rows (d : OpDesc) : List (Nat × Nat) := if d.space = 1 then (List.range d.rows).map (fun i => (d.row i, d.bytes)) else []
  let scale (e : Option ScaleD) (isB : Bool) (count : Nat) : List (Nat × Nat) :=
    match e with
    | none => []
    | some e =>
      if e.space != 1 || e.gran = 0 then []
      else if e.gran = 1 then [(e.base, count)]
      else if isB then (List.range t.groups).map (fun g => (e.base + g * e.stride, count))
      else (List.range count).map (fun i => (e.base + i * e.stride, t.groups))
  let zero (z : Option ZpD) (count : Nat) : List (Nat × Nat) :=
    match z with
    | none => []
    | some z => if z.space = 1 && z.gran = 1 then [(z.base, 2 * count)] else []
  rows t.d ++ rows t.a ++ rows t.b ++ scale t.sd false t.d.rows ++ scale t.sa false t.a.rows ++ scale t.sb true t.n ++
    zero t.za t.a.rows ++ zero t.zb t.n

/-- A queued or running tile of array k touches operand-SRAM block b. -/
def State.tileTouches (s : State) (k b : Nat) : Bool :=
  let a := s.array k
  (a.queue ++ a.running.toList).any fun j =>
    j.kind = .tile &&
      (match s.op? j.furrow j.op with
       | none => false
       | some o => (tileOf j.furrow o).sramRanges.any (fun r => 0 < r.2 && r.1 / 65536 ≤ b && b ≤ (r.1 + r.2 - 1) / 65536))

/-- Ownership writes that waited for tiles are applied once no tile touches their block. -/
def State.applyOwners (s : State) (k : Nat) : State :=
  (s.array k).heldOwn.foldl (fun s p =>
    if s.tileTouches k p.1 then s
    else (s.wr ⟨.thrOpsOwn, k, p.1, 0⟩ p.2).modArray k (fun a => { a with heldOwn := a.heldOwn.erase p })) s

/-! ### Block conversion (R155) -/

/-- CVT.BLK's first code: BAD_FORMAT, BAD_SHAPE, BAD_SCALE; 0 when it may run. -/
def State.blockCode (s : State) (k : Nat) (t : Tile) : Nat :=
  if elemBits t.a.fmt = 0 || elemBits t.d.fmt = 0 then 0x10
  else if !(t.d.ranged && t.a.ranged && t.d.rows = t.a.rows && t.d.cols = t.a.cols) then 0x11
  else
    let g := ceilDiv t.a.cols 32
    if s.scaleBad k t.slice t.sa false false t.a.fmt t.a.rows g || s.scaleBad k t.slice t.sd true false t.d.fmt t.d.rows 1 ||
        t.d.zp != 0 || s.zpBad k t.slice t.furrow t.za false (byGroup t.sa) t.a.fmt t.a.rows then 0x12
    else 0

/-- The kind of Table 5-2 that a format belongs to, 32-bit destinations with their family. -/
def fmtKind (fmt : Nat) : Nat :=
  match fmt with
  | 4 => 1
  | 5 => 1
  | 6 => 2
  | 7 => 3
  | 9 => 4
  | _ => 0

/-- Row i of a block conversion: each element's value, scaled by its exponent less the destination's. Between integer formats
the shift is clamped and the result saturates in INT32 as in a tile (R145); across kinds a value passes through FP32. -/
def blockRow (t : Tile) (ea : Nat → Nat → Nat) (ed : Nat) (z : Int) (mode : Nat → RMode) (last i : Nat) (codes : List Nat)
    (poisoned : Bool) : RowOut :=
  if poisoned || ed = voidExp || (List.range (ceilDiv codes.length 32)).any (fun g => ea i g = voidExp) then
    { bytes := fillBytes t.d.bytes 0xFF, poison := true }
  else
    let shift (j : Nat) : Int := expVal (ea i (j / 32)) - expVal ed
    let ints := isIntFmt t.a.fmt && isIntFmt t.d.fmt
    let lanes := if ints then
        codes.zipIdx.map (fun p => addParts [(codeInt t.a.fmt p.1 - z, shift p.2, 1)] 0 false 0)
      else []
    let vals := if ints then lanes.map (fun l => FVal.ofInt l.1)
      else codes.zipIdx.map fun p =>
        let v := if isIntFmt t.a.fmt then FVal.ofInt (codeInt t.a.fmt p.1 - z) else codeVal t.a.fmt p.1
        let v := FVal.scale (shift p.2) v
        if fmtKind t.a.fmt = fmtKind t.d.fmt then v else fp32.decode (fp32.encode v)
    let oshift := match t.sd with | none => 0 | some e => e.oshift
    let (bs, st) := layRow t.d.fmt oshift (expVal ed) mode (i * t.d.cols) last vals
    { bytes := bs, stats := st, sat := (lanes.filter (fun l => l.2.1)).length, ssat := (lanes.map (fun l => l.2.2)).sum }

/-- Every row of a block conversion by Furrow f. -/
def State.blockRows (s : State) (k : Nat) (t : Tile) (last : Nat) : List RowOut :=
  let f := t.furrow
  let ma := s.scaleMem k f t.sa
  let md := s.scaleMem k f t.sd
  let mz := s.zpMem k f t.za
  let src := s.spaceMem k f t.a.space
  let rmode := match t.sd with | none => 0 | some e => e.rmode
  let mode := rmodeOf rmode (s.rd ⟨.slcSrKey, t.slice, 0, 0⟩) f (s.furrow f).srCount
  (List.range t.a.rows).map fun i =>
    blockRow t (expAt ma t.sa false) (expAt md t.sd false i 0) (zpAt mz t.za i) mode last i
      (rowCodes t.a.fmt t.a.cols (src.readBytes (t.a.row i) t.a.bytes)) (src.anyPoison (t.a.row i) t.a.bytes)

/-- Write destination rows; poisoned rows are 0xFF with the mark (R123). -/
def State.writeRows (s : State) (k : Nat) (t : Tile) (rows : List RowOut) : State :=
  rows.zipIdx.foldl (fun s p =>
    s.modSpace k t.furrow t.d.space (fun m => m.store (t.d.row p.2) p.1.bytes p.1.poison)) s

/-- Add the rows' elements to the statistics set the destination names, 64 at a time (R156). -/
def State.rowStats (s : State) (t : Tile) (rows : List RowOut) : State :=
  match t.sd with
  | none => s
  | some e =>
    if e.stat then rows.foldl (fun s r => (chunks 64 r.stats).foldl (fun s es => s.statChunk t.furrow e.set es) s) s else s

/-- A tile or conversion that rounds by random bits counts as one stochastic operation (R153); one into INT32 rounds where
its source is a floating-point format. -/
def Tile.stochastic (t : Tile) : Bool :=
  match t.sd with
  | none => false
  | some e => e.rmode = 2 && (narrower t.d.fmt || (t.d.fmt = 8 && !isIntFmt t.a.fmt))

/-- An array's job has ended: the array is free and its cycles are metered to the slice. -/
def State.jobEnd (s : State) (k slice cycles : Nat) : State :=
  ((s.modArray k (fun a => { a with running := none })).meter slice 2 cycles).offIfDue (arrayUnit k)

/-! ### Commands -/

/-- TILE_MM (R116). -/
def execTileMm (f : FurrowId) (o : Slot) (s : State) : Res := answer (runSlot opTileMm f o s)

/-- TILE_MM_ACC (R116). -/
def execTileMmAcc (f : FurrowId) (o : Slot) (s : State) : Res := answer (runSlot opTileMmAcc f o s)

end Sys2Proof.Machine
end

