-- ==== Sys2Proof/Machine/Moves.lean ====
section
/-! DEFINITION. Local moves, Glean fills, block conversions, embedding gathers and adapter loads (R242 to R257, R370,
R378, R155). -/

namespace Sys2Proof.Machine

/-- A length of a move: a multiple of 64, not 0, at most the instruction's largest (R378). -/
def ckLength (w : Word) (largest : Nat) : List (Nat × Word) :=
  chk (w.toNat % 64 == 0 && w.toNat != 0) 0x08 w ++ chk (w.toNat ≤ largest) 0x05 w

/-- A Hull extent at a multiple of 64. -/
def ckHull64 (w : Word) (n : Word) : List (Nat × Word) := ckHull w n.toNat 64

/-- An asynchronous instruction that only issues. -/
def issueOp (enc : EncSpec) (cls : OpClass) (checks : Ctx → State → List (Nat × Word)) : SlotOp :=
  { enc, cls := some cls, checks, run := fun c s => c.issue' enc cls [] s }

/-- MOV.GH. -/
def opMovGh : SlotOp :=
  issueOp { opc := 0x61, x := .g, y := .g, z := .g, ctr := true } .mov fun c s =>
    ckHull64 c.x c.z ++ ckGranary s c.slice c.y c.z.toNat 64 false ++ ckLength c.z 0x300000

/-- MOV.HG. -/
def opMovHg : SlotOp :=
  issueOp { opc := 0x62, x := .g, y := .g, z := .g, ctr := true } .mov fun c s =>
    ckGranary s c.slice c.x c.z.toNat 64 true ++ ckHull64 c.y c.z ++ ckLength c.z 0x300000

/-- MOV.HH. -/
def opMovHh : SlotOp :=
  issueOp { opc := 0x63, x := .g, y := .g, z := .g, ctr := true } .mov fun c _ =>
    ckHull64 c.x c.z ++ ckHull64 c.y c.z ++ ckLength c.z 0x300000

/-- MOV.GG. -/
def opMovGg : SlotOp :=
  issueOp { opc := 0x64, x := .g, y := .g, z := .g, ctr := true } .mov fun c s =>
    ckGranary s c.slice c.x c.z.toNat 64 true ++ ckGranary s c.slice c.y c.z.toNat 64 false ++ ckLength c.z 0x4000000

/-- GLN.FILL. -/
def opGlnFill : SlotOp :=
  issueOp { opc := 0x68, x := .g, y := .g, mods := 0x80F, ctr := true } .mov fun c s =>
    ckGranary s c.slice c.x c.y.toNat 64 false ++ ckLength c.y 0x100000

/-- GLN.INVAL. -/
def opGlnInval : SlotOp :=
  issueOp { opc := 0x69, x := .g, y := .g, ctr := true } .mov fun c _ =>
    chk (c.x.toNat % 64 == 0) 0x08 c.x ++ chk (granaryOk c.x.toNat && granaryOk (c.x.toNat + c.y.toNat - 1)) 0x05 c.x ++
      ckLength c.y 0x100000

/-- The array whose operand SRAM a conversion's SPACE 1 names: the lower-numbered of the Field (log entry 16). -/
def blockArray (f : Nat) : Nat := 2 * (f / 16)

/-- CVT.BLK (R118, R155). -/
def opCvtBlk : SlotOp :=
  let enc : EncSpec := { opc := 0x6A, x := .g, y := .g, ctr := true }
  { enc
    cls := some .mov
    checks := fun c s =>
      ckDescriptor s c.f c.slice (blockArray c.f) c.x ++ ckDescriptor s c.f c.slice (blockArray c.f) c.y
    run := fun c s => c.issue' enc .mov (s.readDescs c.f [c.x, c.y]) s }

/-- Bytes of an embedding output row. -/
def embOutBytes (dim mod : Nat) : Nat := dim * (if mod.testBit 0 then 4 else 2)

/-- EMB.GATHER: the record's version is latched at issue and READERS rises (R249). -/
def opEmbGather : SlotOp :=
  let enc : EncSpec := { opc := 0x70, x := .g, y := .g, z := .g, mods := 1, ctr := true }
  { enc
    cls := some .mov
    checks := fun c s =>
      let n := fld c.z 42 32
      let out := match s.embRec c.y.toNat with | none => 0 | some e => n * embOutBytes e.dim c.mod
      ckHull c.x out 64 ++ ckBits c.z (2 ^ 43 - 1) ++ ckHull (c.z &&& 0xFFFFFFFF) (4 * n) 64
    run := fun c s =>
      match s.embRec c.y.toNat with
      | none => c.issue' enc .mov [] s
      | some e =>
        let (id, s) := c.issue enc .mov [] s
        (s.modOp c.f id (fun o => { o with latch := [e.version, e.base, e.so, e.rows, e.dim, e.fmt] })).embLatch c.y.toNat }

/-- ADP.LD: the version pinned in the entry is read at issue (R257). -/
def opAdpLd : SlotOp :=
  let enc : EncSpec := { opc := 0x71, x := .g, y := .g, z := .g, ctr := true }
  let ver (c : Ctx) (s : State) : Option AdpVersion :=
    let e := s.entry (fld c.y 14 0)
    if e.adapter = 0 then none else s.adpVer (adpKey e.customer e.model) e.adapter
  { enc
    cls := some .mov
    checks := fun c s =>
      let n := match ver c s with | none => 0 | some v => 64 * v.lines
      ckHull c.x n 64 ++ ckSheaf s c.slice c.y
    run := fun c s =>
      let (id, s) := c.issue enc .mov [] s
      let e := s.entry (fld c.y 14 0)
      s.modOp c.f id (fun o => { o with latch := [adpKey e.customer e.model, e.adapter] }) }

/-! ### Completion (R102, R106) -/

/-- Bytes of [a, a + n) up to the first frame that fails the check of Table 14-5 (R370). -/
def State.allowed (s : State) (slice a n : Nat) (write : Bool) : Nat :=
  match (List.range ((a + n - 1) / 65536 - a / 65536 + 1)).find? (fun i => s.frameFault slice (a / 65536 + i) write) with
  | none => n
  | some i => (a / 65536 + i) * 65536 - a

/-- The status of a move that got `k` of `n` bytes far. -/
def moveDone (k n : Nat) (poison : Bool) : Done := { code := if k = n then 0 else 0x9B, poison }

/-- Lines into a Hull. -/
def linesTo (m : Memory) (a : Nat) : List (List Byte × Bool) → Memory
  | [] => m
  | l :: t => linesTo (m.store a l.1 l.2) (a + 64) t

/-- Lines of a memory. -/
def linesOf (m : Memory) (a n : Nat) : List (List Byte × Bool) :=
  (List.range n).map (fun i => (m.readBytes (a + 64 * i) 64, m.marked (a + 64 * i)))

/-- Lines into Granary by a program's own write: its Furrow's Glean lines follow (R244), AGE clears (R233). -/
def State.linesToGranary (s : State) (f a : Nat) (ls : List (List Byte × Bool)) : State :=
  let s := { s with mem := linesTo s.mem a ls }
  (s.gleanUpdate f a (64 * ls.length)).touchRange a (64 * ls.length)

/-- A move that reads Granary through Glean: its lines and the state after the reads. -/
def State.readLines (s : State) (f a n : Nat) : List (List Byte × Bool) × State :=
  let (ls, s) := s.gleanReadLines f a (n / 64)
  (ls, s.touchRange a n)

/-- The local moves. -/
def State.moveDo (s : State) (f : Nat) (o : AsyncOp) : Done × State :=
  let x := o.x.toNat
  let y := o.y.toNat
  let z := o.z.toNat
  match o.opc with
  | 0x61 =>
    let n := s.allowed o.slice y z false
    let (ls, s) := s.readLines f y n
    (moveDone n z (ls.any (·.2)), s.modHull f (fun m => linesTo m x ls))
  | 0x62 =>
    let n := s.allowed o.slice x z true
    let ls := linesOf (s.hull f) y (n / 64)
    (moveDone n z (ls.any (·.2)), s.linesToGranary f x ls)
  | 0x63 =>
    let ls := linesOf (s.hull f) y (z / 64)
    (moveDone z z (ls.any (·.2)), s.modHull f (fun m => linesTo m x ls))
  | _ =>
    let n := min (s.allowed o.slice y z false) (s.allowed o.slice x z true)
    let n := n / 64 * 64
    let (ls, s) := s.readLines f y n
    (moveDone n z (ls.any (·.2)), s.linesToGranary f x ls)

/-- GLN.FILL (R243): a disabled region fills nothing. -/
def State.fillDo (s : State) (f : Nat) (o : AsyncOp) : Done × State :=
  let j := o.mod % 16
  if !s.rdb ⟨.frwGlnReg, f, j, 0⟩ 11 then (Done.ofCode 0x86, s)
  else
    let n := s.allowed o.slice o.x.toNat o.y.toNat false
    let s := s.gleanFill f o.x.toNat (n / 64) j o.ra none
    (moveDone n o.y.toNat false, if o.ra then s else s.touchRange o.x.toNat n)

/-- GLN.INVAL (R244). -/
def State.invalDo (s : State) (f : Nat) (o : AsyncOp) : Done × State :=
  let a := o.x.toNat
  (Done.ok, s.modFurrow f (fun r => r.gleanDrop (fun l => a ≤ l.addr && l.addr < a + o.y.toNat)))

/-- The tile-like view of a conversion: destination, source, their scales and zero points. -/
def blockOf (f : Nat) (o : AsyncOp) : Tile :=
  let d (i : Nat) : List Byte := o.desc.getD i []
  { d := opDescOf (d 0), a := opDescOf (d 1), b := opDescOf (d 1), sd := scaleOf (d 2), sa := scaleOf (d 3), sb := none,
    zd := zpOf (d 4), za := zpOf (d 5), zb := none, acc := false, reload := false, furrow := f, slice := o.slice }

/-- CVT.BLK (R155). -/
def State.blockDo (s : State) (f : Nat) (o : AsyncOp) : Done × State :=
  let k := blockArray f
  let t := blockOf f o
  match s.blockCode k t with
  | 0 =>
    let (u, s) := s.free
    let rows := s.blockRows k t u.toNat
    let s := ((s.writeRows k t rows).rowStats t rows).srStep f t.stochastic
    let s := (s.count ⟨.thrSatCnt, k, 0, 0⟩ 31 0 (rows.map (·.sat)).sum).count ⟨.thrSsatCnt, k, 0, 0⟩ 31 0 (rows.map (·.ssat)).sum
    let poison := rows.any (·.poison)
    ({ code := if poison then 0x15 else 0, poison }, s)
  | c => (Done.ofCode c, s)

/-- Lines a gather reads through its Furrow's Glean: a hit of its own tag, else Granary, which installs the line (R252). -/
def State.embLine (s : State) (f a : Nat) (tag : Nat × Nat) : (List Byte × Bool) × State :=
  let hit := ((s.furrow f).gleanLine a (some tag)).isSome
  let (l, s) := s.gleanRead f a (some tag)
  (l, if hit then s else s.gleanFill f a 1 0 false (some tag))

/-- Bytes of a stretch read that way. -/
def State.embBytes (s : State) (f a n : Nat) (tag : Nat × Nat) : (List Byte × Bool) × State :=
  let first := a / 64
  let (bs, s) := (List.range ((a + n - 1) / 64 - first + 1)).foldl (fun (acc : (List Byte × Bool) × State) i =>
    let (l, s) := acc.2.embLine f (64 * (first + i)) tag
    ((acc.1.1 ++ l.1, acc.1.2 || l.2), s)) (([], false), s)
  (((bs.1.drop (a % 64)).take n, bs.2), s)

/-- One output element: code × scale + offset in FP32, rounded in the output format (R250). -/
def embElem (wide : Bool) (scale offset : FVal) (code : Int) : List Byte :=
  let x := fp32.encode (FVal.add (FVal.mul (FVal.ofInt code) scale) offset)
  if wide then toBytes 4 x else toBytes 2 (bf16.encode (fp32.decode x))

/-- One row of a gather: its bytes and poison. -/
def State.embRow (s : State) (f : Nat) (o : AsyncOp) (base so dim fmt r : Nat) (tag : Nat × Nat) :
    (List Byte × Bool) × State :=
  let n := if fmt = 0 then dim else dim / 2
  let a := base + r * embRowBytes fmt dim
  let ((bs, p), s) := s.embBytes f a n tag
  let ((w, q), s) := s.embBytes f (so + 4 * r) 4 tag
  let s := (s.touchRange a n).touchRange (so + 4 * r) 4
  let scale := fp16.decode (leAt w 0 2)
  let offset := fp16.decode (leAt w 2 2)
  let out := (rowCodes fmt dim bs).flatMap (fun c => embElem (o.mod.testBit 0) scale offset (codeInt fmt c))
  ((if p || q then fillBytes out.length 0xFF else out, p || q), s)

/-- Whether a program may read the frames of a row and of its scale word (R230). -/
def State.embAllowed (s : State) (slice a n so : Nat) : Bool :=
  s.allowed slice a n false = n && s.allowed slice so 4 false = 4

/-- EMB.GATHER from row i of the list on; `fuel` rows remain. -/
def State.embRows (s : State) (f : Nat) (o : AsyncOp) (base so rows dim fmt : Nat) (tag : Nat × Nat) (d : Done) :
    (fuel : Nat) → (i : Nat) → Done × State
  | 0, _ => (d, s)
  | k + 1, i =>
    let out := embOutBytes dim o.mod
    let id := (s.hull f).readNat (fld o.z 31 0 + 4 * i) 4 % 2 ^ 24
    let dst := fld o.x 31 0 + i * out
    if rows ≤ id then
      State.embRows (s.modHull f (fun m => m.writePoison dst (fillBytes out 0xFF))) f o base so rows dim fmt tag
        { d with code := if d.code = 0 then 0x40 else d.code, poison := true } k (i + 1)
    else if !s.embAllowed o.slice (base + id * embRowBytes fmt dim) (embRowBytes fmt dim) (so + 4 * id) then
      ({ d with code := if d.code = 0 then 0x9B else d.code }, s)
    else
      let ((bs, p), s) := s.embRow f o base so dim fmt id tag
      State.embRows (s.modHull f (fun m => m.store dst bs p)) f o base so rows dim fmt tag
        { d with poison := d.poison || p } k (i + 1)

/-- EMB.GATHER (R249 to R252). A row count outside 1 to 1,024 completes with BAD_PARAM (log entry 16). -/
def State.gatherDo (s : State) (f : Nat) (o : AsyncOp) : Done × State :=
  let n := fld o.z 42 32
  match o.latch with
  | [v, base, so, rows, dim, fmt] =>
    let i := o.y.toNat
    if n = 0 || 1024 < n then (Done.ofCode 0x86, s.embRelease i v)
    else
      let (d, s) := s.embRows f o base so rows dim fmt (i, v) Done.ok n 0
      (d, s.embRelease i v)
  | _ => (Done.ofCode 0x41, s)

/-- Lines that a row occupies when nothing states its length: a free number from 1 to 1,023, within Hull (log entry 17). -/
def openLines (u : Word) (dst : Nat) : Nat := min (1 + u.toNat % 1023) ((0x300000 - dst) / 64)

/-- ADP.LD (R257): the row is read whole from Granary, as it stands at one time (R259, log entry 16). -/
def State.adpDo (s : State) (f : Nat) (o : AsyncOp) : Done × State :=
  let key := o.latch.getD 0 0
  let v := o.latch.getD 1 0
  let dst := fld o.x 31 0
  let row := o.z.toNat
  if v = 0 then
    let (u, s) := s.free
    (Done.ofCode 0x42, s.modHull f (fun m => m.writeBytes dst (fillBytes (64 * openLines u dst) 0)))
  else
    match s.adpVer key v with
    | none =>
      let (u, s) := s.free
      ({ code := 0x43, poison := true }, s.modHull f (fun m => m.writePoison dst (fillBytes (64 * openLines u dst) 0xFF)))
    | some r =>
      let n := 64 * r.lines
      if r.rows ≤ row then
        ({ code := 0x43, poison := true }, s.modHull f (fun m => m.writePoison dst (fillBytes n 0xFF)))
      else
        let a := r.store + n * row
        let k := s.allowed o.slice a n false / 64 * 64
        let ls := (List.range (k / 64)).map (fun i => (s.mem.readBytes (a + 64 * i) 64, s.mem.marked (a + 64 * i)))
        (moveDone k n (ls.any (·.2)), (s.touchRange a k).modHull f (fun m => linesTo m dst ls))

/-- The effect of an S3 operation, by opcode. -/
def State.s3Do (s : State) (f : Nat) (o : AsyncOp) : Done × State :=
  match o.opc with
  | 0x68 => s.fillDo f o
  | 0x69 => s.invalDo f o
  | 0x6A => s.blockDo f o
  | 0x70 => s.gatherDo f o
  | 0x71 => s.adpDo f o
  | _ => s.moveDo f o

/-- MOVE_COMPLETE: an S3 operation finishes and its counter falls (R102). -/
def moveComplete (f : FurrowId) (id : Nat) (s : State) : State :=
  match s.op? f.val id with
  | none => s
  | some o =>
    if o.cls = .mov then
      let (d, s) := s.s3Do f.val o
      s.finish f.val id d
    else s

/-! ### Commands -/

/-- MOV_GH (R378). -/
def execMovGh (f : FurrowId) (o : Slot) (s : State) : Res := answer (runSlot opMovGh f o s)

/-- MOV_HG (R378). -/
def execMovHg (f : FurrowId) (o : Slot) (s : State) : Res := answer (runSlot opMovHg f o s)

/-- MOV_HH (R378). -/
def execMovHh (f : FurrowId) (o : Slot) (s : State) : Res := answer (runSlot opMovHh f o s)

/-- MOV_GG (R378). -/
def execMovGg (f : FurrowId) (o : Slot) (s : State) : Res := answer (runSlot opMovGg f o s)

/-- GLN_FILL (R243). -/
def execGlnFill (f : FurrowId) (o : Slot) (s : State) : Res := answer (runSlot opGlnFill f o s)

/-- GLN_INVAL (R244). -/
def execGlnInval (f : FurrowId) (o : Slot) (s : State) : Res := answer (runSlot opGlnInval f o s)

/-- CVT_BLK (R155). -/
def execCvtBlk (f : FurrowId) (o : Slot) (s : State) : Res := answer (runSlot opCvtBlk f o s)

/-- EMB_GATHER (R249). -/
def execEmbGather (f : FurrowId) (o : Slot) (s : State) : Res := answer (runSlot opEmbGather f o s)

/-- ADP_LD (R257). -/
def execAdpLd (f : FurrowId) (o : Slot) (s : State) : Res := answer (runSlot opAdpLd f o s)

/-- MOVE_COMPLETE (R102). -/
def execMoveComplete (f : FurrowId) (id : Nat) (s : State) : Res := answer (moveComplete f id s)

end Sys2Proof.Machine
end

