-- ==== Sys2Proof/Machine/FabOps.lean ====
section
/-! DEFINITION. The sender side of loads, stores, atomics, copies and notifies: issue, and what a reply does (R279 to R284,
R294, R297, R298, R379, R380). -/

namespace Sys2Proof.Machine

/-- The traffic class of an S4 instruction. -/
def Ctx.cls (c : Ctx) : Nat := c.mod / 256 % 8

/-- How a message came back: its response, and the completion it means. `void` says that a result is delivered as
poisoned 0xFF (R298, violation 9). -/
structure Reply where
  rsp : Rsp
  done : Done
  void : Bool := false

/-- Issue an operation of one message; with no usable port it completes at once with NO_ROUTE (R295). -/
def Ctx.sendOne (c : Ctx) (enc : EncSpec) (ask : State → Ask) (s : State) : State :=
  let (id, s) := c.issue enc .fab [] s
  match s.request (.op c.f id) c.slice (ask s) with
  | none => s.finish c.f id (Done.ofCode 0x5D)
  | some s => s.modOp c.f id (fun o => { o with left := 1 })

/-- Bytes of FAB.LD or FAB.ST (Table 14-11). -/
def ldBytes (mod : Nat) : Nat := 8 * 2 ^ (mod % 8)

/-- FAB.LD (R279, R294). -/
def opFabLd : SlotOp :=
  let enc : EncSpec :=
    { opc := 0x81, x := .g, y := .g, mods := 0xF0F, reserved := fun o => 6 ≤ o.mod.toNat % 8, ctr := true }
  { enc
    cls := some .fab
    checks := fun c s => ckHull c.x (ldBytes c.mod) 1 ++ ckGlobal s c.slice c.y (ldBytes c.mod)
    run := fun c s =>
      c.sendOne enc (fun _ => { op := 0x01, cls := c.cls, ord := c.mod.testBit 3, addr := c.y, len := ldBytes c.mod }) s }

/-- FAB.ST (R279). -/
def opFabSt : SlotOp :=
  let enc : EncSpec := { opc := 0x82, x := .g, y := .g, mods := 0x707, reserved := fun o => 6 ≤ o.mod.toNat % 8, ctr := true }
  { enc
    cls := some .fab
    checks := fun c s => ckGlobal s c.slice c.x (ldBytes c.mod) ++ ckHull c.y (ldBytes c.mod) 1
    run := fun c s =>
      let n := ldBytes c.mod
      let m := s.hull c.f
      let a := fld c.y 31 0
      c.sendOne enc
        (fun _ => { op := 0x02, cls := c.cls, addr := c.x, payload := m.readBytes a n, len := n, poison := m.anyPoison a n }) s }

/-- Bytes of an atomic. -/
def atomBytes (mod : Nat) : Nat := 4 * 2 ^ (mod / 16 % 8)

/-- Bytes of an atomic's operands: CAS carries two (Table 11-5). -/
def atomOperands (mod : Nat) : Nat := if mod % 16 = 6 then 2 * atomBytes mod else atomBytes mod

/-- FAB.ATOM (R280). A size the operation does not take is an ALIGNMENT fault (Table 14-5). -/
def opFabAtom : SlotOp :=
  let enc : EncSpec :=
    { opc := 0x84, x := .g, y := .g, z := .g, mods := 0x77F, ctr := true,
      reserved := fun o => 9 ≤ o.mod.toNat % 16 || 5 ≤ o.mod.toNat / 16 % 8 }
  { enc
    cls := some .fab
    checks := fun c s =>
      ckHull c.x (atomBytes c.mod) 1 ++ ckGlobal s c.slice c.y (atomBytes c.mod) ++
        chk (7 ≤ c.mod % 16 || atomBytes c.mod ≤ 8) 0x08 c.y ++ ckHull c.z (atomOperands c.mod) 1
    run := fun c s =>
      let k := atomOperands c.mod
      let m := s.hull c.f
      let a := fld c.z 31 0
      c.sendOne enc
        (fun _ => { op := 0x03, subop := c.mod % 16, cls := c.cls, addr := c.y,
                    payload := m.readBytes a k ++ fillBytes (pad8 k - k) 0, len := atomBytes c.mod,
                    poison := m.anyPoison a k }) s }

/-- FAB.NOTIFY (R284). -/
def opFabNotify : SlotOp :=
  let enc : EncSpec := { opc := 0x88, x := .g, y := .g, mods := 0x700, ctr := true }
  { enc
    cls := some .fab
    checks := fun c s => ckGlobal s c.slice c.x 1
    run := fun c s =>
      c.sendOne enc (fun _ => { op := 0x08, cls := c.cls, addr := c.x, payload := toBytes 8 c.y.toNat }) s }

/-! ### Copies and puts (R281, R380) -/

/-- Bytes a copy or put moves in all. -/
def AsyncOp.total (o : AsyncOp) : Nat := if o.opc = 0x83 then fld o.y 55 32 else o.z.toNat

/-- Bytes of its messages. -/
def AsyncOp.segment (o : AsyncOp) : Nat := min (if o.opc = 0x83 then 256 else 4096) (o.total - o.pos)

/-- The bytes of a local operand, poison, and how many of n may be read (R370). -/
def State.localRead (s : State) (f slice : Nat) (granary : Bool) (a n : Nat) : List Byte × Bool × Nat :=
  if granary then
    let k := s.allowed slice a n false
    (s.mem.readBytes a k, s.mem.anyPoison a k, k)
  else ((s.hull f).readBytes a n, (s.hull f).anyPoison a n, n)

/-- Write a local operand; answers how many bytes its frames allowed. -/
def State.localWrite (s : State) (f slice : Nat) (granary : Bool) (a : Nat) (bs : List Byte) (poison : Bool) : Nat × State :=
  if granary then
    let k := s.allowed slice a bs.length true
    (k, ((s.gwrite a (bs.take k) poison).gleanUpdate f a k).touchRange a k)
  else (bs.length, s.modHull f (fun m => m.store a bs poison))

/-- The next message of a copy or put, and how many bytes it moves (0: the local frame forbids it). -/
def State.chainAsk (s : State) (f : Nat) (o : AsyncOp) : Ask × Nat :=
  let n := o.segment
  let cls := o.mod / 256 % 8
  if o.opc = 0x83 then
    let a := fld o.y 31 0 + o.pos
    let m := s.hull f
    ({ op := 0x02, cls, addr := o.x + o.z * BitVec.ofNat 64 o.total + BitVec.ofNat 64 o.pos, payload := m.readBytes a n,
       len := n, poison := m.anyPoison a n, part := o.pos }, n)
  else if o.mod.testBit 0 then
    let (bs, p, k) := s.localRead f o.slice (o.mod.testBit 1) (o.y.toNat + o.pos) n
    ({ op := 0x05, cls, addr := o.x + BitVec.ofNat 64 o.pos, payload := bs, len := k, poison := p, part := o.pos }, k)
  else ({ op := 0x04, cls, addr := o.y + BitVec.ofNat 64 o.pos, len := n, part := o.pos }, n)

/-- Send while fewer than 64 messages are outstanding and none has failed (R281); `fuel` messages at most. -/
def State.chainPump (s : State) (f id : Nat) : (fuel : Nat) → State
  | 0 => s
  | k + 1 =>
    match s.op? f id with
    | none => s
    | some o =>
      if o.fail.isSome || o.total ≤ o.pos || 64 ≤ o.left then s
      else
        let n := o.segment
        let (a, got) := s.chainAsk f o
        let stop (s : State) (code : Nat) : State := s.modOp f id (fun o => { o with fail := o.fail.or (some (Done.ofCode code)) })
        if got = 0 then stop s 0x9B
        else
          match s.request (.op f id) o.slice a with
          | none => stop s 0x5D
          | some s =>
            let s := if o.opc = 0x85 && o.mod.testBit 0 && o.mod.testBit 1 then s.touchRange (o.y.toNat + o.pos) got else s
            let s := s.modOp f id (fun o => { o with pos := o.pos + got, left := o.left + 1 })
            State.chainPump (if got < n then stop s 0x9B else s) f id k

/-- A copy or put ends once nothing is outstanding and nothing more is to be sent. -/
def State.chainEnd (s : State) (f id : Nat) : State :=
  match s.op? f id with
  | none => s
  | some o =>
    if o.left = 0 && (o.fail.isSome || o.total ≤ o.pos) then
      let d := o.fail.getD Done.ok
      s.finish f id { d with poison := d.poison || o.latch.contains 1 }
    else s

/-- Start a copy or put. -/
def Ctx.chain (c : Ctx) (enc : EncSpec) (s : State) : State :=
  let (id, s) := c.issue enc .fab [] s
  (s.chainPump c.f id 64).chainEnd c.f id

/-- FAB.PUT (R380). -/
def opFabPut : SlotOp :=
  let enc : EncSpec := { opc := 0x83, x := .g, y := .g, z := .g, mods := 0x700, ctr := true }
  { enc
    cls := some .fab
    checks := fun c s =>
      let n := fld c.y 55 32
      let a := c.x + c.z * BitVec.ofNat 64 n
      ckGlobal s c.slice a 256 ++ chk (n % 256 == 0 && n != 0 && n ≤ 16776960) 0x08 c.y ++ ckBits c.y (2 ^ 56 - 1) ++
        ckHull (c.y &&& 0xFFFFFFFF) n 1
    run := fun c s => c.chain enc s }

/-- FAB.COPY (R281). -/
def opFabCopy : SlotOp :=
  let enc : EncSpec := { opc := 0x85, x := .g, y := .g, z := .g, mods := 0x703, ctr := true }
  { enc
    cls := some .fab
    checks := fun c s =>
      let out := c.mod.testBit 0
      let l := if out then c.y else c.x
      let g := if out then c.x else c.y
      (if c.mod.testBit 1 then ckGranary s c.slice l c.z.toNat 64 (!out) else ckHull64 l c.z) ++ ckGlobal s c.slice g 64 ++
        ckLength c.z 0x4000000
    run := fun c s => c.chain enc s }

/-! ### Replies -/

/-- A load or an atomic came back: its bytes, or poisoned 0xFF, into Hull (R279, R280, R298). -/
def State.replyLoad (s : State) (f : Nat) (o : AsyncOp) (m : FabOp) (r : Reply) : State :=
  let a := fld o.x 31 0
  let n := m.req.len
  let s :=
    if r.void then s.modHull f (fun h => h.writePoison a (fillBytes n 0xFF))
    else if r.done.code = 0 then s.modHull f (fun h => h.store a (r.rsp.payload.take n) r.rsp.poison)
    else s
  s.finish f o.id r.done

/-- A message of a copy or put came back (R281, R298). -/
def State.replyChain (s : State) (f : Nat) (o : AsyncOp) (m : FabOp) (r : Reply) : State :=
  let read := o.opc = 0x85 && !o.mod.testBit 0
  let put (s : State) (bs : List Byte) (p : Bool) : Nat × State :=
    s.localWrite f o.slice (o.mod.testBit 1) (o.x.toNat + m.part) bs p
  let (k, s) :=
    if read && r.void then put s (fillBytes m.req.len 0xFF) true
    else if read && r.done.code = 0 then put s (r.rsp.payload.take m.req.len) r.rsp.poison
    else (m.req.len, s)
  let bad : Option Done := if r.done.code != 0 then some r.done else if k < m.req.len then some (Done.ofCode 0x9B) else none
  let s := s.modOp f o.id (fun o =>
    { o with left := o.left - 1, fail := o.fail.or bad, latch := if r.done.poison then [1] else o.latch })
  (s.chainPump f o.id 64).chainEnd f o.id

/-- The reply to a message of a load, store, atomic, notify, copy or put. -/
def State.replyPlain (s : State) (f : Nat) (o : AsyncOp) (m : FabOp) (r : Reply) : State :=
  if o.opc = 0x81 || o.opc = 0x84 then s.replyLoad f o m r
  else if o.opc = 0x83 || o.opc = 0x85 then s.replyChain f o m r
  else s.finish f o.id r.done

/-! ### Commands -/

/-- FAB_LD (R279). -/
def execFabLd (f : FurrowId) (o : Slot) (s : State) : Res := answer (runSlot opFabLd f o s)

/-- FAB_ST (R279). -/
def execFabSt (f : FurrowId) (o : Slot) (s : State) : Res := answer (runSlot opFabSt f o s)

/-- FAB_ATOM (R280). -/
def execFabAtom (f : FurrowId) (o : Slot) (s : State) : Res := answer (runSlot opFabAtom f o s)

/-- FAB_NOTIFY (R284). -/
def execFabNotify (f : FurrowId) (o : Slot) (s : State) : Res := answer (runSlot opFabNotify f o s)

/-- FAB_PUT (R380). -/
def execFabPut (f : FurrowId) (o : Slot) (s : State) : Res := answer (runSlot opFabPut f o s)

/-- FAB_COPY (R281). -/
def execFabCopy (f : FurrowId) (o : Slot) (s : State) : Res := answer (runSlot opFabCopy f o s)

end Sys2Proof.Machine
end

