-- ==== Sys2Proof/Machine/Answer.lean ====
section
/-! DEFINITION. Responses at the requester: which operation one answers, its checks, retries and what it means (R291, R292,
R293, R298, R299, R302). -/

namespace Sys2Proof.Machine

/-- A code of Tables 5-4, 3-10, 7-5, 11-12, 13-9 and 14-7 that a response's STATUS may hold (Table 11-4), and the two of Table
10-9 with which R261 has a home node refuse an update. -/
def definedStatus (c : Nat) : Bool :=
  c = 0 || c = 0x10 || c = 0x16 || (0x20 ≤ c && c ≤ 0x2B) || c = 0x43 || c = 0x47 || (0x50 ≤ c && c ≤ 0x60) || (0x70 ≤ c && c ≤ 0x75) || c = 0x78 ||
    (0x80 ≤ c && c ≤ 0x9D)

/-- Bytes of data that an OK response to a request carries. A ship's body length stands in `len`; a LOOKUP is answered
with a header of Table 13-2 and a word more, a page write with a handle (R352, R354; log entry 25). -/
def answerBytes (m : Req) : Nat :=
  match m.op with
  | 0x01 => m.len
  | 0x03 => pad8 m.len
  | 0x04 => m.len
  | 0x06 => 65544
  | 0x07 => m.len
  | 0x0A => m.len
  | 0x0C => if leAt m.payload 12 1 = 14 then 32 else 0
  | _ => 0

/-- Write-class requests that an acknowledgement of a later SEQ completes (R291): those whose answer returns nothing. -/
def coverable (op : Nat) : Bool := [0x02, 0x05, 0x08, 0x0B, 0x0D].contains op

/-- Statuses of a PAGE response that say the holder refuses, not that the page cannot be had (R282). -/
def refusalStatus (c : Nat) : Bool := c = 0x25 || c = 0x26 || (0x50 ≤ c && c ≤ 0x5E)

/-- A SEQ lies at or below another, modulo 2^24. -/
def seqUpTo (a b : Nat) : Bool := (b + 2 ^ 24 - a) % 2 ^ 24 < 2 ^ 23

/-- Deadline not passed at a stamp (R299); the window of a group ends at its instant (R191). -/
def FabOp.inTime (o : FabOp) (stamp : Nat) : Bool :=
  match o.deadline with
  | none => true
  | some d => if o.group.isSome then stamp < d else stamp ≤ d

/-- What an accepted response means for its operation: BAD_LEN where its length disagrees with the request (a response with
a status carries no data), REFUSED where its status is not a defined code (R302). -/
def replyOf (o : FabOp) (r : Rsp) : Reply :=
  if r.payload.length != (if r.status = 0 then answerBytes o.req else 0) || r.payload.length != 8 * r.plen then
    ⟨r, { code := 0x58, poison := true }, true⟩
  else if r.status = 0 then ⟨r, { poison := r.poison || o.req.poison }, false⟩
  else if r.status = 0x60 then ⟨r, Done.ofCode 0x60, false⟩
  else ⟨r, { code := r.status, refused := o.req.op != 0x06 || refusalStatus r.status || !definedStatus r.status }, false⟩

/-- What the passing of an operation's deadline means for it (R298). -/
def lateReply (o : FabOp) : Reply :=
  let data := [0x01, 0x03, 0x04].contains o.req.op
  ⟨{ op := o.req.op + 128 }, { code := 0x5C, poison := data, timeout := true }, data⟩

/-- Port violations and counters that a response causes (R289, R302). -/
def State.answerFaults (s : State) (o : FabOp) (r : Rsp) (x : Reply) : State :=
  let s := if x.void then s.violation r.port 9 true false else s
  let s := if !definedStatus r.status then s.violation r.port 10 true false else s
  if x.done.refused then s.refusedOut o r.status else s

/-- SEQ_LOST: the stream's next request carries RESYNC (R293). -/
def State.seqLost (s : State) (o : FabOp) (status : Nat) : State :=
  if status = 0x5A then s.setTx o.stream { s.txStream o.stream with resync := true } else s

/-- Operations that a response completes: its own, and for an OK acknowledgement the earlier ones of its stream. -/
def State.covered (s : State) (o : FabOp) (r : Rsp) : List FabOp :=
  if r.status = 0 && writeClass o.req.op then
    s.fabOps.filter fun p =>
      p.tag != o.tag && p.stream == o.stream && coverable p.req.op && !p.unsent && p.inTime r.stamp && seqUpTo p.req.seq r.arg0
  else []

/-- Whether a port is ACTIVE again for less than 10 ms after a warm reset took it down (R484). -/
def State.freshAfterWarm (s : State) (port : Option PortId) : Bool :=
  match port with
  | none => false
  | some p => (s.port p.val).warmed && s.portState p.val = 5 && s.time < (s.rd ⟨.prtStatusTime, p.val, 0, 0⟩).toNat + 10000000

/-- A tag that names no operation in flight of the response's kind (R191, R299, R302); for 10 ms after a warm reset it counts
nothing toward quarantine (R484). -/
def State.strayAnswer (s : State) (r : Rsp) : State :=
  match Table.find s.closedTags r.tag with
  | none => s.violation r.port 6 (!s.freshAfterWarm r.port) false
  | some (node, why) =>
    if node != r.src then s.violation r.port 6 (!s.freshAfterWarm r.port) false
    else
      match why with
      | .late => s.bump ⟨.fabLateCnt, 0, 0, 0⟩
      | .aborted => s.bump ⟨.fabMgLateCnt, 0, 0, 0⟩
      | .silent => s
      | .answered => s.violation r.port 8 true false

/-- A response leaves the list of messages that wait inside the device. -/
def State.takeAnswer (s : State) (r : Rsp) : State := { s with answers := s.answers.erase r }

/-- An arriving response: the operations it completes with what it means for each, its own first; none where it is
discarded, or asks for a resend (R292). The operations are still in flight. -/
def State.answer (s : State) (r : Rsp) : List (FabOp × Reply) × State :=
  let s := s.takeAnswer r
  match s.fabOp? r.tag with
  | none => ([], s.strayAnswer r)
  | some o =>
    if r.op != o.req.op + 128 || o.unsent then ([], s.strayAnswer r)
    else if r.src != o.dst then ([], s.violation r.port 7 true false)
    else if !o.inTime r.stamp then
      ([], s.bump (if o.group.isSome then ⟨.fabMgLateCnt, 0, 0, 0⟩ else ⟨.fabLateCnt, 0, 0, 0⟩))
    else if r.status = 0x5E && o.retries < 4 then
      ([], s.modFab o.tag (fun o => { o with resendAt := some (s.time + 1000), again := true }))
    else
      let x := replyOf o r
      let s := (s.answerFaults o r x).seqLost o r.status
      ((o, x) :: (s.covered o r).map (fun p => (p, ⟨r, { poison := p.req.poison }, false⟩)), s)

/-- An operation in flight ends with an answer: its own, or one that covers it. -/
def State.closeAnswered (s : State) (o : FabOp) (r : Rsp) : State :=
  s.closeFab o.tag (if o.tag = r.tag then .answered else .silent)

end Sys2Proof.Machine
end

