-- ==== Sys2Proof/Machine/Journal.lean ====
section
/-! DEFINITION. The handover journal's records, who holds a request's pages, and which Furrow serves a message (R285, R334
to R336, R340). -/

namespace Sys2Proof.Machine

/-! ### The journal (R340, Table 13-4) -/

/-- A journal record. -/
structure JnlRec where
  request : Word := 0
  phase : Nat := 0
  sheaf : Nat := 0
  partner : Nat := 0
  pslice : Nat := 0
  epoch : Nat := 0
  target : Nat := 0
  d : Nat := 0
  e : Nat := 0
  time : Nat := 0
deriving DecidableEq, Repr

/-- log2 of a slice's journal size, none while it is disabled. -/
def State.jnlSize (s : State) (slice : Nat) : Option Nat :=
  let b := (s.rd ⟨.fabHoJnlBase, 0, slice, 0⟩).toNat
  let l := s.rdf ⟨.fabHoJnlCtl, 0, slice, 0⟩ 3 0
  if l = 0 || b = 0 then none else some l

/-- Address of record j of a slice's journal. -/
def State.jnlAddr (s : State) (slice j : Nat) : Nat := (s.rd ⟨.fabHoJnlBase, 0, slice, 0⟩).toNat + 64 * j

/-- Record j of a slice's journal. -/
def State.jnlAt (s : State) (slice j : Nat) : JnlRec :=
  let a := s.jnlAddr slice j
  let w1 := s.gword (a + 8)
  let w2 := s.gword (a + 16)
  { request := s.gword a, phase := fld w1 3 0, sheaf := fld w1 18 4, partner := fld w1 32 19, pslice := fld w1 38 33,
    epoch := fld w2 31 0, target := fld w2 35 32, d := (s.gword (a + 24)).toNat, e := (s.gword (a + 32)).toNat,
    time := (s.gword (a + 40)).toNat }

/-- The first record of a slice's journal that passes a test. -/
def State.jnlFind (s : State) (slice : Nat) (p : JnlRec → Bool) : Option Nat :=
  match s.jnlSize slice with
  | none => none
  | some l => firstBelow (2 ^ l) (fun j => p (s.jnlAt slice j))

/-- The handover interrupt of a slice is cleared once none of its records is UNRESOLVED (R350, R400). -/
def State.handoverSettled (s : State) (slice : Nat) : State :=
  if (s.jnlFind slice (fun r => r.phase = 11)).isSome then s else s.releaseIrq (73 + slice)

/-- Write record j of a slice's journal; TIME is the moment of a phase change. -/
def State.setJnl (s : State) (slice j : Nat) (r : JnlRec) : State :=
  let a := s.jnlAddr slice j
  let was := (s.jnlAt slice j).phase
  let t := if was = r.phase then r.time else s.time
  let w1 := r.phase % 16 + r.sheaf % 2 ^ 15 * 2 ^ 4 + r.partner % 2 ^ 14 * 2 ^ 19 + r.pslice % 64 * 2 ^ 33
  let w2 := r.epoch % 2 ^ 32 + r.target % 16 * 2 ^ 32
  let s := (((((s.setGword a r.request).setGword (a + 8) (BitVec.ofNat 64 w1)).setGword (a + 16) (BitVec.ofNat 64 w2)).setGword
    (a + 24) (BitVec.ofNat 64 r.d)).setGword (a + 32) (BitVec.ofNat 64 r.e)).setGword (a + 40) (BitVec.ofNat 64 t)
  if was = 11 && r.phase != 11 then s.handoverSettled slice else s

/-- A free record of a slice's journal. -/
def State.jnlFree (s : State) (slice : Nat) : Option Nat := s.jnlFind slice (fun r => r.phase = 0)

/-! ### Holders (R335, R336) -/

/-- What a node holds of a request: the Sheaf entry, or a hold record of a slice. -/
inductive Holding where
  | entry (i : Nat)
  | hold (slice j : Nat)
deriving DecidableEq, Repr

/-- What this node holds of a request for a slice. -/
def State.holding (s : State) (slice : Nat) (req : Word) : Option Holding :=
  match s.ownRequest slice req with
  | some i => some (.entry i)
  | none => (s.holdFind slice req).map (.hold slice)

/-- COMMIT has been sent for an entry in HANDOVER_OUT. -/
def State.commitSent (s : State) (slice i : Nat) : Bool :=
  (s.jnlFind slice (fun r => r.sheaf = i && r.request == (s.entry i).reqId && (r.phase = 2 || r.phase = 3))).isSome

/-- An entry received by handover whose CONFIRM has not been recorded: its own ships and pulls are refused (R345, R350). -/
def State.unconfirmed (s : State) (i : Nat) : Bool :=
  let e := s.entry i
  (s.jnlFind e.slice (fun r => r.sheaf = i && r.request == e.reqId && (r.phase = 9 || r.phase = 11))).isSome

/-- R336: whether a message of a node at an epoch is served from a holding. -/
def State.epochServed (s : State) (slice src epoch : Nat) : Holding → Bool
  | .entry i =>
    let e := s.entry i
    epoch = e.epoch ||
      (e.state = .handoverOut && src = e.partner && epoch = (e.epoch + 1) % 2 ^ 32 && s.commitSent slice i)
  | .hold sl j => epoch = (s.holdAt sl j).epoch

/-- The root handle of a holding. -/
def State.holdingRoot (s : State) : Holding → Word
  | .entry i => (s.entry i).root
  | .hold sl j => (s.holdAt sl j).root

/-- Data members of a mirror policy: 1 for MIRROR2, 4 and 8 for the codes (Table 13-1). -/
def dataMembers (policy : Nat) : Nat := match policy with | 2 => 4 | 3 => 8 | _ => 1

/-- A hold record of a parity member (R336). -/
def HoldRec.parity (h : HoldRec) : Bool := (h.policy = 2 || h.policy = 3) && dataMembers h.policy ≤ h.member

/-- A holding of a parity member. -/
def State.holdingParity (s : State) : Holding → Bool
  | .entry _ => false
  | .hold sl j => (s.holdAt sl j).parity

/-- Where a walk of a holding takes its latched length from. -/
def Holding.source : Holding → LenSource
  | .entry i => .entry i false
  | .hold sl j => .hold sl j

/-- The Field that serves a holding's messages (R285). -/
def State.holdingField (s : State) : Holding → Nat
  | .entry i => i / 8192
  | .hold sl j => frameStack (handleFrame (s.holdAt sl j).root)

/-- Outstanding MAT operations of a Furrow: its own, and the ships its arrays serve for it. -/
def State.matLoad (s : State) (f : Nat) : Nat :=
  (s.furrow f).outstanding .mat + (s.walks.filter (fun w => w.kind == .qship && w.furrow == f)).length

/-- The Furrow of a list with the fewest outstanding MAT operations, the lowest on a tie. -/
def State.leastMat (s : State) : List Nat → Option Nat
  | [] => none
  | f :: t =>
    match s.leastMat t with
    | none => some f
    | some g => if s.matLoad g < s.matLoad f then some g else some f

/-- The Furrow that serves a QSHIP or PULL of a slice (R285). -/
def State.servingFurrow (s : State) (slice field : Nat) : Option Nat :=
  let mine := (List.range 64).filter (fun f => s.bound f = some slice && s.domainOn f)
  match s.leastMat (mine.filter (fun f => f / 16 = field)) with
  | some f => some f
  | none => mine.head?

end Sys2Proof.Machine
end

