-- ==== Sys2Proof/Machine/Husk.lean ====
section
/-! DEFINITION. The Husk port: page elements, EW11 blocks, tag checks, the codebook directory, encodes and decodes (R68,
R139 to R141, R192 to R212). -/

namespace Sys2Proof.Machine

/-! ### Pages (R68, R140, R196, R197) -/

/-- How a page of key/value data is filled: format, KV heads H, head dimension D, token slots T. -/
structure PageFmt where
  fmt : Nat
  heads : Nat
  dim : Nat
  tokens : Nat
deriving DecidableEq, Repr

/-- k_f. -/
def PageFmt.kf (p : PageFmt) : Nat := keyBytes p.fmt p.dim
/-- s_f. -/
def PageFmt.sf (p : PageFmt) : Nat := scaleBytes p.fmt p.heads p.dim
/-- T × B_f. -/
def PageFmt.size (p : PageFmt) : Nat := p.tokens * tokenBytes p.fmt p.heads p.dim
/-- Offset of the block of part c (0 K, 1 V), head h and token slot t. -/
def PageFmt.block (p : PageFmt) (c h t : Nat) : Nat := ((c * p.heads + h) * p.tokens + t) * p.kf
/-- Offset of the exponents of token slot t. -/
def PageFmt.scales (p : PageFmt) (t : Nat) : Nat := 2 * p.heads * p.tokens * p.kf + t * p.sf
/-- Place of the exponent of part c, head h and group g within a slot (Table 6-1). -/
def PageFmt.expPlace (p : PageFmt) (c h g : Nat) : Nat :=
  match p.fmt with
  | 0x03 => c
  | 0x04 => c * p.heads + h
  | _ => (c * p.heads + h) * (p.dim / 32) + g
/-- Elements of a subvector. -/
def PageFmt.sub (p : PageFmt) : Nat := if p.fmt = 0x20 then 4 else 2
/-- Bytes of a codebook (R196). -/
def PageFmt.bookBytes (p : PageFmt) : Nat := 1024 * p.heads * p.dim
/-- Offset of an entry in a codebook (R196). -/
def PageFmt.bookAt (p : PageFmt) (c h j x : Nat) : Nat := (c * p.heads + h) * 512 * p.dim + (j * 256 + x) * 2 * p.sub

/-- Formats whose decode checks the frame's tag (R207). -/
def tagged (fmt : Nat) : Bool := 3 ≤ fmt

/-- Key/value format codes. -/
def kvFormat (fmt : Nat) : Bool := (fmtPlace fmt).isSome

/-- The shape of a layer's pages, none where the model has no geometry record. -/
def State.pageFmt (s : State) (model fmt : Nat) : Option PageFmt :=
  (s.geometry model).map (fun g => ⟨fmt, g.kvHeads, g.dim, g.tokens fmt⟩)

/-- A 64-byte line as a Furrow's Husk port reads it, through Glean, with its mark (R212, R242). -/
def State.portLine (s : State) (n a : Nat) : List Byte × Bool :=
  match (s.furrow n).gleanLine a none with
  | some l => s.gleanData n l
  | none => (s.mem.readBytes (a / 64 * 64) 64, s.mem.marked a)

/-- The elements of one codebook entry, none where its line is poisoned. -/
def State.bookEntry (s : State) (n : Nat) (p : PageFmt) (base c h j x : Nat) : List (Option FVal) :=
  let a := base + p.bookAt c h j x
  let (bs, bad) := s.portLine n a
  (List.range p.sub).map (fun i => if bad then none else some (bf16.decode (leAt bs (a % 64 + 2 * i) 2)))

/-- The elements of part c, head h of a token slot, each none where a void exponent governs it or a poisoned line holds
it (R139, R140, R197, R436). `n` is the Furrow whose port decodes and `book` the codebook's first byte. -/
def State.pageHead (s : State) (n : Nat) (p : PageFmt) (frame book c h t : Nat) : List (Option FVal) :=
  let a := frameAddr frame + p.block c h t
  let codes (f : Nat) : List Nat := rowCodes f p.dim (s.mem.readBytes a p.kf)
  let ex (g : Nat) : Nat := expByte s.mem (frameAddr frame + p.scales t + p.expPlace c h g)
  let scaled (f : Nat) : List (Option FVal) :=
    (codes f).zipIdx.map fun q =>
      let e := ex (q.2 / 32)
      if e = voidExp then none else some (FVal.scale (expVal e) (codeVal f q.1))
  if s.mem.anyPoison a p.kf then List.replicate p.dim none
  else
    match p.fmt with
    | 0x01 => (codes 6).map (fun x => some (bf16.decode x))
    | 0x02 => (codes 7).map (fun x => some (fp16.decode x))
    | 0x03 => scaled 4
    | 0x04 => scaled 0
    | 0x05 => scaled 2
    | _ => (s.mem.readBytes a p.kf).zipIdx.flatMap (fun q => s.bookEntry n p book c h q.2 q.1.toNat)

/-- The codebook rows that a set of token slots reads, each counted once as a hit or a miss of the port's Glean (R212,
R242). -/
def State.countBook (s : State) (n : Nat) (p : PageFmt) (frame book : Nat) (slots : List Nat) : State :=
  if !isPQ p.fmt then s
  else
    let rows := slots.flatMap fun t => (List.range 2).flatMap fun c => (List.range p.heads).flatMap fun h =>
      (s.mem.readBytes (frameAddr frame + p.block c h t) p.kf).zipIdx.map
        (fun q => (book + p.bookAt c h q.2 q.1.toNat) / 64 * 64)
    rows.eraseDups.foldl (fun s a => (s.gleanRead n a none).2) s

/-! ### Codebook records (R201 to R206) -/

/-- A generation record (Table 8-4). -/
structure CbRec where
  frame : Nat
  live : Bool
  closed : Bool
  fmt : Nat
  heads : Nat
  dim : Nat
  owner : Nat
  pages : Nat
  queued : Nat
deriving DecidableEq, Repr

/-- The record at an address. -/
def State.cbAt (s : State) (a : Nat) : CbRec :=
  let w := s.gword a
  let v := s.gword (a + 8)
  ⟨fld w 23 0, fld w 25 24 = 1, w.getLsbD 26, fld w 35 28, fld w 40 36, fld w 50 41, fld w 56 51, fld v 31 0, fld v 47 32⟩

/-- The record of a codebook, if there is one. -/
def State.cbRec (s : State) (id gen : Nat) : Option CbRec := (s.cbAddr id gen).map s.cbAt

/-- Word 0x00 of a record. -/
def CbRec.word (r : CbRec) : Word :=
  BitVec.ofNat 64 (r.frame % 2 ^ 24 + bitVal r.live 24 + bitVal r.closed 26 + r.fmt % 256 * 2 ^ 28 + r.heads % 32 * 2 ^ 36 +
    r.dim % 1024 * 2 ^ 41 + r.owner % 64 * 2 ^ 51)

/-- The geometry of a record matches a page's (R205). -/
def CbRec.fits (r : CbRec) (p : PageFmt) : Bool := r.fmt = p.fmt && r.heads = p.heads && r.dim = p.dim

/-- R205 for an encode: CB_MISSING, CB_CLOSED, CB_GEOMETRY, or 0. -/
def State.encodeBook (s : State) (slice : Nat) (p : PageFmt) (id gen : Nat) : Nat :=
  match s.cbRec id gen with
  | none => 0x30
  | some r =>
    if !r.live || r.owner != slice then 0x30 else if r.closed then 0x31 else if !r.fits p then 0x32 else 0

/-- R205 for a decode on behalf of a slice: the codebook's first byte. -/
def State.decodeBook (s : State) (slice : Nat) (p : PageFmt) (id gen : Nat) : Option Nat :=
  match s.cbRec id gen with
  | none => none
  | some r => if r.live && r.owner = slice && r.fits p then some (frameAddr r.frame) else none

/-- A codebook selector's fields (Table 14-4). -/
def cbSel (w : Word) : Nat × Nat := (fld w 19 0, fld w 23 20)

/-- The checks of CB.LOAD and CB.RETIRE: a LIVE record of another slice raises PROTECTION (R206). -/
def ckBook (s : State) (slice : Nat) (w : Word) : List (Nat × Word) :=
  ckBits w (2 ^ 47 - 1) ++
    chk (match s.cbRec (cbSel w).1 (cbSel w).2 with | none => true | some r => !r.live || r.owner = slice) 0x06 w

/-- CB.LOAD's status, and what the record becomes (R202). -/
def State.cbLoad (s : State) (slice : Nat) (w h : Word) : Nat × State :=
  let (id, gen) := cbSel w
  let fmt := fld w 31 24
  let heads := fld w 36 32
  let dim := fld w 46 37
  let n := ceilDiv (1024 * heads * dim) 65536
  let frames := (List.range n).map (· + handleFrame h)
  match s.cbAddr id gen with
  | none => (0x86, s)
  | some a =>
    let r := s.cbAt a
    if r.live then (0x99, s)
    else if !isPQ fmt || heads < 1 || 16 < heads || dim < 32 || 512 < dim || dim % 32 != 0 then (0x86, s)
    else if !s.current h then (0x83, s)
    else if !frames.all (fun f => (s.frame f).kind = 3 && s.frameOf slice f) then (0x9B, s)
    else
      let s := s.setGword a ({ r with frame := handleFrame h, live := true, closed := false, fmt, heads, dim, owner := slice } : CbRec).word
      let s := { s with cbFrames := frames.foldl (fun t f => Table.set t f (cbKey id gen)) s.cbFrames }
      (if r.pages = 0 then 0 else 0x37, s)

/-- CB.LOAD (R202, R517). -/
def opCbLoad : SlotOp :=
  { enc := { opc := 0xEF, x := .g, y := .g, z := .h, dx := true, ctr := true }
    cls := some .sys
    checks := fun c s => ckBook s c.slice c.y ++ ckHandle s c.slice (c.r.hr c.o.z.val) false
    run := fun c s =>
      let (code, s) := s.cbLoad c.slice c.y (c.r.hr c.o.z.val)
      c.status code 0 s }

/-- CB.RETIRE's status and effect (R204). -/
def State.cbRetire (s : State) (w : Word) : Nat × State :=
  let (id, gen) := cbSel w
  match s.cbAddr id gen with
  | none => (0x86, s)
  | some a =>
    let r := s.cbAt a
    if !r.live then (0, s)
    else if r.pages = 0 && r.queued = 0 then
      let s := s.setGword a ({ r with live := false, closed := false } : CbRec).word
      (0, { s with cbFrames := s.cbFrames.filter (fun p => p.2 != cbKey id gen) })
    else (0x87, s.setGword a ({ r with closed := true } : CbRec).word)

/-- CB.RETIRE (R204). -/
def opCbRetire : SlotOp :=
  { enc := { opc := 0xF0, x := .g, y := .g, dx := true, ctr := true }
    cls := some .sys
    checks := fun c s => ckBook s c.slice c.y
    run := fun c s =>
      let (code, s) := s.cbRetire c.y
      c.status code 0 s }

/-- CB.STAT and CB.STAT.CNT (R206); an ID without a record reads 0 (log entry 18). -/
def opCbStat : SlotOp :=
  { enc := { opc := 0xF1, x := .g, y := .g, dx := true, mods := 1 }
    cls := some .sys
    checks := fun c _ => ckBits c.y (2 ^ 47 - 1)
    run := fun c s =>
      let v := match s.cbAddr (cbSel c.y).1 (cbSel c.y).2 with
        | none => 0
        | some a => s.gword (if c.mod.testBit 0 then a + 8 else a)
      s.setG c.f c.o.x.val v }

/-! ### Tag checks and corrupt frames (R207 to R209) -/

/-- A frame found corrupt: poisoned, recorded, counted (R208). -/
def State.corruptFrame (s : State) (frame n cause : Nat) : State :=
  ((s.setFrame frame { s.frame frame with poisoned := true }).bump ⟨.hskCorruptCnt, n, 0, 0⟩).faultRecord cause frame s.node
    (s.frame frame).slice 0

/-- Table 8-5 for a key/value page: the code, 0 when it may be decoded, and the codebook's first byte. -/
def State.tagCheck (s : State) (frame slice : Nat) (p : PageFmt) : Nat × Nat :=
  let t := s.tag frame
  if !tagged p.fmt then (0, 0)
  else if !tagValid t || tagFmt t != (s.frame frame).stamp || tagLen t != p.size then (0x29, 0)
  else if !isPQ p.fmt then (0, 0)
  else
    match s.decodeBook slice p (tagCb t).1 (tagCb t).2 with
    | none => (0x28, 0)
    | some b => (0, b)

/-- Open a page for a decode by the port of Furrow n: the checks of Table 3-10, then those of Table 8-5, with what they
count and record. Answers the code and the codebook's first byte. -/
def State.openPage (s : State) (n slice : Nat) (p : PageFmt) (h : Word) : (Nat × Nat) × State :=
  match s.handleCheck h p.fmt with
  | 0 =>
    let f := handleFrame h
    match s.tagCheck f slice p with
    | (0x29, _) => ((0x29, 0), s.corruptFrame f n 0x29)
    | (0x28, _) => ((0x28, 0), s.bump ⟨.hskCbMissCnt, n, 0, 0⟩)
    | (_, b) => ((0, b), s.touch f)
  | code => ((code, 0), s)

/-- An arriving page is checked and its frame filled, tagged and stamped (R200, R209, R514); `n` is the Furrow that
writes it. A whole frame's payload is compared as the LENGTH coded bytes within it (log entry 21). A run-ahead pull
writes no fault record (R111). -/
def State.pageArrives (s : State) (frame n fmt : Nat) (t : Word) (bs : List Byte) (poison ra : Bool) : State :=
  let s := s.gwrite (frameAddr frame) (bs.take 65536) poison
  let fits := bs.length = tagLen t || (bs.length = 65536 && tagLen t ≤ 65536)
  let ok := (s.tagAddr frame).isSome && fits && tagFmt t = fmt
  let s := (s.setTag frame t)
  let d := s.frame frame
  let s := s.setFrame frame { d with stamp := tagFmt t, poisoned := d.poisoned || poison || !ok, age := if ra then d.age else 0 }
  if ok then s else if ra then s.bump ⟨.hskCorruptCnt, n, 0, 0⟩ else s.corruptFrame frame n 0x29

/-! ### EW11 (R193 to R195) -/

/-- Bytes of an EW11 block. -/
def ewBytes : Nat := 90

/-- The elements of a block, none where it is void. -/
def ewDecode (bs : List Byte) : List (Option FVal) :=
  let top := leAt bs 0 1
  let v := leAt bs 2 88
  (List.range 64).map fun j =>
    let e := bits v (11 * j + 10) (11 * j)
    let o := bits e 9 7
    let m := bits e 6 0
    if top = 0xFF then none
    else if o = 7 then some (.fin (e.testBit 10) m ((top : Int) - 140))
    else some (.fin (e.testBit 10) (128 + m) ((top : Int) - o - 134))

/-- SIZE of a block. -/
def ewSizeOk (bs : List Byte) : Bool := bits (leAt bs 1 1) 7 6 = 2

/-- The 11-bit code of one BF16 element under a block's TOP, and whether it is flushed. -/
def ewElem (top c : Nat) : Nat × Bool :=
  let sign := bits c 15 15 * 1024
  let ex := bits c 14 7
  let man := bits c 6 0
  if ex = 0 || ex + 7 < top then (sign + 7 * 128, bits c 14 0 != 0)
  else if ex + 7 = top then
    let q := 64 + man / 2 + (if man % 4 = 3 then 1 else 0)
    (if q = 128 then sign + 6 * 128 else sign + 7 * 128 + q, false)
  else (sign + (top - ex) * 128 + man, false)

/-- A block of 64 BF16 codes: its bytes without FLUSH, how many elements are flushed, and whether it is void. -/
def ewEncode (cs : List Nat) : List Byte × Nat × Bool :=
  if cs.any (fun c => bits c 14 7 = 0xFF) then (toBytes 2 0x80FF ++ fillBytes 88 0, 0, true)
  else
    let top := (cs.map (fun c => bits c 14 7)).foldl max 0
    let es := cs.map (ewElem top)
    let v := es.zipIdx.foldl (fun a p => a + p.1.1 * 2 ^ (11 * p.2)) 0
    (toBytes 2 (top + 0x8000) ++ toBytes 88 v, (es.filter (·.2)).length, false)

/-! ### HSK.ENC (R210) -/

/-- Sheaf index of a Sheaf operand. -/
def sheafIx (w : Word) : Nat := fld w 14 0

/-- The root frame of an entry's page table, if its handle names one (R515). -/
def State.entryRoot (s : State) (i : Nat) : Option Nat := s.localFrame (s.entry i).root

/-- Format codes of HSK.ENC and HSK.DEC. -/
def hskFormat (dec : Bool) (m : Nat) : Bool := kvFormat m || (dec && m = 0x10)

/-- An encode descriptor (Table 8-7). -/
structure EncDesc where
  rows : Nat
  wide : Bool
  stat : Bool
  set : Nat
  cb : Nat
  gen : Nat
deriving DecidableEq, Repr

/-- The encode descriptor in 16 bytes. -/
def encDescOf (bs : List Byte) : EncDesc :=
  let w := leAt bs 0 8
  let v := leAt bs 8 8
  ⟨bits w 31 0, w.testBit 32, w.testBit 33, bits w 35 34, bits v 19 0, bits v 23 20⟩

/-- Bytes of a token row of the source. -/
def EncDesc.rowBytes (d : EncDesc) (p : PageFmt) : Nat := 2 * p.heads * p.dim * (if d.wide then 4 else 2)

/-- The encode descriptor an instruction names. -/
def Ctx.encDesc (c : Ctx) (s : State) : EncDesc := encDescOf ((s.hull c.f).readBytes (fld c.y 31 0 + 0x40) 16)

/-- The Winnow pair of a Field's unit in service (R19, R213). -/
def State.winnowUp (s : State) (field : Nat) : Bool :=
  let i := field / 2
  let u := s.unit (.winnowPair (Fin.ofNat 2 i))
  s.domainOn (116 + i) && !u.failed && !u.fenced

/-- The Winnow unit that takes a Field's operations: its own, else the available one of lowest Field number (R213). -/
def State.winnowFor (s : State) (field : Nat) : Option Nat :=
  if s.winnowUp field then some field else firstBelow 4 s.winnowUp

/-- A Winnow unit. -/
def State.winnowAt (s : State) (f : Nat) : UnitQueue := Table.get {} s.winnow f
/-- Change a Winnow unit. -/
def State.modWinnow (s : State) (f : Nat) (g : UnitQueue → UnitQueue) : State :=
  { s with winnow := Table.set s.winnow f (g (s.winnowAt f)) }

/-- The unit's queue of 64 is full (R213). -/
def State.winnowFull (s : State) (field : Nat) : Bool :=
  match s.winnowFor field with
  | none => false
  | some f => 64 ≤ (s.winnowAt f).queue.length

/-- Queue an operation of a Furrow's on Winnow. -/
def State.winnowPut (s : State) (field : Nat) (j : UnitJob) : State :=
  match s.winnowFor field with
  | none => s
  | some f => s.modWinnow f (fun u => { u with queue := u.queue ++ [j] })

/-- Operations queued on units that are not available go to the available one as it has places, in arrival order (R213). -/
def State.winnowShift (s : State) : State :=
  (List.range 4).foldl (fun s f =>
    match s.winnowFor f with
    | none => s
    | some g =>
      let n := 64 - (s.winnowAt g).queue.length
      let q := (s.winnowAt f).queue
      if g = f || q.isEmpty || n = 0 then s
      else
        (s.modWinnow f (fun u => { u with queue := q.drop n })).modWinnow g (fun u => { u with queue := u.queue ++ q.take n })) s

/-- Pages covered by positions [a, b): list indices. -/
def pageSpan (t a b : Nat) : List Nat :=
  if t = 0 || b ≤ a then [] else (List.range ((b - 1) / t - a / t + 1)).map (· + a / t)

/-- The handle of page k of a layer; past its pages there is a hole. -/
def State.layerPage (s : State) (e : LayerEnt) (k : Nat) : Word :=
  if e.enabled && k < e.pages then s.gword (e.addr k) else 0

/-- The first failing status of Table 3-10 over a list of handles. -/
def State.firstBad (s : State) (fmt : Nat) (hs : List Word) : Nat :=
  (hs.map (fun h => s.handleCheck h fmt)).find? (· != 0) |>.getD 0

/-- The status HSK.ENC completes with before its elements are looked at, and the frames it writes (R82, R83, R210,
R514). An entry without a provisional tail refuses position L with BEYOND_TAIL (log entry 18). -/
def State.encodeStatus (s : State) (slice i l fmt : Nat) (d : EncDesc) : Nat × List Nat :=
  let e := s.entry i
  if e.state = .free then (0x21, [])
  else
    match s.geometry e.model with
    | none => (0x21, [])
    | some g =>
      if g.layers ≤ l then (0x21, [])
      else if tagged fmt && (s.rd ⟨.hskTagBase, 0, 0, 0⟩) = 0 then (0x86, [])
      else if e.tail = 0 then (0x97, [])
      else
        match s.entryRoot i with
        | none => (0x80, [])
        | some root =>
          let le := s.layer root l
          let t := g.tokens le.fmt
          let ks := pageSpan t e.len (e.len + e.tail)
          let hs := ks.map (s.layerPage le)
          let bad := s.firstBad le.fmt hs
          let p : PageFmt := ⟨fmt, g.kvHeads, g.dim, t⟩
          if t = 0 then (0x80, [])
          else if bad != 0 then (bad, [])
          else if hs.any (fun h => s.guarded (handleFrame h)) then (0x81, [])
          else if fmt != le.fmt then (0x10, [])
          else if !isPQ fmt then (0, hs.map handleFrame)
          else
            match s.encodeBook slice p d.cb d.gen with
            | 0 =>
              let other := ks.any fun k =>
                let g := s.tag (handleFrame (s.layerPage le k))
                tagValid g && k * t < e.len && tagCb g != (d.cb, d.gen)
              if other then (0x36, []) else (0, hs.map handleFrame)
            | code => (code, [])

/-- HSK.ENC.fmt (R210). Its statuses are found when the port accepts it, and its rows are read when it completes. -/
def opHskEnc : SlotOp :=
  let enc : EncSpec :=
    { opc := 0xA1, x := .g, y := .g, z := .g, mods := 0xFF, badMod := fun o => !hskFormat false (o.mod.toNat % 256), ctr := true }
  let rows (c : Ctx) (s : State) : Nat :=
    let e := s.entry (sheafIx c.x)
    match s.pageFmt e.model (c.mod % 256) with
    | none => 0
    | some p => if e.state = .free then 0 else e.tail * (c.encDesc s).rowBytes p
  { enc
    cls := some .cod
    stalls := fun c s => isPQ (c.mod % 256) && s.winnowFull c.field
    checks := fun c s =>
      let d := c.encDesc s
      ckSheaf s c.slice c.x ++ ckHull c.y 0x50 64 ++ chk (d.rows % 64 == 0) 0x08 (BitVec.ofNat 64 d.rows) ++
        chk (d.rows + rows c s ≤ 0x300000) 0x05 (BitVec.ofNat 64 d.rows) ++ ckLayer c.z ++
        chk (!isPQ (c.mod % 256) || (s.winnowFor c.field).isSome) 0x07 0
    run := fun c s =>
      let bs := (s.hull c.f).readBytes (fld c.y 31 0 + 0x40) 16
      let d := encDescOf bs
      let e := s.entry (sheafIx c.x)
      let fmt := c.mod % 256
      let (code, fs) := s.encodeStatus c.slice (sheafIx c.x) (fld c.z 8 0) fmt d
      let (id, s) := c.issue enc .cod [bs] s
      let p := (s.pageFmt e.model fmt).getD ⟨fmt, 0, 0, 0⟩
      let s := s.modOp c.f id (fun o =>
        { o with fail := if code = 0 then none else some (Done.ofCode code)
                 latch := [e.len, e.tail, p.tokens, p.heads, p.dim] ++ fs })
      let s := if isPQ fmt then s.cbCount d.cb d.gen true true else s
      if code = 0 && isPQ fmt then s.winnowPut c.field ⟨true, c.f, id⟩ else s }

/-- The nearest entry of a subspace: its code and elements (R198). Squares are exact and each addition rounds once
(log entry 18). -/
def State.nearest (s : State) (n : Nat) (p : PageFmt) (book c h j : Nat) (xs : List FVal) : Nat × List FVal :=
  let entry (x : Nat) : List FVal := (s.bookEntry n p book c h j x).map (fun v => v.getD .nan)
  let dist (x : Nat) : FVal :=
    (List.zipWith (fun a b => fp32.decode (fp32.encode (FVal.add a (FVal.neg b)))) xs (entry x)).foldl
      (fun acc d => fp32.decode (fp32.encode (FVal.add acc (FVal.mul d d)))) FVal.zero
  let best := (List.range 256).foldl (fun (b : Nat × FVal) x => if FVal.lt (dist x) b.2 then (x, dist x) else b) (0, dist 0)
  (best.1, entry best.1)

/-- What one head of one token encodes to: its bytes, its exponents, the decoded values for the statistics (none where
the group is void), and whether every element was finite. -/
structure HeadCode where
  bytes : List Byte
  exps : List Nat := []
  back : List (Option FVal) := []
  clip : List Bool := []
  finite : Bool := true

/-- Codes under chosen exponents, in groups of `n` (R141). -/
def encodeGroups (t : Narrow) (fmt n : Nat) (xs : List FVal) : HeadCode :=
  let gs := (chunks n xs).map (fun g => (chooseExp t g, quantGroup t (chooseExp t g) (fun _ => .nearest) 0 g))
  { bytes := packRow fmt 0 (gs.flatMap (fun g => g.2.1)), exps := gs.map (·.1), back := gs.flatMap (fun g => g.2.2.map (·.q)),
    clip := gs.flatMap (fun g => g.2.2.map (·.clip)), finite := xs.all FVal.isFinite }

/-- Codes of a part under one exponent chosen over all its heads (format 0x03). -/
def encodePart (xs : List FVal) : HeadCode := encodeGroups (.fp e4m3) 4 xs.length xs

/-- One head's elements stored as BF16 or FP16 (R154). -/
def encodePlain (f : FFmt) (xs : List FVal) : HeadCode :=
  let rs := xs.map (fun x => f.narrow .nearest x)
  { bytes := rs.flatMap (fun r => toBytes 2 r.1), back := rs.map (fun r => some (f.decode r.1)), clip := rs.map (·.2) }

/-- The heads of one token row in order K then V (R210). -/
def State.encodeRow (s : State) (n : Nat) (p : PageFmt) (book : Nat) (row : List FVal) : List HeadCode :=
  let heads := chunks p.dim row
  match p.fmt with
  | 0x01 => heads.map (encodePlain bf16)
  | 0x02 => heads.map (encodePlain fp16)
  | 0x03 =>
    (chunks (p.heads * p.dim) row).flatMap fun part =>
      let c := encodePart part
      (chunks p.dim c.bytes).zipIdx.map fun b =>
        { bytes := b.1, exps := if b.2 = 0 then c.exps else [], back := (c.back.drop (b.2 * p.dim)).take p.dim,
          clip := (c.clip.drop (b.2 * p.dim)).take p.dim, finite := c.finite }
  | 0x04 => heads.map (encodeGroups (.int 8 true) 0 p.dim)
  | 0x05 => heads.map (encodeGroups (.int 4 true) 2 32)
  | _ =>
    heads.zipIdx.map fun h =>
      let subs := (chunks p.sub h.1).zipIdx.map (fun x => s.nearest n p book (h.2 / p.heads) (h.2 % p.heads) x.2 x.1)
      { bytes := subs.map (fun x => BitVec.ofNat 8 x.1), back := subs.flatMap (fun x => x.2.map some),
        clip := List.replicate p.dim false, finite := h.1.all FVal.isFinite }

/-- Write one token's codes into a page: blocks, then exponents. -/
def State.putToken (s : State) (p : PageFmt) (frame t : Nat) (hs : List HeadCode) (poison : Bool) : State :=
  let s := hs.zipIdx.foldl (fun s h =>
    s.gwrite (frameAddr frame + p.block (h.2 / p.heads) (h.2 % p.heads) t) h.1.bytes poison) s
  s.gwrite (frameAddr frame + p.scales t) ((hs.flatMap (·.exps)).map (BitVec.ofNat 8)) false

/-- The statistics of one token's elements. -/
def rowStatElems (row : List FVal) (hs : List HeadCode) : List StatElem :=
  let back := hs.flatMap (·.back)
  let clip := hs.flatMap (·.clip)
  row.zipIdx.map fun x =>
    let cl := clip.getD x.2 false
    ⟨x.1, if x.1.isFinite && !cl then back.getD x.2 none else none, cl⟩

/-- The outcome of an encode so far: state, frames to poison, elements for the statistics, whether anything was not
finite, whether a source line was poisoned. -/
structure EncRun where
  s : State
  bad : List Nat := []
  stats : List StatElem := []
  nonfinite : Bool := false
  poison : Bool := false

/-- Encode tail position i of an operation. -/
def EncRun.token (r : EncRun) (f : Nat) (p : PageFmt) (d : EncDesc) (book len : Nat) (frames : List Nat) (i : Nat) : EncRun :=
  let s := r.s
  let a := d.rows + i * d.rowBytes p
  let m := s.hull f
  let cs := rowCodes (if d.wide then 9 else 6) (2 * p.heads * p.dim) (m.readBytes a (d.rowBytes p))
  let row := cs.map (if d.wide then fp32 else bf16).decode
  let pos := len + i
  let frame := frames.getD (pos / p.tokens - len / p.tokens) 0
  let marked := m.anyPoison a (d.rowBytes p)
  let hs := s.encodeRow f p book row
  let nf := tagged p.fmt && !hs.all (·.finite)
  if isPQ p.fmt && nf then { r with bad := r.bad ++ [frame], nonfinite := true, poison := r.poison || marked }
  else
    { r with s := s.putToken p frame (pos % p.tokens) hs (marked && !tagged p.fmt), stats := r.stats ++ rowStatElems row hs,
             nonfinite := r.nonfinite || nf, poison := r.poison || marked }

/-- A page an encode has filled: unused bytes zero, tag, stamp, AGE, the Furrow's own Glean lines (R68, R200, R233,
R244). -/
def State.encodedPage (s : State) (f : Nat) (p : PageFmt) (d : EncDesc) (frame : Nat) : State :=
  let s := s.gwrite (frameAddr frame + p.size) (fillBytes (65536 - p.size) 0) false
  let t := if isPQ p.fmt then mkTag d.cb d.gen p.fmt p.size else mkTag 0 0 p.fmt p.size
  let s := s.setTag frame t
  (s.setFrame frame { s.frame frame with stamp := p.fmt, age := 0 }).gleanUpdate f (frameAddr frame) 65536

/-- The codebook records an encode or decode names while it is outstanding (R203). -/
def AsyncOp.books (o : AsyncOp) : List Nat :=
  match o.opc with
  | 0xA1 => if isPQ (o.mod % 256) then (let d := encDescOf (o.desc.getD 0 []); [cbKey d.cb d.gen]) else []
  | 0xA3 => o.latch
  | _ => []

/-- Every row of a codebook is read through the port's Glean, once for the operation (R212, R242, log entry 18). -/
def State.readBook (s : State) (f : Nat) (p : PageFmt) (book : Nat) : State :=
  (List.range (16 * p.heads * p.dim)).foldl (fun s i => (s.gleanRead f (book + 64 * i) none).2) s

/-- HSK.ENC's effect and completion: QUEUED falls whatever its outcome (R203), and positions that a commit has passed since are
not rewritten (R82). -/
def State.encodeDo (s : State) (f : Nat) (o : AsyncOp) : Done × State :=
  let d := encDescOf (o.desc.getD 0 [])
  let fmt := o.mod % 256
  let s := s.holdBooks o.books false
  match o.fail, o.latch with
  | some e, _ => (e, s)
  | none, len :: t :: tokens :: heads :: dim :: frames =>
   if len < (s.entry (sheafIx o.x)).len then (Done.ofCode 0x96, s)
   else
    let p : PageFmt := ⟨fmt, heads, dim, tokens⟩
    let book := match s.cbRec d.cb d.gen with | none => 0 | some r => frameAddr r.frame
    let s := if isPQ fmt then s.readBook f p book else s
    let r := (List.range t).foldl (fun (r : EncRun) i => r.token f p d book len frames i) { s }
    let s := frames.foldl (fun s n => s.encodedPage f p d n) r.s
    let s := r.bad.eraseDups.foldl (fun s n => s.corruptFrame n f 0x33) s
    let s := if d.stat then (chunks 64 r.stats).foldl (fun s es => s.statChunk f d.set es) s else s
    ({ code := if r.nonfinite then 0x33 else 0, poison := r.nonfinite || r.poison },
      s.bumpIf r.nonfinite ⟨.hskNonfiniteCnt, f, 0, 0⟩)
  | none, _ => (Done.ok, s)

/-! ### HSK.ENC.BLK (R211) -/

/-- HSK.ENC.BLK. -/
def opHskEncBlk : SlotOp :=
  let enc : EncSpec := { opc := 0xA2, x := .h, y := .g, z := .g, ctr := true }
  { enc
    cls := some .cod
    checks := fun c s =>
      ckHandle s c.slice (c.r.hr c.o.x.val) true ++ chk (!s.guarded (handleFrame (c.r.hr c.o.x.val))) 0x06 (c.r.hr c.o.x.val) ++
        ckHull c.y (128 * fld c.z 25 16) 64 ++ ckBits c.z 0x3FF03FF
    run := fun c s =>
      let (id, s) := c.issue enc .cod [] s
      s.modOp c.f id (fun o => { o with w := c.r.hr c.o.x.val }) }

/-- The status of an encode of EW11 blocks: a stale handle, a frame that is no EW11 data page, a range that leaves a gap
(R211, R514; log entry 18 for the first two). -/
def State.ewStatus (s : State) (h : Word) (b n : Nat) : Nat :=
  let d := s.frame (handleFrame h)
  let t := s.tag (handleFrame h)
  let len := if tagValid t && tagFmt t = 0x10 then tagLen t else 0
  if (s.rd ⟨.hskTagBase, 0, 0, 0⟩) = 0 then 0x86
  else if !s.current h then 0x83
  else if d.kind != 1 || d.stamp != 0x10 then 0x10
  else if 728 < b + n || len / 90 < b then 0x34
  else 0

/-- HSK.ENC.BLK's effect and completion. FLUSH has no value for 64 flushed elements, and takes a free one. -/
def State.encodeBlkDo (s : State) (f : Nat) (o : AsyncOp) : Done × State :=
  let h := o.w
  let b := fld o.z 9 0
  let n := fld o.z 25 16
  match s.ewStatus h b n with
  | 0 =>
    let frame := handleFrame h
    let src := fld o.y 31 0
    let r := (List.range n).foldl (fun (r : State × Bool) i =>
      let s := r.1
      let cs := rowCodes 6 64 ((s.hull f).readBytes (src + 128 * i) 128)
      let (bs, k, void) := ewEncode cs
      let (u, s) := if k < 64 then (BitVec.ofNat 64 k, s) else s.free
      let bs := patchBytes bs 1 (toBytes 1 (if void then 0x80 else 0x80 + u.toNat % 64))
      ((s.gwrite (frameAddr frame + 90 * (b + i)) bs false).count ⟨.hskFlushCnt, f, 0, 0⟩ 31 0 k, r.2 || void)) (s, false)
    let s := r.1
    let t := s.tag frame
    let old := if tagValid t && tagFmt t = 0x10 then tagLen t else 0
    let s := if n = 0 then s else s.setTag frame (mkTag 0 0 0x10 (max old (90 * (b + n))))
    let s := (s.touch frame).gleanUpdate f (frameAddr frame) 65536
    ({ code := if r.2 then 0x33 else 0, poison := r.2 }, s.bumpIf r.2 ⟨.hskNonfiniteCnt, f, 0, 0⟩)
  | code => (Done.ofCode code, s)

/-! ### HSK.DEC (R207, R381) -/

/-- Bytes a decode of a key/value range writes. -/
def State.decodeBytes (s : State) (i count : Nat) : Nat :=
  let e := s.entry i
  match s.geometry e.model with
  | none => 0
  | some g => if e.state = .free then 0 else count * 4 * g.kvHeads * g.dim

/-- Codebook records that the tags of a range's pages name when the decode is accepted (R203). -/
def State.decodeKeys (s : State) (i l fmt first count : Nat) : List Nat :=
  match s.geometry (s.entry i).model, s.entryRoot i with
  | some g, some root =>
    let e := s.layer root l
    if isPQ fmt && e.fmt = fmt && (s.entry i).state != .free then
      (((pageSpan (g.tokens fmt) first (first + count)).map (s.layerPage e)).filterMap fun h =>
        if s.handleCheck h fmt = 0 then (tagNames (s.tag (handleFrame h))).map (fun p => cbKey p.1 p.2) else none).eraseDups
    else []
  | _, _ => []

/-- HSK.DEC.fmt (R207, R381). -/
def opHskDec : SlotOp :=
  let enc : EncSpec :=
    { opc := 0xA3, x := .g, y := .g, z := .g, w := .g, mods := 0xFF, badMod := fun o => !hskFormat true (o.mod.toNat % 256)
      reserved := fun o => o.mod.toNat % 256 = 0x10 && (16 ≤ o.y.val || o.w.val != 0), ctr := true }
  { enc
    cls := some .cod
    checks := fun c s =>
      if c.mod % 256 = 0x10 then
        ckHull c.x (128 * fld c.z 25 16) 64 ++ ckHandle s c.slice (c.r.hr c.o.y.val) true ++ ckBits c.z 0x3FF03FF
      else
        ckHull c.x (s.decodeBytes (sheafIx c.y) (fld c.w 47 24)) 64 ++ ckSheaf s c.slice c.y ++ ckLayer c.z ++
          ckBits c.w (2 ^ 48 - 1)
    run := fun c s =>
      let ew := c.mod % 256 = 0x10
      let keys := if ew then [] else s.decodeKeys (sheafIx c.y) (fld c.z 8 0) (c.mod % 256) (fld c.w 23 0) (fld c.w 47 24)
      let (id, s) := c.issue enc .cod [] s
      let s := s.modOp c.f id (fun o => { o with y := if ew then c.r.hr c.o.y.val else c.y, latch := keys })
      s.holdBooks keys true }

/-- BF16 bytes of decoded elements; a poisoned element is 0xFF. -/
def bfBytes (xs : List (Option FVal)) : List Byte :=
  xs.flatMap (fun x => match x with | none => fillBytes 2 0xFF | some v => toBytes 2 (bf16.encode v))

/-- Decoded elements into Hull, packed; every line that holds a poisoned element is marked (R123, R139). -/
def State.putDecoded (s : State) (f a : Nat) (xs : List (Option FVal)) : State :=
  let s := s.modHull f (fun m => m.writeBytes a (bfBytes xs))
  xs.zipIdx.foldl (fun s x =>
    if x.1.isNone then s.modHull f (fun m => m.markLines ((a + 2 * x.2) / 64) 1 true) else s) s

/-- The elements of one token slot: K heads, then V heads. -/
def State.slotRow (s : State) (n : Nat) (p : PageFmt) (frame book t : Nat) : List (Option FVal) :=
  (List.range 2).flatMap (fun c => (List.range p.heads).flatMap (fun h => s.pageHead n p frame book c h t))

/-- Decode the positions of [first, first + count) that lie in page k. -/
def State.decodePage (s : State) (f dst slice : Nat) (p : PageFmt) (e : LayerEnt) (first count k : Nat) (d : Done) : Done × State :=
  let rows := (List.range count).filter (fun i => (first + i) / p.tokens = k)
  let width := 2 * p.heads * p.dim
  let h := s.layerPage e k
  match s.openPage f slice p h with
  | ((0, book), s) =>
    let frame := handleFrame h
    let s := s.countBook f p frame book (rows.map (fun i => (first + i) % p.tokens))
    rows.foldl (fun (r : Done × State) i =>
      let xs := r.2.slotRow f p frame book ((first + i) % p.tokens)
      ({ r.1 with poison := r.1.poison || xs.any Option.isNone }, r.2.putDecoded f (dst + 2 * width * i) xs)) (d, s)
  | ((code, _), s) =>
    ({ d with code := if d.code = 0 then code else d.code, poison := true },
      rows.foldl (fun s i => s.putDecoded f (dst + 2 * width * i) (List.replicate width none)) s)

/-- A decode of key/value positions. -/
def State.decodeKvDo (s : State) (f : Nat) (o : AsyncOp) : Done × State :=
  let i := sheafIx o.y
  let l := fld o.z 8 0
  let fmt := o.mod % 256
  let e := s.entry i
  match s.geometry e.model with
  | none => (Done.ofCode 0x21, s)
  | some g =>
    if e.state = .free || g.layers ≤ l then (Done.ofCode 0x21, s)
    else
      match s.entryRoot i with
      | none => (Done.ofCode 0x80, s)
      | some root =>
        let le := s.layer root l
        let p : PageFmt := ⟨fmt, g.kvHeads, g.dim, g.tokens fmt⟩
        if le.fmt != fmt then (Done.ofCode 0x10, s)
        else if p.tokens = 0 then (Done.ofCode 0x80, s)
        else
          (pageSpan p.tokens (fld o.w 23 0) (fld o.w 23 0 + fld o.w 47 24)).foldl (fun (r : Done × State) k =>
            r.2.decodePage f (fld o.x 31 0) o.slice p le (fld o.w 23 0) (fld o.w 47 24) k r.1) (Done.ok, s)

/-- Table 8-5 for EW11 blocks up to b + n − 1, SIZE aside (orders 1 and 2). -/
def State.ewTagOk (s : State) (frame last : Nat) : Bool :=
  let t := s.tag frame
  tagValid t && tagFmt t = (s.frame frame).stamp && tagLen t % 90 = 0 && tagLen t ≤ 65520 && 90 * last ≤ tagLen t

/-- A decode of EW11 blocks. -/
def State.decodeBlkDo (s : State) (f : Nat) (o : AsyncOp) : Done × State :=
  let frame := handleFrame o.y
  let b := fld o.z 9 0
  let n := fld o.z 25 16
  let dst := fld o.x 31 0
  let blk (s : State) (i : Nat) : List Byte := s.mem.readBytes (frameAddr frame + 90 * (b + i)) 90
  let void (s : State) : State := s.putDecoded f dst (List.replicate (64 * n) none)
  if !s.current o.y then (Done.ofCode 0x83, s)
  else if (s.frame frame).poisoned then ({ code := 0x84, poison := true }, void s)
  else if (s.frame frame).stamp != 0x10 && s.ewTagOk frame (b + n) then (Done.ofCode 0x10, s)
  else if !s.ewTagOk frame (b + n) || !(List.range n).all (fun i => ewSizeOk (blk s i)) then
    ({ code := 0x29, poison := true }, void (s.corruptFrame frame f 0x29))
  else
    let s := s.touch frame
    (List.range n).foldl (fun (r : Done × State) i =>
      let bad := r.2.mem.anyPoison (frameAddr frame + 90 * (b + i)) 90
      let xs := if bad then List.replicate 64 none else ewDecode (blk r.2 i)
      ({ r.1 with poison := r.1.poison || xs.any Option.isNone }, r.2.putDecoded f (dst + 128 * i) xs)) (Done.ok, s)

/-- HSK.DEC's effect and completion: QUEUED falls whatever its outcome (R203). -/
def State.decodeDo (s : State) (f : Nat) (o : AsyncOp) : Done × State :=
  let (d, s) := if o.mod % 256 = 0x10 then s.decodeBlkDo f o else s.decodeKvDo f o
  (d, s.holdBooks o.books false)

/-- HUSK_OP_COMPLETE: a Husk operation finishes; a PQ encode only once Winnow has searched for it (R210, R213). -/
def huskOpComplete (f : FurrowId) (id : Nat) (s : State) : State :=
  match s.op? f.val id with
  | none => s
  | some o =>
    let done (r : Done × State) : State := r.2.finish f.val id r.1
    match o.opc with
    | 0xA1 => if isPQ (o.mod % 256) && o.fail.isNone && !o.started then s else done (s.encodeDo f.val o)
    | 0xA2 => done (s.encodeBlkDo f.val o)
    | 0xA3 => done (s.decodeDo f.val o)
    | _ => s

/-! ### Commands -/

/-- CB_LOAD (R202). -/
def execCbLoad (f : FurrowId) (o : Slot) (s : State) : Res := answer (runSlot opCbLoad f o s)

/-- CB_RETIRE (R204). -/
def execCbRetire (f : FurrowId) (o : Slot) (s : State) : Res := answer (runSlot opCbRetire f o s)

/-- CB_STAT (R206). -/
def execCbStat (f : FurrowId) (o : Slot) (s : State) : Res := answer (runSlot opCbStat f o s)

/-- HSK_ENC (R210). -/
def execHskEnc (f : FurrowId) (o : Slot) (s : State) : Res := answer (runSlot opHskEnc f o s)

/-- HSK_ENC_BLK (R211). -/
def execHskEncBlk (f : FurrowId) (o : Slot) (s : State) : Res := answer (runSlot opHskEncBlk f o s)

/-- HSK_DEC (R381). -/
def execHskDec (f : FurrowId) (o : Slot) (s : State) : Res := answer (runSlot opHskDec f o s)

/-- HUSK_OP_COMPLETE (R210). -/
def execHuskOpComplete (f : FurrowId) (id : Nat) (s : State) : Res := answer (huskOpComplete f id s)

end Sys2Proof.Machine
end

