-- ==== Sys2Proof/Machine/Winnow.lean ====
section
/-! DEFINITION. Winnow: the order of its operations, top-k search and the merge of results (R213 to R220). -/

namespace Sys2Proof.Machine

/-! ### Descriptors (R214, Table 8-9) -/

/-- A Winnow table descriptor. -/
structure WinTable where
  base : Nat
  rows : Nat
  dim : Nat
  fmt : Nat
  inner : Bool
  stride : Nat
  exps : Nat
  mask : Nat
  idBase : Nat
deriving DecidableEq, Repr

/-- The descriptor in 64 bytes. -/
def winTableOf (bs : List Byte) : WinTable :=
  let w := leAt bs 8 8
  ⟨leAt bs 0 8, bits w 24 0, bits w 35 25, bits w 39 36, w.testBit 40, leAt bs 16 4, leAt bs 24 8, leAt bs 32 8, leAt bs 40 8⟩

/-- Bytes of a row. -/
def WinTable.rowBytes (t : WinTable) : Nat := Sys2Proof.Machine.rowBytes t.fmt t.dim

/-- Q and k of a query shape. -/
def winShape (w : Word) : Nat × Nat := (fld w 6 0, fld w 14 8)

/-- The limits of R214 and Table 8-9 on a descriptor and a query shape. -/
def WinTable.ok (t : WinTable) (q k : Nat) : Bool :=
  t.base % 64 = 0 && 1 ≤ t.rows && t.rows ≤ 16777216 && 8 ≤ t.dim && t.dim ≤ 1024 && t.dim % 8 = 0 &&
    (t.fmt = 0 || t.fmt = 4 || t.fmt = 6 || t.fmt = 7) && t.stride % 64 = 0 && t.rowBytes ≤ t.stride &&
    1 ≤ q && q ≤ 64 && 1 ≤ k && k ≤ 64 && q * t.dim * 4 ≤ 262144

/-- Whether a row of the table carries an exponent byte. -/
def WinTable.hasExps (t : WinTable) : Bool := t.exps != 0 && (t.fmt = 0 || t.fmt = 4)

/-- The byte ranges a search reads: each row, the exponent bytes, the bitmap. -/
def WinTable.ranges (t : WinTable) : List (Nat × Nat) :=
  (if t.hasExps then [(t.exps, t.rows)] else []) ++ (if t.mask = 0 then [] else [(t.mask, ceilDiv t.rows 8)]) ++
    (List.range t.rows).map (fun r => (t.base + r * t.stride, t.rowBytes))

/-- Every frame of a range belongs to the slice. -/
def State.rangeOwned (s : State) (slice : Nat) (p : Nat × Nat) : Bool :=
  (List.range ((p.1 + p.2 - 1) / 65536 - p.1 / 65536 + 1)).all (fun i => !s.frameFault slice (p.1 / 65536 + i) false)

/-- Bytes of a result block (R217). -/
def winBytes (q k : Nat) : Nat := 16 + 16 * q * k

/-! ### Instructions -/

/-- The table descriptor WIN.TOPK names. -/
def Ctx.winTable (c : Ctx) (s : State) : WinTable := winTableOf ((s.hull c.f).readBytes (fld c.y 31 0) 64)

/-- WIN.TOPK (R214). A descriptor or shape outside its limits is found when the operation completes. -/
def opWinTopk : SlotOp :=
  let enc : EncSpec := { opc := 0xA8, x := .g, y := .g, z := .g, w := .g, ctr := true }
  { enc
    cls := some .cod
    stalls := fun c s => s.winnowFull c.field
    checks := fun c s =>
      let (q, k) := winShape c.w
      let t := c.winTable s
      let ok := t.ok q k
      ckHull c.x (if ok then winBytes q k else 0) 64 ++ ckHull c.y 64 64 ++ ckHull c.z (if ok then q * t.dim * 4 else 0) 64 ++
        ckBits c.w 0x7F7F ++
        chk (!ok || t.ranges.all (fun p => granaryOk p.1 && granaryOk (p.1 + p.2 - 1))) 0x05 c.y ++
        chk (!ok || t.ranges.all (s.rangeOwned c.slice)) 0x06 c.y ++ chk (s.winnowFor c.field).isSome 0x07 0
    run := fun c s =>
      let (id, s) := c.issue enc .cod [(s.hull c.f).readBytes (fld c.y 31 0) 64] s
      s.winnowPut c.field ⟨false, c.f, id⟩ }

/-- The shape of the result block at a Hull offset: nothing in the block or the instruction states its Q and k, so they
are free, from 1 to 64 each, a function of the block's header (log entry 19). -/
def blockShape (m : Memory) (a : Nat) : Nat × Nat :=
  let w := Config.blockShape (m.readBytes a 16)
  (1 + w.toNat % 64, 1 + w.toNat / 64 % 64)

/-- Bytes of the result block at a Hull offset. -/
def blockBytes (m : Memory) (a : Nat) : Nat := winBytes (blockShape m a).1 (blockShape m a).2

/-- WIN.MERGE (R219): each block is checked over its whole extent (R369); the result has the blocks' shape. -/
def opWinMerge : SlotOp :=
  let enc : EncSpec := { opc := 0xA9, x := .g, y := .g, z := .g, ctr := true }
  { enc
    cls := some .cod
    stalls := fun c s => s.winnowFull c.field
    checks := fun c s =>
      let m := s.hull c.f
      let a := fld c.y 31 0
      let b := fld c.z 31 0
      ckHull c.x (if blockShape m a = blockShape m b then blockBytes m a else 0) 64 ++ ckHull c.y (blockBytes m a) 64 ++
        ckHull c.z (blockBytes m b) 64 ++ chk (s.winnowFor c.field).isSome 0x07 0
    run := fun c s =>
      let m := s.hull c.f
      let (p, r) := (blockShape m (fld c.y 31 0), blockShape m (fld c.z 31 0))
      let (id, s) := c.issue enc .cod [] s
      (s.modOp c.f id (fun o => { o with latch := [p.1, p.2, r.1, r.2] })).winnowPut c.field ⟨false, c.f, id⟩ }

/-! ### Scores and lists (R215 to R219) -/

/-- An entry of a result: ID and FP32 score. -/
structure WinEntry where
  id : Nat
  score : Nat
deriving DecidableEq, Repr

/-- The order of R215: lower score first, then lower ID. -/
def WinEntry.before (a b : WinEntry) : Bool :=
  f32lt a.score b.score || (!f32lt b.score a.score && a.id < b.id)

/-- Put an entry into a list in order. -/
def winInsert (e : WinEntry) : List WinEntry → List WinEntry
  | [] => [e]
  | x :: t => if e.before x then e :: x :: t else x :: winInsert e t

/-- The first k entries of a set, the rest padded (R217). -/
def winBest (k : Nat) (es : List WinEntry) : List WinEntry :=
  let l := (es.foldl (fun l e => winInsert e l) []).take k
  l ++ List.replicate (k - l.length) ⟨2 ^ 64 - 1, 0x7F800000⟩

/-- The bytes of an entry. -/
def WinEntry.bytes (e : WinEntry) : List Byte := toBytes 8 e.id ++ toBytes 4 e.score ++ toBytes 4 0

/-- The score of a row against a query, as an FP32 code (R215, R121). -/
def winScore (inner : Bool) (q x : List FVal) : Nat :=
  if inner then fp32.encode (FVal.neg (fp32.decode (floatLane q x (fun _ => 0) 0)))
  else
    let d := List.zipWith (fun a b => fp32.decode (fp32.encode (FVal.add a (FVal.neg b)))) q x
    floatLane d d (fun _ => 0) 0

/-- What a search reads of row r: its elements, none where the row is poisoned (R216). -/
def State.winRow (s : State) (t : WinTable) (r : Nat) : Option (List FVal) :=
  let a := t.base + r * t.stride
  let e := if t.hasExps then expByte s.mem (t.exps + r) else 0
  if s.mem.anyPoison a t.rowBytes || e = voidExp then none
  else some ((rowCodes t.fmt t.dim (s.mem.readBytes a t.rowBytes)).map (fun c => FVal.scale (expVal e) (codeVal t.fmt c)))

/-- Whether row r is eligible: none where the bitmap's line is poisoned (log entry 18). -/
def State.winEligible (s : State) (t : WinTable) (r : Nat) : Option Bool :=
  if t.mask = 0 then some true
  else if s.mem.marked (t.mask + r / 8) then none
  else some ((s.mem.byte (t.mask + r / 8)).getLsbD (r % 8))

/-- A search so far: one list per query, rows excluded for poison, for NaN and by the bitmap. -/
structure WinRun where
  lists : List (List WinEntry)
  poison : Nat := 0
  nan : Nat := 0
  masked : Nat := 0

/-- One row of a search. A row whose score is a NaN for some query counts once and leaves that query's list (log
entry 18). -/
def WinRun.row (w : WinRun) (s : State) (t : WinTable) (qs : List (List FVal)) (k r : Nat) : WinRun :=
  match s.winEligible t r with
  | some false => { w with masked := w.masked + 1 }
  | none => { w with poison := w.poison + 1 }
  | some true =>
    match s.winRow t r with
    | none => { w with poison := w.poison + 1 }
    | some x =>
      let sc := qs.map (fun q => winScore t.inner q x)
      let nan (c : Nat) : Bool := (fp32.decode c).isNaN
      { w with
        lists := List.zipWith (fun l c => if nan c then l else (winInsert ⟨(t.idBase + r) % 2 ^ 64, c⟩ l).take k) w.lists sc
        nan := w.nan + (if sc.any nan then 1 else 0) }

/-- WIN.TOPK's effect on unit f. -/
def State.topkDo (s : State) (f : Nat) (j : UnitJob) (o : AsyncOp) : Done × State :=
  let t := winTableOf (o.desc.getD 0 [])
  let (q, k) := winShape o.w
  if !t.ok q k then (Done.ofCode 0x35, s)
  else
    let m := s.hull j.furrow
    let qs := (List.range q).map (fun i =>
      (rowCodes 9 t.dim (m.readBytes (fld o.z 31 0 + 4 * t.dim * i) (4 * t.dim))).map fp32.decode)
    let w := (List.range t.rows).foldl (fun (w : WinRun) r => w.row s t qs k r) { lists := qs.map (fun _ => []) }
    let head := toBytes 4 t.rows ++ toBytes 4 w.poison ++ toBytes 4 w.nan ++ toBytes 4 w.masked
    let s := s.modHull j.furrow (fun h =>
      h.writeBytes (fld o.x 31 0) (head ++ w.lists.flatMap (fun l => (winBest k l).flatMap WinEntry.bytes)))
    let s := t.ranges.foldl (fun s p => s.touchRange p.1 p.2) s
    ({ poison := w.poison != 0 }, s.count ⟨.fldWinExclCnt, f, 0, 0⟩ 31 0 (w.poison + w.nan + w.masked))

/-- The entries of query i of a result block. -/
def winEntries (m : Memory) (a k i : Nat) : List WinEntry :=
  (List.range k).map (fun j => ⟨m.readNat (a + 16 + 16 * (i * k + j)) 8, m.readNat (a + 24 + 16 * (i * k + j)) 4⟩)

/-- A 32-bit field that a sum may leave: past its width no value is stated, and it is free. -/
def State.field32 (s : State) (v : Nat) : Nat × State :=
  if v < 2 ^ 32 then (v, s) else let (u, s) := s.free; (u.toNat % 2 ^ 32, s)

/-- WIN.MERGE's effect (R219). -/
def State.mergeListsDo (s : State) (j : UnitJob) (o : AsyncOp) : Done × State :=
  let p := (o.latch.getD 0 1, o.latch.getD 1 1)
  let r := (o.latch.getD 2 1, o.latch.getD 3 1)
  if p != r then (Done.ofCode 0x35, s)
  else
    let m := s.hull j.furrow
    let a := fld o.y 31 0
    let b := fld o.z 31 0
    let n := winBytes p.1 p.2
    let bad := m.anyPoison a n || m.anyPoison b n
    let (head, s) := (List.range 4).foldl (fun (acc : List Byte × State) i =>
      let (v, s) := acc.2.field32 (m.readNat (a + 4 * i) 4 + m.readNat (b + 4 * i) 4)
      (acc.1 ++ toBytes 4 v, s)) ([], s)
    let body := (List.range p.1).flatMap (fun i => (winBest p.2 (winEntries m a p.2 i ++ winEntries m b p.2 i)).flatMap WinEntry.bytes)
    let out := head ++ body
    ({ poison := bad }, s.modHull j.furrow (fun h => h.store (fld o.x 31 0) (if bad then fillBytes n 0xFF else out) bad))

/-! ### The unit (R213) -/

/-- WINNOW_OP_START: encoder searches first, then the other operations, each in arrival order. -/
def winnowOpStart (f : FieldId) (s : State) : State :=
  let u := s.winnowAt f.val
  if u.running.isSome || !s.winnowUp f.val then s
  else
    match (u.queue.find? (fun (j : UnitJob) => j.enc)).or u.queue.head? with
    | none => s
    | some j => (s.modWinnow f.val (fun u => ⟨u.queue.erase j, some j⟩)).winnowShift

/-- The slice of a unit's job. -/
def State.jobSlice (s : State) (j : UnitJob) : Option Nat := (s.op? j.furrow j.op).map (·.slice)

/-- Cycles of a unit metered to the slice of the job that used them (R213, R272, R395). -/
def State.meterJob (s : State) (i : Nat) (j : UnitJob) (cycles : Nat) : State :=
  match s.jobSlice j with
  | none => s
  | some sl => s.meter sl i cycles

/-- WINNOW_QUANTUM_END: 2,048 cycles of a general search have passed; it gives way to a waiting encoder search and is
the first to go on after them. -/
def winnowQuantumEnd (f : FieldId) (s : State) : State :=
  let u := s.winnowAt f.val
  match u.running with
  | none => s
  | some j =>
    match s.op? j.furrow j.op with
    | none => s
    | some o =>
      if o.opc != 0xA8 then s
      else
        let s := s.meterJob 3 j 2048
        if u.queue.any (fun (k : UnitJob) => k.enc) then s.modWinnow f.val (fun u => ⟨j :: u.queue, none⟩) else s

/-- WINNOW_OP_COMPLETE: the running operation ends after `cycles` of the unit that no quantum has metered. -/
def winnowOpComplete (f : FieldId) (cycles : Nat) (s : State) : State :=
  match (s.winnowAt f.val).running with
  | none => s
  | some j =>
    let s := (s.meterJob 3 j cycles).modWinnow f.val (fun u => { u with running := none })
    let s := s.offIfDue (.winnowPair (Fin.ofNat 2 (f.val / 2)))
    match s.op? j.furrow j.op with
    | none => s
    | some o =>
      if j.enc then s.setOp j.furrow { o with started := true }
      else
        let (d, s) := if o.opc = 0xA8 then s.topkDo f.val j o else s.mergeListsDo j o
        s.finish j.furrow o.id d

/-! ### Commands -/

/-- WIN_TOPK (R214). -/
def execWinTopk (f : FurrowId) (o : Slot) (s : State) : Res := answer (runSlot opWinTopk f o s)

/-- WIN_MERGE (R219). -/
def execWinMerge (f : FurrowId) (o : Slot) (s : State) : Res := answer (runSlot opWinMerge f o s)

/-- WINNOW_OP_START (R213). -/
def execWinnowOpStart (f : FieldId) (s : State) : Res := answer (winnowOpStart f s)

/-- WINNOW_QUANTUM_END (R213). -/
def execWinnowQuantumEnd (f : FieldId) (s : State) : Res := answer (winnowQuantumEnd f s)

/-- WINNOW_OP_COMPLETE (R217). -/
def execWinnowOpComplete (f : FieldId) (cycles : Nat) (s : State) : Res := answer (winnowOpComplete f cycles s)

end Sys2Proof.Machine
end

