-- ==== Sys2Proof/Machine/Attention.lean ====
section
/-! DEFINITION. Attention: partial records, the arithmetic of partials, ATTN.PART, ATTN.MERGE and merge groups (R161 to
R191). -/

namespace Sys2Proof.Machine

/-! ### Arithmetic (R161, R169, R176) -/

/-- −∞ as an FP32 code. -/
def negInf : Nat := 0xFF800000

/-- The greater of two FP32 values, whichever comes first: a NaN stays a NaN, and of the two zeros it is +0. -/
def f32max (a b : Nat) : Nat :=
  if (fp32.decode a).isNaN || (fp32.decode b).isNaN then fp32.nanCode
  else if f32lt a b then b else if f32lt b a then a else a &&& b

/-- Bits of ⌊√n⌋ from bit k − 1 down. -/
def isqrtFrom (n : Nat) : (k : Nat) → Nat → Nat
  | 0, r => r
  | k + 1, r => isqrtFrom n k (if (r + 2 ^ k) * (r + 2 ^ k) ≤ n then r + 2 ^ k else r)

/-- 1 / √d rounded to FP32 (SCALE 0 of Table 7-2). -/
def invSqrt (d : Nat) : Nat :=
  if d = 0 then fp32.infCode
  else
    let m := isqrtFrom (2 ^ 160 / d) 81 0
    fp32.encode (.fin false (2 * m + (if m * m * d = 2 ^ 160 then 0 else 1)) (-81))

/-- A running partial of one row and head. -/
structure Partial where
  m : Nat
  l : Nat
  o : List Nat
deriving DecidableEq, Repr

/-- The empty partial (R161). -/
def Partial.empty (d : Nat) : Partial := ⟨negInf, 0, List.replicate d 0⟩

/-- One chunk of keys and values added to a partial (R169). -/
def Partial.chunk (p : Partial) (sigma : Nat) (q : List FVal) (ch : List (List FVal × List FVal)) : Partial :=
  let sc := ch.map (fun x => f32mul sigma (floatLane q x.1 (fun _ => 0) 0))
  let mn := sc.foldl f32max p.m
  let a := if p.m = negInf then 0 else f32exp (f32sub p.m mn)
  let r : Partial := ⟨mn, f32mul p.l a, p.o.map (fun y => f32mul y a)⟩
  (List.zip sc ch).foldl (fun (r : Partial) x =>
    let w := f32exp (f32sub x.1 mn)
    let wv := fp32.decode w
    { r with l := f32add r.l w, o := List.zipWith (fun y v => f32add y (fp32.encode (FVal.mul wv v))) r.o x.2.2 }) r

/-- Two partials merged (R176). -/
def Partial.merge (a b : Partial) : Partial :=
  let m := f32max a.m b.m
  let x := if a.m = negInf then 0 else f32exp (f32sub a.m m)
  let y := if b.m = negInf then 0 else f32exp (f32sub b.m m)
  ⟨m, f32add (f32mul x a.l) (f32mul y b.l), List.zipWith (fun u v => f32add (f32mul x u) (f32mul y v)) a.o b.o⟩

/-! ### Records (R162, Table 7-1) -/

/-- The header of a partial record. -/
structure PartHdr where
  valid : Bool := true
  empty : Bool := false
  underrun : Bool := false
  poison : Bool := false
  abort : Bool := false
  timeout : Bool := false
  refused : Bool := false
  cause : Nat := 0
  rows : Nat
  heads : Nat
  dim : Nat
  qfmt : Nat
  first : Nat := 0
  last : Nat := 0
  segment : Nat := 0
  sheaf : Nat := 0
  resV : Bool := false
  resOff : Nat := 0
  group : Nat := 0
  used : Nat := 0
  request : Nat := 0
deriving DecidableEq, Repr

/-- The 64 bytes of a header. -/
def PartHdr.bytes (h : PartHdr) : List Byte :=
  toBytes 8 (bitVal h.valid 0 + bitVal h.empty 1 + bitVal h.underrun 2 + bitVal h.poison 3 + bitVal h.abort 4 +
      bitVal h.timeout 5 + bitVal h.refused 6 + h.cause % 256 * 2 ^ 8 + h.rows % 128 * 2 ^ 16 + h.heads % 128 * 2 ^ 23 +
      h.dim % 1024 * 2 ^ 32 + h.qfmt % 16 * 2 ^ 42) ++
    toBytes 8 (h.first % 2 ^ 24 + h.last % 2 ^ 24 * 2 ^ 24 + h.segment % 2 ^ 16 * 2 ^ 48) ++
    toBytes 8 (h.sheaf % 2 ^ 15 + bitVal h.resV 15 + h.resOff % 2 ^ 32 * 2 ^ 16) ++
    toBytes 8 (h.group % 2 ^ 32 + h.used % 2 ^ 32 * 2 ^ 32) ++ toBytes 8 h.request ++ fillBytes 24 0

/-- A header from its bytes. -/
def partHdrOf (bs : List Byte) : PartHdr :=
  let a := leAt bs 0 8
  let b := leAt bs 8 8
  let c := leAt bs 16 8
  { valid := a.testBit 0, empty := a.testBit 1, underrun := a.testBit 2, poison := a.testBit 3, abort := a.testBit 4,
    timeout := a.testBit 5, refused := a.testBit 6, cause := bits a 15 8, rows := bits a 22 16, heads := bits a 29 23,
    dim := bits a 41 32, qfmt := bits a 45 42, first := bits b 23 0, last := bits b 47 24, segment := bits b 63 48,
    sheaf := bits c 14 0, resV := c.testBit 15, resOff := bits c 47 16, group := leAt bs 24 4, used := leAt bs 28 4,
    request := leAt bs 32 8 }

/-- Bytes of a body of r rows, g heads, dimension d. -/
def bodyBytes (r g d : Nat) : Nat := r * g * (d + 2) * 4

/-- The body of partials in row and head order: every o, then every m, then every l. -/
def bodyOf (ps : List Partial) : List Byte :=
  ps.flatMap (fun p => p.o.flatMap (toBytes 4)) ++ ps.flatMap (fun p => toBytes 4 p.m) ++ ps.flatMap (fun p => toBytes 4 p.l)

/-- Partial i of a body of n partials. -/
def partialAt (m : Memory) (a n d i : Nat) : Partial :=
  ⟨m.readNat (a + 4 * (n * d + i)) 4, m.readNat (a + 4 * (n * d + n + i)) 4,
    (List.range d).map (fun j => m.readNat (a + 4 * (i * d + j)) 4)⟩

/-- Write a record: its body, poisoned 0xFF without one, then its header (R162, R178). -/
def State.putRecord (s : State) (f off : Nat) (h : PartHdr) (body : Option (List Byte)) : State :=
  let n := bodyBytes h.rows h.heads h.dim
  let s := s.modHull f (fun m => m.store (off + 64) ((body.getD (fillBytes n 0xFF)).take (0x300000 - off - 64)) body.isNone)
  s.modHull f (fun m => m.writeBytes off h.bytes)

/-! ### The attention descriptor (R163, R164) -/

/-- An attention descriptor (Table 7-2). -/
structure AttnDesc where
  localFirst : Nat
  localEnd : Nat
  shipFirst : Nat
  shipEnd : Nat
  scale : Nat
  rows : Nat
  headBase : Nat
  heads : Nat
  qOff : Nat
  posOff : Nat
  slot : Nat
  segment : Nat
  causal : Bool
  qn : Bool
  resV : Bool
  resOff : Nat
  kvOff : Nat
  kvRows : Nat
deriving DecidableEq, Repr

/-- The descriptor in 64 bytes. -/
def attnDescOf (bs : List Byte) : AttnDesc :=
  let w (i : Nat) : Nat := leAt bs (8 * i) 8
  ⟨bits (w 0) 23 0, bits (w 0) 47 24, bits (w 1) 23 0, bits (w 1) 47 24, bits (w 2) 31 0, bits (w 2) 38 32, bits (w 2) 44 39,
    bits (w 2) 51 45, bits (w 3) 31 0, bits (w 3) 63 32, bits (w 4) 15 0, bits (w 4) 31 16, (w 4).testBit 32, (w 4).testBit 33,
    (w 4).testBit 34, bits (w 5) 31 0, bits (w 6) 31 0, bits (w 6) 44 32⟩

/-- Reserved descriptor bits that are set (R166). -/
def attnReserved (bs : List Byte) : Bool :=
  let w (i : Nat) : Nat := leAt bs (8 * i) 8
  bits (w 0) 63 48 != 0 || bits (w 1) 63 48 != 0 || bits (w 2) 63 52 != 0 || bits (w 4) 63 35 != 0 || bits (w 5) 63 32 != 0 ||
    bits (w 6) 63 45 != 0 || w 7 != 0

/-- Query format code of Table 5-2 that a modifier names. -/
def queryFmt (m : Nat) : Nat := if m % 4 = 0 then 6 else if m % 4 = 1 then 7 else 4

/-- Bytes of the query rows. -/
def AttnDesc.queryBytes (d : AttnDesc) (dim qfmt : Nat) : Nat := d.rows * d.heads * dim * (elemBits qfmt / 8)

/-- Bytes of a packed key/value block (R175). -/
def AttnDesc.kvBytes (d : AttnDesc) (hkv dim qfmt : Nat) : Nat := d.kvRows * (8 + 2 * hkv * dim * (elemBits qfmt / 8))

/-- The issue checks of R166 that a descriptor decides, for a record at `x` (R162 to R164). -/
def ckAttn (bs : List Byte) (w : Word) (x dim hkv qfmt : Nat) (hull : Bool) : List (Nat × Word) :=
  let d := attnDescOf bs
  let fits (a n : Nat) : Bool := n = 0 || a + n ≤ 0x300000
  chk (!attnReserved bs) 0x03 w ++ chk (d.qOff % 64 == 0 && d.posOff % 8 == 0 && d.resOff % 4 == 0) 0x08 w ++
    chk (fits d.qOff (d.queryBytes dim qfmt) && fits d.posOff (8 * d.rows) && fits x (64 + bodyBytes d.rows d.heads dim) &&
      (!hull || fits d.kvOff (d.kvBytes hkv dim qfmt))) 0x05 w

/-! ### What a partial is computed from (R168 to R175) -/

/-- The inputs of a computation of partials beside its keys and values. -/
structure AttnIn where
  rows : Nat
  heads : Nat
  headBase : Nat
  dim : Nat
  qHeads : Nat
  kvHeads : Nat
  scale : Nat
  causal : Bool
  qn : Bool
  segment : Nat
  first : Nat
  last : Nat
  floor : Nat
  qfmt : Nat
  queries : List (List FVal)
  rowTab : List (Nat × Nat)

/-- Row-table entries: position and segment (R164). -/
def rowTable (n : Nat) (bs : List Byte) : List (Nat × Nat) :=
  (List.range n).map (fun i => (leAt bs (8 * i) 3, leAt bs (8 * i + 3) 2))

/-- Query rows by row and head. -/
def queryRows (n dim qfmt : Nat) (bs : List Byte) : List (List FVal) :=
  (chunks dim (rowCodes qfmt (n * dim) bs)).map (fun q => q.map (codeVal qfmt))

/-- R174: a position is admitted for a row. -/
def AttnIn.admits (x : AttnIn) (row : Nat × Nat) (p : KvPos) : Bool :=
  row.2 = x.segment && row.2 != 0xFFFF && (match p.seg with | none => true | some g => g = row.2) &&
    (!x.causal || p.pos ≤ row.1)

/-- A query narrowed to a page's key format under QN (R170). A query that holds no finite maximum has no exponent to be
narrowed with, and takes NaN (log entry 20). -/
def narrowQuery (fmt : Nat) (q : List FVal) : List FVal :=
  let t : Narrow := if fmt = 0x03 then .fp e4m3 else .int 8 true
  if fmt = 0x03 || fmt = 0x04 || fmt = 0x05 then
    let e := chooseExp t q
    if e = voidExp then q.map (fun _ => .nan)
    else q.map (fun v => FVal.scale (expVal e) (t.apply .nearest (FVal.scale (-(expVal e)) v)).2.1)
  else q

/-- Every partial, in row and head order, and USED. `fmt` is the pages' format, 0 for a packed block. -/
def AttnIn.partials (x : AttnIn) (fmt : Nat) (kv : List KvPos) : List Partial × Nat :=
  let sigma := if x.scale = 0 then invSqrt x.dim else x.scale
  let spans := List.range (ceilDiv (x.last - x.first) 128)
  let per := max 1 (x.qHeads / max 1 x.kvHeads)
  let rows := (List.range x.rows).map fun r =>
    let row := x.rowTab.getD r (0, 0xFFFF)
    let adm := kv.filter (x.admits row)
    let ps := (List.range x.heads).map fun g =>
      let q0 := x.queries.getD (r * x.heads + g) []
      let q := if x.qn then narrowQuery fmt q0 else q0
      let h := (x.headBase + g) / per
      spans.foldl (fun (p : Partial) c =>
        let ch := (adm.filter (fun (p : KvPos) => (p.index - x.first) / 128 = c)).map (fun p => (p.k.getD h [], p.v.getD h []))
        if ch.isEmpty then p else p.chunk sigma q ch) (Partial.empty x.dim)
    (ps, adm.length)
  (rows.flatMap (·.1), (rows.map (·.2)).sum)

/-- Precision rank of a format (Table 7-3); 7 for a floor that names no format of it. -/
def rank (fmt : Nat) : Nat :=
  match fmt with
  | 0x01 => 6
  | 0x02 => 6
  | 0x04 => 5
  | 0x03 => 4
  | 0x05 => 3
  | 0x21 => 2
  | 0x20 => 1
  | _ => 7

/-- R171. -/
def underruns (fmt floor : Nat) : Bool := floor != 0 && decide (rank fmt < rank floor)

/-- A widened key or value beyond BF16's range becomes an infinity (R170). -/
def widen (v : FVal) : FVal :=
  if v.isFinite && FVal.lt (bf16.decode bf16.maxCode) v.abs then .inf v.isNeg else v

/-- What a walk's pages give: a cause (0: none), the positions read, the state after the reads. -/
structure PageRun where
  s : State
  cause : Nat := 0
  kv : List KvPos := []

/-- A poisoned line under a token slot. -/
def State.slotMarked (s : State) (p : PageFmt) (frame t : Nat) : Bool :=
  s.mem.anyPoison (frameAddr frame + p.scales t) p.sf ||
    (List.range 2).any (fun c => (List.range p.heads).any (fun h => s.mem.anyPoison (frameAddr frame + p.block c h t) p.kf))

/-- One page of a walk: its positions of [first, last), read by the port of Furrow n (R168, R170, R172), now or when
its frame was released. -/
def PageRun.page (r : PageRun) (n slice : Nat) (p : PageFmt) (w : Walk) (first last k : Nat) : PageRun :=
  if r.cause != 0 then r
  else
    match w.reads.find? (fun x => x.page = k) with
    | some x => { r with cause := x.cause, kv := r.kv ++ x.kv }
    | none =>
    match r.s.openPage n slice p (w.page k) with
    | ((0, book), s) =>
      let frame := handleFrame (w.page k)
      let lo := max first (k * p.tokens)
      let slots := (List.range (min last ((k + 1) * p.tokens) - lo)).map (fun i => lo + i - k * p.tokens)
      let s := s.countBook n p frame book slots
      slots.foldl (fun (r : PageRun) t =>
        if r.cause != 0 then r
        else
          let heads (c : Nat) : List (List (Option FVal)) :=
            (List.range p.heads).map (fun h => r.s.pageHead n p frame book c h t)
          let ks := heads 0
          let vs := heads 1
          if ks.any (fun l => l.any Option.isNone) || vs.any (fun l => l.any Option.isNone) then
            { r with cause := if r.s.slotMarked p frame t || isPQ p.fmt then 0x84 else 0x2A }
          else
            let get (l : List (List (Option FVal))) : List (List FVal) := l.map (fun h => h.map (fun v => widen (v.getD .nan)))
            let j := k * p.tokens + t
            { r with kv := r.kv ++ [⟨j, j, none, get ks, get vs⟩] }) { r with s }
    | ((code, _), s) => { r with s, cause := code }

/-- Every page of a walk's range in ascending order. -/
def State.walkRead (s : State) (n slice : Nat) (p : PageFmt) (w : Walk) (first last : Nat) : PageRun :=
  (pageSpan p.tokens first last).foldl (fun (r : PageRun) k => r.page n slice p w first last k) { s }

/-- Read the pages of a walk that lie in a frame, before the frame is released (R74). -/
def State.walkReadFrame (s : State) (w : Walk) (frame : Nat) : State :=
  let e := w.layerEnt
  match s.pageFmt (s.rootModel (handleFrame w.root)) e.fmt with
  | none => s
  | some p =>
    if p.tokens = 0 || !e.enabled then s
    else
      ((pageSpan p.tokens w.first w.len).filter (fun k => s.localFrame (w.page k) = some frame)).foldl (fun s k =>
        let r := ({ s } : PageRun).page w.furrow w.slice p w w.first w.len k
        r.s.modWalk w.id (fun v => { v with reads := v.reads ++ [⟨k, r.cause, r.kv⟩] })) s

/-- The positions of a packed block (R175): its own row table, then K, then V, each by position, head, element. -/
def packedKv (m : Memory) (d : AttnDesc) (hkv dim qfmt first last : Nat) : List KvPos :=
  let w := elemBits qfmt / 8
  let tab := rowTable d.kvRows (m.readBytes d.kvOff (8 * d.kvRows))
  let k0 := d.kvOff + 8 * d.kvRows
  let v0 := k0 + d.kvRows * hkv * dim * w
  let head (b j h : Nat) : List FVal := (rowCodes qfmt dim (m.readBytes (b + (j * hkv + h) * dim * w) (dim * w))).map (codeVal qfmt)
  ((List.range d.kvRows).filter (fun j => first ≤ j && j < last)).map fun j =>
    let e := tab.getD j (0, 0xFFFF)
    ⟨j, e.1, some e.2, (List.range hkv).map (head k0 j), (List.range hkv).map (head v0 j)⟩

/-- The shape limits of Table 7-5. -/
def attnShapeBad (g : Geometry) (rows headBase heads : Nat) : Bool :=
  rows < 1 || 64 < rows || heads < 1 || 64 < heads || g.qHeads < headBase + heads || 512 < g.dim || 1024 < rows * heads

/-! ### Merge groups (R186 to R191) -/

/-- A group's ID: node, slot, sequence number. -/
def State.groupId (s : State) (g : Nat) : Nat :=
  s.node % 2 ^ 14 * 2 ^ 18 + g % 256 * 2 ^ 10 + s.rdf ⟨.fabMgStatus, 0, g, 0⟩ 25 16

/-- The slot of an open group with this ID. -/
def State.groupSlot (s : State) (gid : Nat) : Option Nat :=
  let g := bits gid 17 10
  if Table.has s.groups g && s.groupId g = gid then some g else none

/-- A group that has been aborted. -/
def State.groupAborted (s : State) (g : Nat) : Bool := s.rdb ⟨.fabMgStatus, 0, g, 0⟩ 1

/-- What an attention operation keeps beside its descriptor: group ID (0: none), walk (number plus 1, 0: none), floor,
request ID, head dimension, Sheaf index, window's end. -/
structure AttnLatch where
  gid : Nat
  walk : Nat
  floor : Nat
  request : Nat
  dim : Nat
  sheaf : Nat
  stop : Nat

/-- As the latch of an operation. -/
def AttnLatch.list (l : AttnLatch) : List Nat := [l.gid, l.walk, l.floor, l.request, l.dim, l.sheaf, l.stop]

/-- An attention operation's latch. -/
def AsyncOp.attn (o : AsyncOp) : AttnLatch :=
  let g (i : Nat) : Nat := o.latch.getD i 0
  ⟨g 0, g 1, g 2, g 3, g 4, g 5, g 6⟩

/-- The group an operation belongs to: ATTN.PART and FAB.QSHIP only. -/
def AsyncOp.group (o : AsyncOp) : Nat := if o.opc = 0xC8 || o.opc = 0x87 then o.attn.gid else 0

/-- Outstanding operations of a group: Furrow and operation. -/
def State.groupOps (s : State) (gid : Nat) : List (Nat × AsyncOp) :=
  if gid = 0 then [] else s.furrows.flatMap (fun p => (p.2.ops.filter (fun o => o.group = gid)).map (fun o => (p.1, o)))

/-- The header that an attention operation's record begins with, before anything is computed. -/
def AsyncOp.header (o : AsyncOp) : PartHdr :=
  let d := attnDescOf (o.desc.getD 0 [])
  let l := o.attn
  let first := if o.opc = 0x87 then d.shipFirst else d.localFirst
  { rows := d.rows, heads := d.heads, dim := l.dim, qfmt := if o.opc = 0x87 then 6 else queryFmt o.mod, first, last := first,
    segment := d.segment, sheaf := l.sheaf, resV := d.resV, resOff := d.resOff, group := l.gid, request := l.request }

/-- Take a job off every array. -/
def State.dropJob (s : State) (j : ArrayJob) : State :=
  { s with arrays := s.arrays.map (fun p =>
      (p.1, { p.2 with queue := p.2.queue.filter (· != j), moved := p.2.moved.filter (· != j),
                       running := p.2.running.filter (· != j) })) }

/-- An operation of an aborted group ends: GROUP_ABORT set, POISON clear, CAUSE the fault's code (R188). -/
def State.abortOp (s : State) (code : Nat) (p : Nat × AsyncOp) : State :=
  let (f, o) := p
  let s := if o.attn.walk = 0 then s else s.walkEnd (o.attn.walk - 1)
  let s := s.dropJob ⟨.part, f, o.id⟩
  let s := s.putRecord f (fld o.x 31 0) { o.header with abort := true, cause := code } none
  s.finish f o.id (Done.ofCode 0x2B)

/-- Change the request sent last. -/
def State.modLastFab (s : State) (g : FabOp → FabOp) : State :=
  { s with fabOps := s.fabOps.dropLast ++ (s.fabOps.getLast?.map g).toList }

/-- ABORT of a group to a member, to be resent once 4 µs on (R188, Table 7-7). -/
def State.sendAbort (s : State) (gid : Nat) (o : FabOp) : State :=
  match s.request .none o.slice { op := 0x0B, cls := 7, addr := o.req.addr, payload := toBytes 8 gid } with
  | none => s
  | some s => s.modLastFab (fun q => { q with resendAt := some (s.time + 4000) })

/-- Operations with distinct destinations, the first of each. -/
def distinctDst : List FabOp → List FabOp
  | [] => []
  | o :: t => o :: (distinctDst t).filter (fun p => p.dst != o.dst)

/-- A member fault (R188). -/
def State.memberFault (s : State) (gid node code : Nat) : State :=
  match s.groupSlot gid with
  | none => s
  | some g =>
    let r : Csr := ⟨.fabMgStatus, 0, g, 0⟩
    let s := s.wrf r 33 26 (satInc 8 (s.rdf r 33 26) 1)
    if s.groupAborted g then s
    else
      let members := (Table.get ⟨[], 0, 0⟩ s.groups g).members
      let s := (((s.wrf r 1 1 1).wrf r 7 2 (members.idxOf node)).wrf r 15 8 code).bump ⟨.fabMgAbortCnt, 0, 0, 0⟩
      let ships := s.fabOps.filter (fun o => o.group = some gid)
      let s := (distinctDst (ships.filter (fun o => o.dst != node && o.dst != s.node))).foldl (fun s o => s.sendAbort gid o) s
      let s := ships.foldl (fun s o => s.closeFab o.tag .aborted) s
      (s.groupOps gid).foldl (fun s p => s.abortOp code p) s

/-- A group descriptor (Table 7-4): members with the requester first, and WINDOW. -/
def groupDescOf (node : Nat) (bs : List Byte) : List Nat × Nat :=
  (node :: (List.range (bits (leAt bs 0 8) 6 0 - 1)).map (fun j => leAt bs (8 + 2 * (j + 1)) 2 % 2 ^ 14), leAt bs 2 2)

/-- MG.OPEN's refusals of a descriptor (R186). -/
def groupDescBad (node : Nat) (bs : List Byte) : Bool :=
  let w := leAt bs 0 8
  let n := bits w 6 0
  let (ms, win) := groupDescOf node bs
  n < 1 || 64 < n || !(win = 0 || (10 ≤ win && win ≤ 200)) || bits w 15 7 != 0 || bits w 63 32 != 0 ||
    (List.range (n - 1)).any (fun j => bits (leAt bs (8 + 2 * (j + 1)) 2) 15 14 != 0) || ms.eraseDups.length != ms.length

/-- MG.OPEN (R186). -/
def opMgOpen : SlotOp :=
  { enc := { opc := 0xEC, x := .g, y := .g, dx := true, ctr := true }
    cls := some .sys
    checks := fun c _ => ckHull c.y 0x88 64
    reads := fun c _ => [(fld c.y 31 0, 0x88)]
    run := fun c s =>
      let bs := (s.hull c.f).readBytes (fld c.y 31 0) 0x88
      if groupDescBad s.node bs then c.status 0x86 0 s
      else
        match firstBelow 256 (fun g => !Table.has s.groups g) with
        | none => c.status 0x98 0 s
        | some g =>
          let (ms, win) := groupDescOf s.node bs
          let w := if win = 0 then s.rdf ⟨.fabMgWindow, 0, 0, 0⟩ 15 0 else win
          let r : Csr := ⟨.fabMgStatus, 0, g, 0⟩
          let s := { s with groups := Table.set s.groups g ⟨ms, 100 * w, c.slice⟩ }
          c.status 0 g (s.wr r (BitVec.ofNat 64 (1 + (s.rdf r 25 16 + 1) % 1024 * 2 ^ 16))) }

/-- MG.CLOSE (R186). A slot that is not open returns BAD_PARAM; the fault recorded stays readable (log entry 20). -/
def opMgClose : SlotOp :=
  { enc := { opc := 0xED, x := .g, y := .g, dx := true, ctr := true }
    cls := some .sys
    run := fun c s =>
      let g := c.y.toNat
      if !Table.has s.groups g then c.status 0x86 0 s
      else if (s.groupOps (s.groupId g)).isEmpty then
        c.status 0 0 ({ s with groups := Table.erase s.groups g }.wrf ⟨.fabMgStatus, 0, g, 0⟩ 0 0 0)
      else c.status 0x87 0 s }

/-- MG.STAT (Table 7-6). A slot above 255 reads 0 (log entry 20). -/
def opMgStat : SlotOp :=
  { enc := { opc := 0xEE, x := .g, y := .g, dx := true }
    run := fun c s => s.setG c.f c.o.x.val (if c.y.toNat < 256 then s.rd ⟨.fabMgStatus, 0, c.y.toNat, 0⟩ else 0) }

/-- How an operation joins the group that GROUP_SLOT names (R187): the code that ends it at once, or the group's ID and
window. -/
def State.joinGroup (s : State) (slot : Nat) : Except Nat (Nat × Nat) :=
  if slot = 0 then .ok (0, 0)
  else if 256 < slot || !Table.has s.groups (slot - 1) then .error 0x20
  else if s.groupAborted (slot - 1) then .error 0x2B
  else .ok (s.groupId (slot - 1), (Table.get ⟨[], 0, 0⟩ s.groups (slot - 1)).window)

/-- An operation that names an aborted group: GROUP_ABORT set, no work (R187); CAUSE is the fault recorded. -/
def State.joinAborted (s : State) (f : Nat) (o : AsyncOp) (slot : Nat) : State :=
  s.abortOp (s.rdf ⟨.fabMgStatus, 0, slot - 1, 0⟩ 15 8) (f, { o with latch := { o.attn with gid := s.groupId (slot - 1) }.list })

/-! ### ATTN.PART (R165 to R168) -/

/-- Head dimension and KV heads of the model of an entry, 0 for a FREE entry or a model without a record. -/
def State.entryDims (s : State) (i : Nat) : Nat × Nat :=
  let e := s.entry i
  match s.geometry e.model with
  | none => (0, 0)
  | some g => if e.state = .free then (0, 0) else (g.dim, g.kvHeads)

/-- The code that ends ATTN.PART before it reads anything (Table 7-5). -/
def State.partCode (s : State) (i l : Nat) (d : AttnDesc) (tail hull : Bool) : Nat :=
  let e := s.entry i
  if e.state = .free then 0x21
  else
    match s.geometry e.model with
    | none => 0x21
    | some g =>
      if attnShapeBad g d.rows d.headBase d.heads || (hull && (d.kvRows < 1 || 4096 < d.kvRows)) then 0x20
      else if g.layers ≤ l || (tail && !hull && !e.inStep) then 0x21
      else 0

/-- Both queues that an attention operation may use are full (R166). -/
def State.attnFull (s : State) (field : Nat) : Bool :=
  match s.anyArray field with
  | none => false
  | some k => 32 ≤ (s.array k).load

/-- ATTN.PART. A Hull operand names no Furrow, so the record lies in the issuing Furrow's Hull (log entry 20). -/
def opAttnPart : SlotOp :=
  let enc : EncSpec :=
    { opc := 0xC8, x := .g, y := .g, z := .g, w := .g, mods := 0xF, reserved := fun o => o.mod.toNat % 4 = 3, ctr := true }
  { enc
    cls := some .mat
    stalls := fun c s => s.attnFull c.field
    checks := fun c s =>
      let (dim, hkv) := s.entryDims (sheafIx c.z)
      ckHull c.x 64 64 ++ ckHull c.y 64 64 ++ ckSheaf s c.slice c.z ++ ckLayer c.w ++
        ckAttn ((s.hull c.f).readBytes (fld c.y 31 0) 64) c.y (fld c.x 31 0) dim hkv (queryFmt c.mod) (c.mod.testBit 3) ++
        chk (s.anyArray c.field).isSome 0x07 0
    run := fun c s =>
      let bs := (s.hull c.f).readBytes (fld c.y 31 0) 64
      let d := attnDescOf bs
      let i := sheafIx c.z
      let e := s.entry i
      let tail := c.mod.testBit 2
      let hull := c.mod.testBit 3
      let l : AttnLatch := ⟨0, 0, e.floor, e.reqId.toNat, (s.entryDims i).1, i, 0⟩
      let (id, s) := c.issue enc .mat [bs] s
      let s := s.modOp c.f id (fun o => { o with latch := l.list })
      match s.partCode i (fld c.w 8 0) d tail hull, s.joinGroup d.slot with
      | 0, .ok (gid, _) =>
        let root := e.root
        let walk := !hull && (s.entryRoot i).isSome
        let (wid, s) := if walk then s.fresh else (0, s)
        let w : Walk :=
          { id := wid, kind := .attn, furrow := c.f, op := id, slice := c.slice, root, layer := fld c.w 8 0,
            first := d.localFirst, cap := d.localEnd, src := .entry i (tail && e.inStep) }
        let s := if walk then (s.walkStart w).getD s else s
        let s := s.modOp c.f id (fun o => { o with latch := { l with gid, walk := if walk then wid + 1 else 0 }.list })
        match s.anyArray c.field with
        | none => s
        | some k => s.queueJob k ⟨.part, c.f, id⟩
      | 0, .error 0x2B =>
        s.joinAborted c.f { c.capture enc .mat [bs] id with latch := l.list } d.slot
      | 0, .error code => s.finish c.f id (Done.ofCode code)
      | code, _ => s.finish c.f id (Done.ofCode code) }

/-- How an operation whose record holds a cause completes (R167, Table 14-7). -/
def partDone (cause : Nat) : Done :=
  if cause = 0 then Done.ok
  else { code := if 0x25 ≤ cause && cause ≤ 0x2A then cause else 0x85, poison := true, soft := true }

/-- What a computation of partials came to: body, header fields, cycles of the array. -/
structure AttnOut where
  s : State
  body : Option (List Byte)
  cause : Nat
  empty : Bool
  underrun : Bool
  used : Nat
  last : Nat
  cycles : Nat

/-- Array time of R382 for N positions. -/
def attnCycles (hkv n rows heads qfmt : Nat) : Nat :=
  hkv * ceilDiv n 128 * (8 + 2 * rows * ceilDiv heads (max 1 hkv) * (if qfmt = 4 then 1 else 2))

/-- Compute partials over what a walk or a packed block gave. -/
def AttnIn.finish (x : AttnIn) (s : State) (fmt cause : Nat) (kv : List KvPos) : AttnOut :=
  let (ps, used) := if cause = 0 then x.partials fmt kv else ([], 0)
  { s, body := if cause = 0 then some (bodyOf ps) else none, cause, empty := cause = 0 && used = 0,
    underrun := fmt != 0 && !kv.isEmpty && underruns fmt x.floor, used, last := x.last,
    cycles := attnCycles x.kvHeads kv.length x.rows x.heads x.qfmt }

/-- Partials over the pages of a latched walk, read by the port of Furrow n for a slice. -/
def State.attnWalk (s : State) (n slice : Nat) (x : AttnIn) (w : Walk) (bad : Nat) : AttnOut :=
  let e := w.layerEnt
  let model := s.rootModel (handleFrame w.root)
  let p := (s.pageFmt model e.fmt).getD ⟨e.fmt, 0, 0, 0⟩
  let x := { x with last := w.len }
  if bad != 0 then x.finish s e.fmt bad []
  else if p.tokens = 0 || !e.enabled then x.finish s e.fmt (if x.first < x.last then 0x80 else 0) []
  else
    let r := s.walkRead n slice p w x.first x.last
    x.finish r.s e.fmt r.cause r.kv

/-- ATTN.PART's computation. -/
def State.partDo (s : State) (f : Nat) (o : AsyncOp) : AttnOut :=
  let d := attnDescOf (o.desc.getD 0 [])
  let l := o.attn
  let m := s.hull f
  let qfmt := queryFmt o.mod
  let g := (s.geometry (s.entry l.sheaf).model).getD ⟨0, 0, 0, 0, 0, []⟩
  let qn := d.queryBytes l.dim qfmt
  let hull := o.mod.testBit 3
  let x : AttnIn :=
    { rows := d.rows, heads := d.heads, headBase := d.headBase, dim := l.dim, qHeads := g.qHeads, kvHeads := g.kvHeads,
      scale := d.scale, causal := d.causal, qn := d.qn && !hull, segment := d.segment, first := d.localFirst,
      last := min d.localEnd d.kvRows, floor := l.floor, qfmt,
      queries := queryRows (d.rows * d.heads) l.dim qfmt (m.readBytes d.qOff qn),
      rowTab := rowTable d.rows (m.readBytes d.posOff (8 * d.rows)) }
  let bad := if m.anyPoison d.qOff qn || m.anyPoison d.posOff (8 * d.rows) then 0x84 else 0
  if hull then
    let bad := if m.anyPoison d.kvOff (d.kvBytes g.kvHeads l.dim qfmt) then 0x84 else bad
    x.finish s 0 bad (if bad = 0 then packedKv m d g.kvHeads l.dim qfmt x.first x.last else [])
  else
    match s.walk? (l.walk - 1) with
    | some w => if l.walk = 0 then x.finish s 0 0x80 [] else s.attnWalk f o.slice x w bad
    | none => { x with last := x.first }.finish s 0 0x80 []

/-- The array that runs a job. -/
def State.arrayOf (s : State) (j : ArrayJob) : Option Nat := firstBelow 8 (fun k => (s.array k).running = some j)

/-- ATTN_PART_COMPLETE: the operation that an array runs finishes; a member fault where it would set POISON in a group
(R167, R188). -/
def attnPartComplete (f : FurrowId) (id : Nat) (s : State) : State :=
  match s.op? f.val id, s.arrayOf ⟨.part, f.val, id⟩ with
  | some o, some k =>
    let r := s.partDo f.val o
    let s := r.s.jobEnd k o.slice r.cycles
    if o.attn.gid != 0 && r.cause != 0 then s.memberFault o.attn.gid s.node r.cause
    else
      let s := if o.attn.walk = 0 then s else s.walkEnd (o.attn.walk - 1)
      let h := { o.header with last := r.last, empty := r.empty, underrun := r.underrun, poison := r.cause != 0,
                               cause := r.cause, used := r.used }
      (s.putRecord f.val (fld o.x 31 0) h r.body).finish f.val id (partDone r.cause)
  | _, _ => s

/-! ### ATTN.MERGE (R176 to R180) -/

/-- Bytes that a merge writes. -/
def mergeOut (part : Bool) (h : PartHdr) : Nat :=
  if part then 64 + bodyBytes h.rows h.heads h.dim else h.rows * h.heads * h.dim * (elemBits h.qfmt / 8)

/-- The header of a record in Hull. -/
def State.recordAt (s : State) (f off : Nat) : PartHdr := partHdrOf ((s.hull f).readBytes off 64)

/-- ATTN.MERGE. -/
def opAttnMerge : SlotOp :=
  let enc : EncSpec := { opc := 0xC9, x := .g, y := .g, z := .g, mods := 1, ctr := true }
  { enc
    cls := some .mat
    stalls := fun c s => s.attnFull c.field
    checks := fun c s =>
      let a := s.recordAt c.f (fld c.y 31 0)
      let b := s.recordAt c.f (fld c.z 31 0)
      ckHull c.x (mergeOut (c.mod.testBit 0) a) 64 ++ ckHull c.y (64 + bodyBytes a.rows a.heads a.dim) 64 ++
        ckHull c.z (64 + bodyBytes b.rows b.heads b.dim) 64 ++ chk (s.anyArray c.field).isSome 0x07 0
    run := fun c s =>
      let (id, s) := c.issue enc .mat [] s
      match s.anyArray c.field with
      | none => s
      | some k => s.queueJob k ⟨.merge, c.f, id⟩ }

/-- BAD_MERGE of R178. -/
def PartHdr.mismatch (a b : PartHdr) : Bool :=
  a.rows != b.rows || a.heads != b.heads || a.dim != b.dim || a.qfmt != b.qfmt || a.request != b.request

/-- A 32-bit sum of two fields; past its width no value is stated, and it is free. -/
def State.sum32 (s : State) (a b : Nat) : Nat × State := s.field32 (a + b)

/-- The header of a merged record (R177, R178). -/
def mergedHdr (a b : PartHdr) (used : Nat) : PartHdr :=
  let src := if a.resV || !b.resV then a else b
  { src with
    valid := true, empty := a.empty && b.empty, underrun := a.underrun || b.underrun, poison := a.poison || b.poison,
    abort := a.abort || b.abort, timeout := a.timeout || b.timeout, refused := a.refused || b.refused,
    cause := if a.cause = 0 then b.cause else a.cause, first := min a.first b.first, last := max a.last b.last, used }

/-- The normalised output of a partial: o / l in the query format; zeros where l is 0 (R177). -/
def Partial.output (p : Partial) (qfmt : Nat) : List Byte :=
  let f := floatFmt qfmt
  p.o.flatMap fun x =>
    toBytes (elemBits qfmt / 8)
      (if (fp32.decode p.l).isZero then 0 else (f.narrow .nearest (FVal.div (fp32.decode x) (fp32.decode p.l))).1)

/-- ORs the result flags into the member's word (R179). -/
def State.orResult (s : State) (f : Nat) (h : PartHdr) : State :=
  if h.resV && h.resOff + 4 ≤ 0x300000 then
    let w := (s.hull f).readNat h.resOff 4
    s.modHull f (fun m => m.writeNat h.resOff 4 (w ||| (bitVal h.abort 18 + bitVal h.underrun 20 + bitVal h.poison 21)))
  else s

/-- ATTN.MERGE's effect. NOT_READY is looked at before the comparison (log entry 20). -/
def State.mergeDo (s : State) (f : Nat) (o : AsyncOp) : Done × State :=
  let ya := fld o.y 31 0
  let za := fld o.z 31 0
  let xa := fld o.x 31 0
  let a := s.recordAt f ya
  let b := s.recordAt f za
  let part := o.mod.testBit 0
  if !a.valid || !b.valid then (Done.ofCode 0x23, s)
  else if a.mismatch b then (Done.ofCode 0x22, s)
  else
    let n := a.rows * a.heads
    let (used, s) := if part then s.sum32 a.used b.used else (0, s)
    let h := mergedHdr a b used
    let bad := h.poison || h.abort
    let m := s.hull f
    let ps := (List.range n).map (fun i => (partialAt m (ya + 64) n a.dim i).merge (partialAt m (za + 64) n a.dim i))
    let d : Done := { code := if h.abort then 0x2B else if h.poison then 0x85 else 0, poison := h.poison, soft := !h.abort }
    if part then (d, s.putRecord f xa h (if bad then none else some (bodyOf ps)))
    else
      let len := mergeOut false a
      let out := if bad then fillBytes len 0xFF
        else if h.empty then fillBytes len 0 else ps.flatMap (fun p => p.output a.qfmt)
      let s := s.modHull f (fun m => m.store xa (out.take (0x300000 - xa)) bad)
      (d, s.orResult f h)

/-- ATTN_MERGE_COMPLETE. -/
def attnMergeComplete (f : FurrowId) (id : Nat) (s : State) : State :=
  match s.op? f.val id, s.arrayOf ⟨.merge, f.val, id⟩ with
  | some o, some k =>
    let a := s.recordAt f.val (fld o.y 31 0)
    let cycles := 12 + 2 * ceilDiv (bodyBytes a.rows a.heads a.dim) 256 + ceilDiv (mergeOut (o.mod.testBit 0) a) 256
    let (d, s) := s.mergeDo f.val o
    (s.jobEnd k o.slice cycles).finish f.val id d
  | _, _ => s

/-! ### Commands -/

/-- MG_OPEN (R186). -/
def execMgOpen (f : FurrowId) (o : Slot) (s : State) : Res := answer (runSlot opMgOpen f o s)

/-- MG_CLOSE (R186). -/
def execMgClose (f : FurrowId) (o : Slot) (s : State) : Res := answer (runSlot opMgClose f o s)

/-- MG_STAT (R186). -/
def execMgStat (f : FurrowId) (o : Slot) (s : State) : Res := answer (runSlot opMgStat f o s)

/-- ATTN_PART (R165). -/
def execAttnPart (f : FurrowId) (o : Slot) (s : State) : Res := answer (runSlot opAttnPart f o s)

/-- ATTN_MERGE (R176). -/
def execAttnMerge (f : FurrowId) (o : Slot) (s : State) : Res := answer (runSlot opAttnMerge f o s)

/-- ATTN_PART_COMPLETE (R167). -/
def execAttnPartComplete (f : FurrowId) (id : Nat) (s : State) : Res := answer (attnPartComplete f id s)

/-- ATTN_MERGE_COMPLETE (R178). -/
def execAttnMergeComplete (f : FurrowId) (id : Nat) (s : State) : Res := answer (attnMergeComplete f id s)

end Sys2Proof.Machine
end

