-- ==== Sys2Proof/Machine/Ship.lean ====
section
/-! DEFINITION. Query ships: FAB.QSHIP, the holder's service walk and its answer, and merge-group windows and aborts (R183
to R191, R283, R336). -/

namespace Sys2Proof.Machine

/-! ### Requester -/

/-- The payload of a ship (R283, Table 11-7). -/
def shipPayload (e : SheafEntry) (d : AttnDesc) (layer gid stop : Nat) (rows queries : List Byte) : List Byte :=
  toBytes 8 e.reqId.toNat ++ toBytes 8 (e.epoch + e.floor % 256 * 2 ^ 32 + layer * 2 ^ 40) ++
    toBytes 8 (d.scale + d.rows * 2 ^ 32 + d.headBase * 2 ^ 39 + d.heads * 2 ^ 45 + bitVal d.causal 52 + bitVal d.qn 53 +
      6 * 2 ^ 54) ++
    toBytes 8 (d.shipFirst + d.shipEnd * 2 ^ 24 + d.segment * 2 ^ 48) ++ toBytes 8 (gid + stop % 2 ^ 32 * 2 ^ 32) ++ rows ++ queries

/-- The code that ends FAB.QSHIP before anything is sent (R380, Table 7-5). -/
def State.shipCode (s : State) (i layer : Nat) (d : AttnDesc) : Nat :=
  let e := s.entry i
  if e.state = .free then 0x21
  else
    match s.geometry e.model with
    | none => 0x21
    | some g => if attnShapeBad g d.rows d.headBase d.heads then 0x20 else if g.layers ≤ layer then 0x21 else 0

/-- Write a ship's record with a fault in it, and complete the ship (R185). -/
def State.shipFault (s : State) (f : Nat) (o : AsyncOp) (cause : Nat) (d : Done) : State :=
  (s.putRecord f (fld o.x 31 0)
    { o.header with poison := true, timeout := d.timeout, refused := d.refused, cause } none).finish f o.id d

/-- Send a ship (R183, R283). A ship of a merge group has its window in place of FAB_TIMEOUT (R189, R297). A ship that
finds no route completes with NO_ROUTE and leaves its record unwritten (log entry 20). -/
def State.sendShip (s : State) (c : Ctx) (id layer gid window : Nat) (e : SheafEntry) (d : AttnDesc) (dim : Nat) : State :=
  let m := s.hull c.f
  let qn := d.queryBytes dim 6
  let stop := s.time + window
  let ask : Ask :=
    { op := 0x07, cls := c.cls, addr := c.y,
      payload := shipPayload e d layer gid stop (m.readBytes d.posOff (8 * d.rows)) (m.readBytes d.qOff qn),
      len := bodyBytes d.rows d.heads dim, poison := m.anyPoison d.posOff (8 * d.rows) || m.anyPoison d.qOff qn }
  match s.request (.op c.f id) c.slice ask with
  | none => s.finish c.f id (Done.ofCode 0x5D)
  | some s =>
    if gid = 0 then s else s.modLastFab (fun o => { o with group := some gid, deadline := some stop })

/-- FAB.QSHIP (R183, R187, R380). Its queries are BF16 (log entry 20). -/
def opFabQship : SlotOp :=
  let enc : EncSpec := { opc := 0x87, x := .g, y := .g, z := .g, w := .g, mods := 0x700, ctr := true }
  { enc
    cls := some .fab
    checks := fun c s =>
      let (dim, hkv) := s.entryDims (fld c.w 30 16)
      ckHull c.x 64 64 ++ ckGlobal s c.slice c.y 1 ++ ckHull c.z 64 64 ++ ckLayerSel s c.slice c.w ++
        ckAttn ((s.hull c.f).readBytes (fld c.z 31 0) 64) c.z (fld c.x 31 0) dim hkv 6 false
    run := fun c s =>
      let bs := (s.hull c.f).readBytes (fld c.z 31 0) 64
      let d := attnDescOf bs
      let i := fld c.w 30 16
      let layer := fld c.w 8 0
      let e := s.entry i
      let dim := (s.entryDims i).1
      let l : AttnLatch := ⟨0, 0, e.floor, e.reqId.toNat, dim, i, 0⟩
      let (id, s) := c.issue enc .fab [bs] s
      let s := s.modOp c.f id (fun o => { o with latch := l.list })
      let o := { c.capture enc .fab [bs] id with latch := l.list }
      match s.shipCode i layer d, s.joinGroup d.slot with
      | 0, .ok (gid, window) =>
        if gid != 0 && !(Table.get ⟨[], 0, 0⟩ s.groups (d.slot - 1)).members.contains (gaNode c.y) then
          s.finish c.f id (Done.ofCode 0x24)
        else
          let s := s.modOp c.f id (fun o => { o with latch := { l with gid, stop := s.time + window }.list })
          if s.unconfirmed i then
            if gid = 0 then s.shipFault c.f o 0x25 { code := 0x25, poison := true, refused := true }
            else s.memberFault gid (gaNode c.y) 0x25
          else s.sendShip c id layer gid window e d dim
      | 0, .error 0x2B => s.joinAborted c.f o d.slot
      | 0, .error code => s.finish c.f id (Done.ofCode code)
      | code, _ => s.finish c.f id (Done.ofCode code) }

/-- The reply to a ship (R185, R188): the record, or a member fault. -/
def State.replyShip (s : State) (f : Nat) (o : AsyncOp) (m : FabOp) (r : Reply) : State :=
  let cause :=
    if r.done.timeout then 0x27 else if r.done.code != 0 then r.done.code else if r.rsp.poison then r.rsp.cause else 0
  let fault := r.done.timeout || r.done.code != 0 || r.rsp.poison
  let gid := o.attn.gid
  if gid != 0 && fault then s.memberFault gid m.dst cause
  else if r.done.timeout then s.shipFault f o 0x27 { code := 0x27, poison := true, timeout := true }
  else if r.done.code != 0 then s.shipFault f o cause { r.done with poison := true }
  else
    let h := { o.header with first := r.rsp.arg0, last := r.rsp.arg1, used := r.rsp.used, empty := r.rsp.empty,
                             underrun := r.rsp.underrun, poison := fault, cause }
    (s.putRecord f (fld o.x 31 0) h (if fault then none else some r.rsp.payload)).finish f o.id
      (if fault then partDone cause else Done.ok)

/-- An answer to a ship: its record and its counter, or a member fault, or discarded (R185, R188, R191). -/
def qshipAnswer (r : Rsp) (s : State) : State :=
  let (l, s) := s.answer { r with op := 0x87 }
  l.foldl (fun s p =>
    let s := s.closeAnswered p.1 r
    match p.1.owner with
    | .op f id =>
      match s.op? f id with
      | none => s
      | some o => s.replyShip f o p.1 p.2
    | _ => s) s

/-- MG_WINDOW_EXPIRY: a member whose ship has had no answer by the window's end is a member fault (R188). An answer
stamped before the end still counts (R191). -/
def mgWindowExpiry (g : GroupId) (s : State) : State :=
  if Table.has s.groups g.val then
    let gid := s.groupId g.val
    let due := s.fabOps.filter fun o =>
      o.group = some gid && (match o.deadline with | none => false | some d => d ≤ s.time) &&
        !s.answers.any (fun r => r.tag == o.tag && o.inTime r.stamp)
    (distinctDst due).foldl (fun s o => s.memberFault gid o.dst 0x27) s
  else s

/-- ABORT_RESEND: an ABORT not acknowledged within 4 µs is resent once (Table 7-7). -/
def abortResend (id : Nat) (s : State) : State :=
  match s.fabOp? id with
  | none => s
  | some o =>
    match o.req.op, o.resendAt with
    | 0x0B, some t =>
      if t ≤ s.time && !o.again then (s.modFab id (fun p => { p with resendAt := none })).dispatch o else s
    | _, _ => s

/-! ### Holder (R184, R189, R285, R336) -/

/-- A ship as it arrived (Table 11-7). -/
structure ShipReq where
  request : Word
  epoch : Nat
  floor : Nat
  layer : Nat
  scale : Nat
  rows : Nat
  headBase : Nat
  heads : Nat
  causal : Bool
  qn : Bool
  qfmt : Nat
  first : Nat
  last : Nat
  segment : Nat
  group : Nat
  stop : Nat

/-- The fields of a ship's payload. -/
def shipReqOf (bs : List Byte) : ShipReq :=
  let w (i : Nat) : Nat := leAt bs (8 * i) 8
  ⟨wordAt bs 0, bits (w 1) 31 0, bits (w 1) 39 32, bits (w 1) 48 40, bits (w 2) 31 0, bits (w 2) 38 32, bits (w 2) 44 39,
    bits (w 2) 51 45, (w 2).testBit 52, (w 2).testBit 53, bits (w 2) 57 54, bits (w 3) 23 0, bits (w 3) 47 24,
    bits (w 3) 63 48, bits (w 4) 31 0, bits (w 4) 63 32⟩

/-- System time that a deadline of 32 bits names, compared modulo 2^32; one that has passed is now (R283). -/
def deadlineAt (now low : Nat) : Nat :=
  let d := (low + 2 ^ 32 - now % 2 ^ 32) % 2 ^ 32
  if d < 2 ^ 31 then now + d else now

/-- The model of what a node holds of a request. -/
def State.holdingModel (s : State) : Holding → Nat
  | .entry i => (s.entry i).model
  | .hold sl j => s.rootModel (handleFrame (s.holdAt sl j).root)

/-- A holding's root frame, if its handle names one. -/
def State.holdingFrame (s : State) (h : Holding) : Option Nat := s.localFrame (s.holdingRoot h)

/-- Why a holder refuses a ship or pull, 0 where it serves it: NO_TABLE or STALE_EPOCH (R184, R336). -/
def State.holderCode (s : State) (slice src epoch : Nat) (parity : Bool) : Option Holding → Nat
  | none => 0x26
  | some h => if !parity && s.holdingParity h then 0x26 else if s.epochServed slice src epoch h then 0 else 0x25

/-- A shipped shape that no walk can serve (Table 7-5); the payload must hold the rows it names. -/
def ShipReq.bad (q : ShipReq) (g : Geometry) (bytes : Nat) : Bool :=
  attnShapeBad g q.rows q.headBase q.heads || !(q.qfmt = 4 || q.qfmt = 6 || q.qfmt = 7) || g.layers ≤ q.layer ||
    bytes != 40 + 8 * q.rows + pad8 (q.rows * q.heads * g.dim * (elemBits q.qfmt / 8))

/-- The answer to a ship. -/
def State.answerShip (s : State) (m : Req) (q : ShipReq) (dim : Nat) (r : AttnOut) : State :=
  s.respond m
    { op := 0, poison := r.cause != 0, arg0 := q.first, arg1 := r.last, cause := r.cause, empty := r.empty,
      underrun := r.underrun, used := r.used, payload := r.body.getD (fillBytes (bodyBytes q.rows q.heads dim) 0xFF) }

/-- QSHIP: an arriving ship (R184, R189, R285). A node with no Furrow or no array to serve it refuses it with NO_SLICE or
ARRAY_FENCED (log entry 20); a full walk queue answers RETRY (R75). -/
def qship (m : Req) (s : State) : State :=
  let m := { m with op := 0x07 }
  match s.screen m with
  | (.served _, s) =>
    let slice := gaSlice m.addr
    let q := shipReqOf m.payload
    if q.group != 0 && s.abortFilter.any (fun p => p.1 == q.group) then s.bump ⟨.fabMgFilterCnt, 0, 0, 0⟩
    else
      let h := s.holding slice q.request
      match s.holderCode slice m.src q.epoch false h, h with
      | 0, some h =>
        match s.geometry (s.holdingModel h) with
        | none => s.refuse m 0x20
        | some g =>
          if q.bad g m.payload.length then s.refuse m 0x20
          else
            let field := s.holdingField h
            match s.holdingFrame h, s.servingFurrow slice field with
            | none, _ =>
              s.answerShip m q g.dim { s, body := none, cause := 0x80, empty := false, underrun := false, used := 0, last := q.first, cycles := 0 }
            | some _, none => s.refuse m 0x50
            | some _, some f =>
              match s.anyArray (f / 16) with
              | none => s.refuse m 0x16
              | some k =>
                let (id, s) := s.fresh
                let w : Walk :=
                  { id, kind := .qship, furrow := f, op := id, req := some m, slice, root := s.holdingRoot h, layer := q.layer,
                    first := q.first, cap := q.last, src := h.source,
                    stopAt := if q.group = 0 then none else some (deadlineAt s.time q.stop) }
                match s.walkStart w with
                | none => s.respond m { op := 0, status := 0x5E }
                | some s => s.queueJob k ⟨.ship, f, id⟩
      | code, _ => s.refuse m code
  | (_, s) => s

/-- The computation of a ship's service (R168 to R174). -/
def State.shipDo (s : State) (w : Walk) (m : Req) : ShipReq × Nat × AttnOut :=
  let q := shipReqOf m.payload
  let g := (s.geometry (s.rootModel (handleFrame w.root))).getD ⟨0, 0, 0, 0, 0, []⟩
  let x : AttnIn :=
    { rows := q.rows, heads := q.heads, headBase := q.headBase, dim := g.dim, qHeads := g.qHeads, kvHeads := g.kvHeads,
      scale := q.scale, causal := q.causal, qn := q.qn, segment := q.segment, first := q.first, last := w.len,
      floor := q.floor, qfmt := q.qfmt,
      queries := queryRows (q.rows * q.heads) g.dim q.qfmt (m.payload.drop (40 + 8 * q.rows)),
      rowTab := rowTable q.rows ((m.payload.drop 40).take (8 * q.rows)) }
  (q, g.dim, s.attnWalk w.furrow w.slice x w (if m.poison then 0x84 else 0))

/-- End a ship's service with no answer (R189). -/
def State.shipStop (s : State) (w : Walk) : State := (s.walkEnd w.id).dropJob ⟨.ship, w.furrow, w.id⟩

/-- QSHIP_SERVICE_COMPLETE: the array that serves a ship finishes; nothing is sent past the service deadline (R184,
R189). -/
def qshipServiceComplete (f : FurrowId) (id : Nat) (s : State) : State :=
  match s.walk? id, s.arrayOf ⟨.ship, f.val, id⟩ with
  | some w, some k =>
    match w.req with
    | none => s
    | some m =>
      if w.kind != .qship then s
      else
        let (q, dim, r) := s.shipDo w m
        let late := match w.stopAt with | none => false | some d => d ≤ s.time
        let t := (r.s.jobEnd k w.slice r.cycles).walkEnd id
        if late then t else t.answerShip m q dim r
  | _, _ => s

/-- SERVICE_DEADLINE_EXPIRY (R189). -/
def serviceDeadlineExpiry (id : Nat) (s : State) : State :=
  match s.walk? id with
  | none => s
  | some w =>
    match w.stopAt with
    | none => s
    | some d => if d ≤ s.time && w.kind = .qship then s.shipStop w else s

/-- Group of a walk that serves a ship, 0 for none. -/
def Walk.shipGroup (w : Walk) : Nat :=
  match w.kind, w.req with
  | .qship, some m => leAt m.payload 0x20 4
  | _, _ => 0

/-- ABORT in its turn: it enters the filter for 20 µs, and services of its group end within 2 µs (R189). -/
def State.serveAbort (s : State) (m : Req) : State :=
  let gid := leAt m.payload 0 4
  let s := { s with
    abortFilter := (gid, s.time + 20000) :: s.abortFilter.filter (fun p => p.1 != gid)
    walks := s.walks.map (fun (w : Walk) =>
      if gid != 0 && w.shipGroup = gid then { w with stopAt := some (min (w.stopAt.getD (s.time + 2000)) (s.time + 2000)) } else w) }
  s.ack m []

/-- ABORT_FILTER_EXPIRY (R189). -/
def abortFilterExpiry (group : BitVec 32) (s : State) : State :=
  { s with abortFilter := s.abortFilter.filter (fun p => p.1 != group.toNat || s.time < p.2) }

/-! ### Commands -/

/-- FAB_QSHIP (R183). -/
def execFabQship (f : FurrowId) (o : Slot) (s : State) : Res := answer (runSlot opFabQship f o s)

/-- QSHIP_ANSWER (R185). -/
def execQshipAnswer (m : Rsp) (s : State) : Res := answer (qshipAnswer m s)

/-- MG_WINDOW_EXPIRY (R188). -/
def execMgWindowExpiry (g : GroupId) (s : State) : Res := answer (mgWindowExpiry g s)

/-- ABORT_RESEND (R190). -/
def execAbortResend (id : Nat) (s : State) : Res := answer (abortResend id s)

/-- QSHIP (R184). -/
def execQship (m : Req) (s : State) : Res := answer (qship m s)

/-- QSHIP_SERVICE_COMPLETE (R184). -/
def execQshipServiceComplete (f : FurrowId) (id : Nat) (s : State) : Res := answer (qshipServiceComplete f id s)

/-- SERVICE_DEADLINE_EXPIRY (R189). -/
def execServiceDeadlineExpiry (id : Nat) (s : State) : Res := answer (serviceDeadlineExpiry id s)

/-- ABORT_FILTER_EXPIRY (R189). -/
def execAbortFilterExpiry (group : BitVec 32) (s : State) : Res := answer (abortFilterExpiry group s)

end Sys2Proof.Machine
end

