-- ==== Sys2Proof/Machine/Pull.lean ====
section
/-! DEFINITION. Pulls: FAB.PULL, the holder's pull walk and its PAGE responses (R84, R85, R282, R336, R371). -/

namespace Sys2Proof.Machine

/-! ### Requester -/

/-- A pull's payload (Table 11-6). -/
structure PullReq where
  request : Word
  epoch : Nat
  layer : Nat
  first : Nat
  count : Nat
  reserved : Nat
deriving DecidableEq, Repr

/-- The fields of a pull's payload. -/
def pullReqOf (bs : List Byte) : PullReq :=
  let w := leAt bs 8 8
  ⟨wordAt bs 0, bits w 31 0, bits w 40 32, bits w 52 41, bits w 59 53 + 1, bits w 63 60⟩

/-- The payload of a pull (Table 11-6). -/
def pullPayload (q : PullReq) : List Byte :=
  toBytes 8 q.request.toNat ++
    toBytes 8 (q.epoch % 2 ^ 32 + q.layer % 2 ^ 9 * 2 ^ 32 + q.first % 2 ^ 12 * 2 ^ 41 + (q.count - 1) % 2 ^ 7 * 2 ^ 53)

/-- A pull's payload, as its operation captured it. -/
def AsyncOp.pull (o : AsyncOp) : PullReq := pullReqOf (o.desc.getD 0 [])

/-- The destination handle of page j of a pull. -/
def AsyncOp.pullDest (o : AsyncOp) (j : Nat) : Word := wordAt (o.desc.getD 1 []) (8 * j)

/-- Write status word j of a pull: the code and DONE (R282). -/
def State.pullStatus (s : State) (f : Nat) (o : AsyncOp) (j code : Nat) : State :=
  s.modHull f (fun m => m.writeNat (fld o.w 31 0 + 8 * j) 8 (code % 256 + 256))

/-- A pull ends: every page without a status takes `code`. -/
def State.pullEnd (s : State) (f : Nat) (o : AsyncOp) (answered : List Nat) (code : Nat) (d : Done) : State :=
  let q := o.pull
  (((List.range q.count).filter (fun j => !answered.contains j)).foldl (fun s j => s.pullStatus f o j code) s).finish f o.id d

/-- R282: a destination that an arriving page may be written to. -/
def State.pullTarget (s : State) (slice : Nat) (h : Word) : Option Nat :=
  match s.localFrame h with
  | none => none
  | some n =>
    let d := s.frame n
    if s.current h && s.frameOf slice n && (d.kind = 1 || d.kind = 3) && d.walks = 0 && !s.guarded n then some n else none

/-- FAB.PULL (R282, R371). Reserved bits and a count above 64 of the payload raise RESERVED_FIELD (log entry 21). -/
def opFabPull : SlotOp :=
  let enc : EncSpec := { opc := 0x86, x := .g, y := .g, z := .g, w := .g, mods := 0xF00, ctr := true }
  let payload (c : Ctx) (s : State) : List Byte := (s.hull c.f).readBytes (fld c.y 31 0) 16
  let list (c : Ctx) (s : State) : List Byte := (s.hull c.f).readBytes (fld c.z 31 0) (8 * (pullReqOf (payload c s)).count)
  { enc
    cls := some .fab
    checks := fun c s =>
      let q := pullReqOf (payload c s)
      let hs := (List.range q.count).map (fun j => wordAt (list c s) (8 * j))
      ckGlobal s c.slice c.x 1 ++ chk (q.reserved = 0 && q.count ≤ 64) 0x03 c.y ++ ckHull c.y 16 64 ++ ckHull c.z (8 * q.count) 64 ++
        ckHull c.w (8 * q.count) 64 ++
        chk (!c.ra || hs.all (fun h =>
          match s.localFrame h with
          | none => false
          | some n => (s.frame n).kind = 3 && (s.frame n).walks = 0)) 0x09 c.z
    run := fun c s =>
      let bs := payload c s
      let q := pullReqOf bs
      let desc := [bs, list c s]
      let (id, s) := c.issue enc .fab desc s
      let own := (s.ownRequest c.slice q.request).any (fun i => s.unconfirmed i && (s.entry i).epoch = q.epoch)
      if own then s.pullEnd c.f (c.capture enc .fab desc id) [] 0x25 { code := 0x25, refused := true }
      else
        match s.request (.op c.f id) c.slice { op := 0x06, cls := c.cls, addr := c.x, payload := bs } with
        | none => s.finish c.f id (Done.ofCode 0x5D)
        | some s => s }

/-- Codes of a PAGE response that concern one page, not the pull (R282). -/
def pageCode (c : Nat) : Bool := c = 0x25 || c = 0x26 || c = 0x5F || c = 0x10 || (0x80 ≤ c && c ≤ 0x9D)

/-- What a page's status means for the pull's counter. -/
def pageDone (c : Nat) : Done := if c = 0 then Done.ok else { code := c, refused := c = 0x25 || c = 0x26 }

/-- Page j of a pull has its status; the pull ends with its last page (R282). -/
def State.pullPage (s : State) (f : Nat) (o : AsyncOp) (m : FabOp) (j : Nat) (code : Nat) (d : Done) : State :=
  let s := s.pullStatus f o j code
  let fail := if (o.fail.getD Done.ok).code = 0 && d.code != 0 then some { d with poison := d.poison || (o.fail.getD Done.ok).poison }
    else if d.poison then some { (o.fail.getD d) with poison := true } else o.fail
  let s := s.modOp f o.id (fun o => { o with fail })
  if m.pages.length + 1 = o.pull.count then (s.closeFab m.tag .answered).finish f o.id (fail.getD Done.ok)
  else s.modFab m.tag (fun m => { m with pages := j :: m.pages })

/-- A PAGE response for an outstanding pull (R200, R209, R282, R302). -/
def State.pageAnswer (s : State) (f : Nat) (o : AsyncOp) (m : FabOp) (x : Reply) : State :=
  let q := o.pull
  let r := x.rsp
  if r.status != 0 && !pageCode r.status then (s.closeFab m.tag .answered).pullEnd f o m.pages r.status x.done
  else
    let k := r.arg0 % 4096
    let j := k - q.first
    if k < q.first || q.count ≤ j then s.violation r.port 6 true false
    else if m.pages.contains j then s.violation r.port 8 true false
    else if x.void then s.pullPage f o m j 0x58 x.done
    else if r.status != 0 then s.pullPage f o m j r.status (pageDone r.status)
    else
      match s.pullTarget o.slice (o.pullDest j) with
      | none => s.pullPage f o m j 0x81 (pageDone 0x81)
      | some n =>
        let s := s.pageArrives n f (handleFmt (o.pullDest j)) (wordAt r.payload 0) (r.payload.drop 8) r.poison o.ra
        let s := s.gleanUpdate f (frameAddr n) 65536
        s.pullPage f o m j 0 { poison := (s.frame n).poisoned }

/-- The reply to a pull: a page, or its deadline passed (R282, R298). -/
def State.replyPull (s : State) (f : Nat) (o : AsyncOp) (m : FabOp) (x : Reply) : State :=
  if x.done.timeout then (s.closeFab m.tag .late).pullEnd f o m.pages 0x5C x.done else s.pageAnswer f o m x

/-! ### Holder -/

/-- Bytes of a page as a pull or push carries it: positions at and above the latched length as zeros (R84). -/
def State.carriedPage (s : State) (frame : Nat) (p : Option PageFmt) (k len : Nat) : List Byte × Bool :=
  let a := frameAddr frame
  let m := s.mem
  let poison := m.anyPoison a 65536
  match p with
  | none => (m.readBytes a 65536, poison)
  | some p =>
    let from' := len - k * p.tokens
    let slots := (List.range (p.tokens - from')).map (· + from')
    let z (m : Memory) (off n : Nat) : Memory := m.writeBytes (a + off) (fillBytes n 0)
    let m := slots.foldl (fun m t =>
      let m := (List.range 2).foldl (fun m c => (List.range p.heads).foldl (fun m h => z m (p.block c h t) p.kf) m) m
      z m (p.scales t) p.sf) m
    (m.readBytes a 65536, poison)

/-- The status of page k of a latched walk: a check of Table 3-10, or PROVISIONAL (R85, R282). -/
def State.pageStatus (s : State) (w : Walk) (k : Nat) : Nat :=
  let e := w.layerEnt
  if !e.enabled || !Table.has w.entries k then 0x80
  else
    match s.handleCheck (w.page k) e.fmt with
    | 0 => if handleFlag (w.page k) 3 then 0x5F else 0
    | c => c

/-- Answer page k of a pull walk with its status, or with its tag and bytes. A parity member's pages are carried whole. -/
def State.sendPage (s : State) (w : Walk) (m : Req) (k : Nat) : State :=
  match s.pageStatus w k with
  | 0 =>
    let n := handleFrame (w.page k)
    let p := if w.parity then none else s.pageFmt (s.rootModel (handleFrame w.root)) w.layerEnt.fmt
    let (bs, poison) := s.carriedPage n p k w.len
    s.respond m { op := 0, poison, arg0 := k, payload := toBytes 8 (s.tag n).toNat ++ bs }
  | c => s.respond m { op := 0, status := c, arg0 := k }

/-- A pull walk that has answered every page ends. -/
def State.pullWalkEnd (s : State) (id : Nat) : State :=
  match s.walk? id with
  | none => s
  | some w => if w.entries.isEmpty then s.walkEnd id else s

/-- Right after its latch a pull walk answers the pages it has no data for. -/
def State.pullLatched (s : State) (w : Walk) (m : Req) : State :=
  let ks := (List.range (w.cap - w.first)).map (· + w.first)
  let s := (ks.filter (fun k => s.pageStatus w k != 0)).foldl (fun s k =>
    (s.sendPage w m k).dropPage w k) s
  s.pullWalkEnd w.id

/-- A pull walk has read a frame: its pages are answered, then the frame is released (R74). -/
def State.pullRelease (s : State) (w : Walk) (m : Req) (frame : Nat) : State :=
  let ks := (w.entries.filter (fun p => s.localFrame p.2 = some frame)).map (·.1)
  let s := ks.foldl (fun s k => s.sendPage w m k) s
  let s := s.modWalk w.id (fun v => { v with entries := v.entries.filter (fun p => !ks.contains p.1) })
  (s.releaseFrame w.id frame).pullWalkEnd w.id

/-- PULL: an arriving pull (R282, R285, R336). -/
def pull (m : Req) (s : State) : State :=
  let m := { m with op := 0x06 }
  match s.screen m with
  | (.served _, s) =>
    let slice := gaSlice m.addr
    let q := pullReqOf m.payload
    let h := s.holding slice q.request
    let every (s : State) (code : Nat) : State :=
      (List.range q.count).foldl (fun s j => s.respond m { op := 0, status := code, arg0 := q.first + j }) s
    match s.holderCode slice m.src q.epoch true h, h with
    | 0, some h =>
      match s.holdingFrame h, s.servingFurrow slice (s.holdingField h) with
      | none, _ => every s 0x80
      | some _, none => s.refuse m 0x50
      | some root, some f =>
        if s.rootLayers root ≤ q.layer then every s 0x80
        else
          let (id, s) := s.fresh
          let w : Walk :=
            { id, kind := .pull, furrow := f, op := id, req := some m, slice, root := s.holdingRoot h, layer := q.layer,
              first := q.first, cap := q.first + q.count, src := h.source, parity := s.holdingParity h }
          (s.walkStart w).getD (s.respond m { op := 0, status := 0x5E })
    | code, _ => every ((s.bump ⟨.fabRefuseInCnt, 0, 0, 0⟩).fabFault code m.addr m.src slice m.op) code
  | (_, s) => s

/-! ### Commands -/

/-- FAB_PULL (R282). -/
def execFabPull (f : FurrowId) (o : Slot) (s : State) : Res := answer (runSlot opFabPull f o s)

/-- PULL (R282). -/
def execPull (m : Req) (s : State) : Res := answer (pull m s)

end Sys2Proof.Machine
end

