-- ==== Sys2Proof/Machine/Rows.lean ====
section
/-! DEFINITION. Adapter row updates: ROW.ST, ROW.ADD, ROW.FLUSH and what the home node does with an update (R258 to R261). -/

namespace Sys2Proof.Machine

/-- A fabric job of the device, with its number. -/
def State.newJob (s : State) (j : Job) : Nat × State :=
  let (id, s) := s.fresh
  (id, { s with jobs := Table.set s.jobs id j })

/-- A fabric job is done with. -/
def State.endJob (s : State) (id : Nat) : State := { s with jobs := Table.erase s.jobs id }

/-- Element-wise sum of two rows, formed in FP32 and rounded in the row's format (R258). -/
def rowSum (wide : Bool) (x y : List Byte) : List Byte :=
  let w := if wide then 4 else 2
  let f := if wide then fp32 else bf16
  (chunks w x).zip (chunks w y) |>.flatMap fun p =>
    toBytes w (f.encode (fp32.decode (fp32.encode (FVal.add (f.decode (fromBytes p.1)) (f.decode (fromBytes p.2))))))

/-- The bytes and element width of a row of an adapter version, as the local directory has them; where it has no such
version the length of "one full row" is open, and free (log entry 17). -/
def State.rowShape (s : State) (key v : Nat) : (Nat × Bool) × State :=
  match s.adpVer key v with
  | some x => ((64 * x.lines, x.wide), s)
  | none =>
    let (u, s) := s.free
    ((64 * (1 + u.toNat % 1023), u.getLsbD 32), s)

/-- The payload of a ROW message: key, then version, row and whether it adds, then the data (log entry 22). -/
def RowUpd.payload (u : RowUpd) : List Byte :=
  toBytes 8 u.key ++ toBytes 8 (u.version % 256 + u.row % 64 * 2 ^ 8 + bitVal u.add 14) ++ u.data

/-- Send a row update (R260). Its address names the home node and the program's slice (log entry 22). -/
def State.rowSend (s : State) (f : Nat) (u : RowUpd) : State :=
  let (id, s) := s.newJob (.row f u.ops)
  let addr := BitVec.ofNat 64 (u.node % 2 ^ 14 * 2 ^ 50 + u.slice % 64 * 2 ^ 44)
  match s.request (.job id) u.slice { op := 0x09, cls := u.cls, addr, payload := u.payload, len := u.data.length, poison := u.poison } with
  | some s => s
  | none => u.ops.foldl (fun s o => s.finish f o (Done.ofCode 0x5D)) (s.endJob id)

/-- Two updates of one row (Table 10-3). -/
def RowUpd.combine (held new : RowUpd) : RowUpd :=
  let both := { held with ops := held.ops ++ new.ops, poison := held.poison || new.poison }
  if new.add then { both with data := rowSum held.wide held.data new.data }
  else { new with ops := held.ops ++ new.ops }

/-- The same row of the same node. -/
def RowUpd.same (a b : RowUpd) : Bool := a.node == b.node && a.key == b.key && a.version == b.version && a.row == b.row

/-- An update enters its Furrow's update buffer of 64 rows (R260). -/
def State.rowPut (s : State) (f : Nat) (u : RowUpd) : State :=
  let l := (s.furrow f).rows
  if l.any (fun v => v.same u) then
    (s.modFurrow f (fun r => { r with rows := r.rows.map (fun (v : RowUpd) => if v.same u then v.combine u else v) })).bump
      ⟨.fabRowCoalesceCnt, 0, 0, 0⟩
  else
    let s := s.modFurrow f (fun r => { r with rows := r.rows ++ [u] })
    if l.length < 64 then s
    else
      match l.head? with
      | none => s
      | some old => (s.modFurrow f (fun r => { r with rows := r.rows.drop 1 })).rowSend f old

/-- Send every held update, oldest first (R260). -/
def State.flushRows (s : State) (f : Nat) : State :=
  (s.furrow f).rows.foldl (fun s u => s.rowSend f u) (s.modFurrow f (fun r => { r with rows := [] }))

/-- ROW.ST and ROW.ADD differ in their opcode. A node number above 16,383 names no node: NO_ROUTE (log entry 22). -/
def rowOp (opc : Nat) (add : Bool) : SlotOp :=
  let enc : EncSpec := { opc, x := .g, y := .g, z := .g, w := .g, mods := 0x700, ctr := true }
  { enc
    cls := some .fab
    checks := fun c s =>
      ckBits c.y (2 ^ 44 - 1) ++ ckBits c.z (2 ^ 14 - 1) ++ ckHull c.w (s.rowShape c.y.toNat (fld c.z 7 0)).1.1 64 ++
        chk (s.rdf ⟨.slcJob, c.slice, 0, 0⟩ 31 0 != 0) 0x06 c.x
    run := fun c s =>
      let ((n, wide), s) := s.rowShape c.y.toNat (fld c.z 7 0)
      let m := s.hull c.f
      let a := fld c.w 31 0
      let (id, s) := c.issue enc .fab [] s
      if 2 ^ 14 ≤ c.x.toNat then s.finish c.f id (Done.ofCode 0x5D)
      else
        s.rowPut c.f { node := c.x.toNat, key := c.y.toNat, version := fld c.z 7 0, row := fld c.z 13 8, slice := c.slice,
                       cls := c.cls, wide, add, data := m.readBytes a n, poison := m.anyPoison a n, ops := [id] } }

/-- ROW.ST (R258). -/
def opRowSt : SlotOp := rowOp 0x8A false
/-- ROW.ADD (R258). -/
def opRowAdd : SlotOp := rowOp 0x8B true

/-- ROW.FLUSH (R260). Its own counter falls once the updates are sent (log entry 22). -/
def opRowFlush : SlotOp :=
  { enc := { opc := 0x8C, mods := 0x700, ctr := true }
    cls := some .fab
    run := fun c s => c.instant Done.ok (s.flushRows c.f) }

/-! ### Home node (R259, R261) -/

/-- An update from another node than the last one's within FAB_ROW_WIN is a conflict (R261). -/
def State.rowConflict (s : State) (a : Nat) (m : Req) : State :=
  let s := match Table.find s.rowSenders a with
    | some (node, t) =>
      s.bumpIf (node != m.src && m.stamp ≤ t + s.rdf ⟨.fabRowWin, 0, 0, 0⟩ 9 0 * 1000) ⟨.fabRowConflictCnt, 0, 0, 0⟩
    | none => s
  { s with rowSenders := Table.set s.rowSenders a (m.src, m.stamp) }

/-- A row update in its turn (R259, R261): refused with ADP_MISSING or ROW_FORMAT, or applied as one operation. -/
def State.serveRow (s : State) (m : Req) : State :=
  let key := leAt m.payload 0 8 % 2 ^ 44
  let w := leAt m.payload 8 8
  let data := m.payload.drop 16
  let row := bits w 13 8
  match s.adpVer key (bits w 7 0) with
  | none => s.refuse m 0x43
  | some x =>
    let n := 64 * x.lines
    let a := x.store + n * row
    if x.rows ≤ row then s.refuse m 0x43
    else
      let s := s.rowConflict a m
      if data.length != n then s.refuse m 0x47
      else
        match s.places (gaSlice m.addr) (.granary a) n true with
        | none => s.refuse m 0x54
        | some l =>
          let (old, p) := s.readPlaces l
          let new := if w.testBit 14 then rowSum x.wide old data else data
          (s.writePlaces l new (m.poison || (w.testBit 14 && p))).ack m []

/-! ### Commands -/

/-- ROW_ST (R258). -/
def execRowSt (f : FurrowId) (o : Slot) (s : State) : Res := answer (runSlot opRowSt f o s)

/-- ROW_ADD (R258). -/
def execRowAdd (f : FurrowId) (o : Slot) (s : State) : Res := answer (runSlot opRowAdd f o s)

/-- ROW_FLUSH (R260). -/
def execRowFlush (f : FurrowId) (o : Slot) (s : State) : Res := answer (runSlot opRowFlush f o s)

end Sys2Proof.Machine
end

