-- ==== Sys2Proof/Machine/Copies.lean ====
section
/-! DEFINITION. Handover messages as carried, the errands that expect an acknowledgement, and what a holder does with the
messages of its owner (R335 to R339, R352 to R357; log entry 25). -/

namespace Sys2Proof.Machine

/-! ### Messages (R338, Tables 13-2 to 13-4) -/

/-- The header of a HANDOVER payload (Table 13-2). -/
structure HoMsg where
  request : Word
  epoch : Nat
  kind : Nat
  target : Nat := 0
  code : Nat := 0
  arg : Nat := 0
deriving DecidableEq, Repr

/-- Its 24 bytes. -/
def HoMsg.bytes (h : HoMsg) : List Byte :=
  toBytes 8 h.request.toNat ++
    toBytes 8 (h.epoch % 2 ^ 32 + h.kind % 256 * 2 ^ 32 + h.target % 16 * 2 ^ 40 + h.code % 256 * 2 ^ 44) ++ toBytes 8 h.arg

/-- The header a payload spells. -/
def hoMsgOf (bs : List Byte) : HoMsg :=
  let w := leAt bs 8 8
  ⟨wordAt bs 0, bits w 31 0, bits w 39 32, bits w 43 40, bits w 51 44, leAt bs 16 8⟩

/-- The body of a PAGE_OPEN (Table 13-4). -/
structure PageOpen where
  layer : Nat
  index : Nat
  pkind : Nat
  pos : Nat
  member : Nat
  policy : Nat
  chunk : Nat
deriving DecidableEq, Repr

/-- Its 16 bytes. -/
def PageOpen.bytes (p : PageOpen) : List Byte :=
  toBytes 8 (p.layer % 2 ^ 9 + p.index % 2 ^ 12 * 2 ^ 9 + p.pkind % 4 * 2 ^ 21 + p.pos % 16 * 2 ^ 23 + p.member % 16 * 2 ^ 27 +
    p.policy % 4 * 2 ^ 31 + p.chunk % 2 ^ 12 * 2 ^ 33) ++ toBytes 8 0

/-- The body a PAGE_OPEN's payload spells. -/
def pageOpenOf (bs : List Byte) : PageOpen :=
  let w := leAt bs 24 8
  ⟨bits w 8 0, bits w 20 9, bits w 22 21, bits w 26 23, bits w 30 27, bits w 32 31, bits w 44 33⟩

/-- ARG of a PAGE_OPEN: the model, and for a data member its stripe's parity members, whose nodes and valid bits it needs
to send deltas (log entry 25). -/
def openArg (model : Nat) (parity : List (Option Nat)) : Nat :=
  let m (i : Nat) : Nat := match (parity[i]?).join with | none => 0 | some n => n % 2 ^ 14 + 2 ^ 14
  model % 2 ^ 20 + m 0 * 2 ^ 20 + m 1 * 2 ^ 35

/-- The parity members an ARG names, with their place. -/
def openParity (arg : Nat) : List (Nat × Nat) :=
  (if arg.testBit 34 then [(0, bits arg 33 20)] else []) ++ (if arg.testBit 49 then [(1, bits arg 48 35)] else [])

/-- Where a message to a node about a slice's request goes: that node, the slice's number, offset 0 (log entry 25). -/
def nodeAddr (node slice : Nat) : Word := BitVec.ofNat 64 (node % 2 ^ 14 * 2 ^ 50 + slice % 64 * 2 ^ 44)

/-- A HANDOVER message; it travels in class 7. -/
def hoAsk (addr : Word) (h : HoMsg) (body : List Byte) : Ask := { op := 0x0C, cls := 7, addr, payload := h.bytes ++ body }

/-- Send a HANDOVER message that nothing waits for; one that finds no route is not sent. -/
def State.hoSend (s : State) (slice : Nat) (addr : Word) (h : HoMsg) : State :=
  (s.request .none slice (hoAsk addr h [])).getD s

/-! ### Errands (R339, Table 13-5) -/

/-- Send a message on an errand; none where it finds no route. -/
def State.errand (s : State) (e : Errand) (slice : Nat) (a : Ask) : Option State :=
  let (id, s) := s.newJob (.errand 1 e)
  s.request (.job id) slice a

/-- The attempts of Table 13-5. -/
def hoAttempts : Nat := 4

/-- Messages that are sent again when unanswered: those that Table 13-5 gives attempts. -/
def Errand.again : Errand → Bool
  | .exchange _ => false
  | .source _ _ => false
  | .pageOpen _ _ _ => false
  | .pageWr _ _ _ => false
  | .deltaOpen _ _ => false
  | .delta _ _ => false
  | _ => true

/-- An attempt has had no answer: the next attempt leaves, or the errand has failed with NO_ANSWER: true. -/
def State.errandRetry (s : State) (id : Nat) (o : FabOp) : Bool × State :=
  match Table.find s.jobs id with
  | some (.errand n e) =>
    if n < hoAttempts && e.again then
      let s := { s with jobs := Table.set s.jobs id (.errand (n + 1) e) }
      let a : Ask := { op := o.req.op, cls := o.req.cls, addr := o.req.addr, payload := o.req.payload, len := o.req.len, fixed := o.fixed }
      match s.request (.job id) o.slice a with
      | some s => (false, s)
      | none => (true, s)
    else (true, s)
  | _ => (false, s)

/-! ### Holders (R335, R337, R355, R357) -/

/-- Refuse a message for its epoch (R339). -/
def State.staleEpoch (s : State) (m : Req) : State := (s.bump ⟨.fabHoStaleCnt, 0, 0, 0⟩).refuse m 0x25

/-- Serve a message at the hold record of its request; NO_TABLE where there is none (R336). -/
def State.atHold (s : State) (m : Req) (h : HoMsg) (k : Nat → HoldRec → State) : State :=
  match s.holdFind (gaSlice m.addr) h.request with
  | none => s.refuse m 0x26
  | some i => k i (s.holdAt (gaSlice m.addr) i)

/-- The same for a message whose epoch must be the record's. -/
def State.atEpoch (s : State) (m : Req) (h : HoMsg) (k : Nat → HoldRec → State) : State :=
  s.atHold m h (fun i r => if h.epoch = r.epoch then k i r else s.staleEpoch m)

/-- EPOCH_SET (R337). -/
def State.serveEpochSet (s : State) (m : Req) (h : HoMsg) : State :=
  s.atHold m h fun i r =>
    if h.epoch < r.epoch then s.staleEpoch m
    else if h.epoch = r.epoch then s.ack m []
    else (s.setHold (gaSlice m.addr) i { r with epoch := h.epoch, owner := m.src }).ack m []

/-- COVER: COVERED rises and EXPIRY is set (R352, R355). -/
def State.serveCover (s : State) (m : Req) (h : HoMsg) : State :=
  s.atEpoch m h fun i r =>
    (s.setHold (gaSlice m.addr) i { r with covered := max r.covered (bits h.arg 23 0), expiry := bits h.arg 63 32 }).ack m []

/-- A hold record, its table frames and its pages are freed (R355). -/
def State.dropHold (s : State) (slice i : Nat) : State :=
  let r := s.holdAt slice i
  let s := match s.localFrame r.root with
    | none => s
    | some n => s.freeTable n
  s.setHold slice i { request := 0, valid := false }

/-- DROP (R355). -/
def State.serveDrop (s : State) (m : Req) (h : HoMsg) : State :=
  s.atEpoch m h fun i _ => (s.dropHold (gaSlice m.addr) i).ack m []

/-- The handle a holder's table has for a page, if any. -/
def State.heldPage (s : State) (r : HoldRec) (layer index : Nat) : Option Word :=
  match s.localFrame r.root with
  | none => none
  | some root =>
    let e := s.layer root layer
    if s.rootLayers root ≤ layer || !e.enabled || e.pages ≤ index then none
    else
      let h := s.gword (e.addr index)
      if handleFlag h 0 then some h else none

/-- LOOKUP: the holder's handle of one page, with the record's epoch, COVERED and model. EPOCH 0 asks whatever the
record's epoch is, and is answered with handle 0 where the page is absent (R354, R359; log entry 25). -/
def State.serveLookup (s : State) (m : Req) (h : HoMsg) : State :=
  s.atHold m h fun _ r =>
    if h.epoch != 0 && h.epoch != r.epoch then s.staleEpoch m
    else
      let p := s.heldPage r (bits h.arg 8 0) (bits h.arg 20 9)
      if h.epoch != 0 && p.isNone then s.refuse m 0x80
      else
        let model := match s.localFrame r.root with | none => 0 | some n => s.rootModel n
        s.ack m (({ h with epoch := r.epoch, arg := (p.getD 0).toNat } : HoMsg).bytes ++ toBytes 8 (r.covered + model * 2 ^ 24))

/-- FENCE: FENCED is set or cleared by ARG[0] (R357; log entry 25). -/
def State.serveFence (s : State) (m : Req) (h : HoMsg) : State :=
  s.atEpoch m h fun i r => (s.setHold (gaSlice m.addr) i { r with fenced := h.arg.testBit 0 }).ack m []

/-- A loss of an entry's state: at once, or recorded for the commit of an entry in step (R60, R356). States that Table
2-4 gives no such transition keep. -/
def State.loseEntry (s : State) (i : Nat) : State :=
  let e := s.entry i
  if !([.admitted, .prefill, .parked, .decode, .paused, .expired, .handoverIn] : List ReqState).contains e.state then s
  else if e.inStep then s.setEntry i { e with lossRecorded := true }
  else s.transition i .lost rStateLost

/-- LOSS at the owner (R356). -/
def State.serveLoss (s : State) (m : Req) (h : HoMsg) : State :=
  match s.ownRequest (gaSlice m.addr) h.request with
  | none => s.refuse m 0x26
  | some i => if h.epoch != (s.entry i).epoch then s.staleEpoch m else (s.loseEntry i).ack m []

/-- HOLD_EXPIRY (R355): EXPIRY is system time bits [51:20]. -/
def holdExpiry (sl : SliceId) (h : Nat) (s : State) : State :=
  match s.holdSize sl.val with
  | none => s
  | some l =>
    let r := s.holdAt sl.val h
    if h < 2 ^ l && r.valid && r.expiry != 0 && r.expiry ≤ s.time / 2 ^ 20 % 2 ^ 32 then s.dropHold sl.val h else s

/-! ### Pages at a holder (R335, R352, R353) -/

/-- A root for a new hold record: the model's layers, or 256 where this node has no geometry of it (log entry 25). -/
def State.newHold (s : State) (m : Req) (h : HoMsg) (p : PageOpen) (i : Nat) : Option State :=
  let slice := gaSlice m.addr
  (s.allocate slice (reqField m) 2 0 false).map fun (n, s) =>
    let model := bits h.arg 19 0
    let layers := match s.geometry model with | none => 256 | some g => g.layers
    let root := mkHandle s.node n (s.frame n).gen 0 1
    let s := s.formatRoot n h.request model layers root
    s.setHold slice i { request := h.request, epoch := h.epoch, member := p.member, policy := p.policy, root, owner := m.src,
                        chunk := p.chunk }

/-- The next PAGE_WR of the stream is the one named (R352). -/
def State.opened (s : State) (m : Req) : State :=
  let k := s.reqStream m
  (s.setRx k { s.rxStream k with opened := some m }).ack m []

/-- PAGE_OPEN (R335, R336, R357). PKIND 3 is reserved: BAD_HDR (log entry 25). -/
def State.servePageOpen (s : State) (m : Req) (h : HoMsg) : State :=
  let slice := gaSlice m.addr
  let p := pageOpenOf m.payload
  if p.pkind = 3 then s.refuse m 0x57
  else
    match s.holdFind slice h.request with
    | some i =>
      let r := s.holdAt slice i
      if h.epoch != r.epoch then s.staleEpoch m else if r.fenced then s.refuse m 0x73 else s.opened m
    | none =>
      match s.holdFree slice h.request with
      | none => s.refuse m 0x71
      | some i =>
        match s.newHold m h p i with
        | none => s.refuse m 0x55
        | some s => s.opened m

/-- The frame a page is to be written to: that of the table's present handle, or a new one; none where there is no
frame (R231). True says it is new. -/
def State.pageTarget (s : State) (slice : Nat) (r : HoldRec) (layer index fmt : Nat) : Option ((Nat × Bool) × State) :=
  let old := ((s.heldPage r layer index).filter s.current).bind s.localFrame
  match old with
  | some n => some ((n, false), s)
  | none => (s.allocate slice (frameStack (handleFrame r.root)) 1 fmt false).map (fun (n, s) => ((n, true), s))

/-- A page's handle enters the holder's table; the answer is the handle (R352). None where no list frame is to be had. -/
def State.enterPage (s : State) (slice : Nat) (r : HoldRec) (layer index n fmt flags : Nat) : Option (Word × State) :=
  match s.localFrame r.root with
  | none => none
  | some root =>
    let h := mkHandle s.node n (s.frame n).gen fmt flags
    (s.holderPut slice (frameStack n) root layer index h).map (fun s => (h, s))

/-- Write a whole page and answer with its handle. -/
def State.installPage (s : State) (m : Req) (r : HoldRec) (layer index n : Nat) (made : Bool) : State :=
  let slice := gaSlice m.addr
  let t := wordAt m.payload 0
  match s.enterPage slice r layer index n (tagFmt t) 1 with
  | none => (if made then s.freeFrame n else s).refuse m 0x55
  | some (h, s) =>
    (s.pageArrives n (homeFurrow n) (tagFmt t) t (m.payload.drop 8) m.poison false).ack m (toBytes 8 h.toNat)

/-- Product in GF(2^8) modulo 0x11D. -/
def gfMul (a b : Nat) : Nat :=
  ((List.range 8).foldl (fun (p : Nat × Nat) i =>
    (if b.testBit i then p.1 ^^^ p.2 else p.1,
     let d := 2 * p.2
     if 256 ≤ d then d ^^^ 0x11D else d)) (0, a)).1

/-- 0x02 to a power in GF(2^8) (Table 13-6). -/
def gfPow : Nat → Nat
  | 0 => 1
  | n + 1 => gfMul (gfPow n) 2

/-- Bytes times a constant of GF(2^8). -/
def gfScale (k : Nat) (l : List Byte) : List Byte := l.map (fun b => BitVec.ofNat 8 (gfMul b.toNat k))

/-- Byte by byte exclusive or. -/
def xorBytes (a b : List Byte) : List Byte := List.zipWith (· ^^^ ·) a b

/-- A parity member applies a delta of position r: P ⊕= delta, Q ⊕= g^r·delta; the frame takes the delta's tag and poison
(R353). -/
def State.applyDelta (s : State) (m : Req) (r : HoldRec) (p : PageOpen) : State :=
  let slice := gaSlice m.addr
  let t := wordAt m.payload 0
  match s.pageTarget slice r p.layer p.index (tagFmt t) with
  | none => s.refuse m 0x55
  | some ((n, made), s) =>
    match s.enterPage slice r p.layer p.index n (tagFmt t) 1 with
    | none => (if made then s.freeFrame n else s).refuse m 0x55
    | some (h, s) =>
      let a := frameAddr n
      let old := if made then fillBytes 65536 0 else s.mem.readBytes a 65536
      let d := m.payload.drop 8
      let d := if r.member = dataMembers r.policy then d else gfScale (gfPow p.pos) d
      let s := (s.gwrite a (xorBytes old d) (m.poison || s.mem.anyPoison a 65536)).setTag n t
      (s.setFrame n { s.frame n with stamp := tagFmt t, poisoned := (s.frame n).poisoned || m.poison }).ack m (toBytes 8 h.toNat)

/-- Record of a parity update. -/
def State.delta? (s : State) (id : Nat) : Option Delta := s.deltas.find? (fun d => d.id = id)

/-- Change a parity update. -/
def State.modDelta (s : State) (id : Nat) (g : Delta → Delta) : State :=
  { s with deltas := s.deltas.map (fun (d : Delta) => if d.id = id then g d else d) }

/-- Send the delta of an update to some of its parity members (R353): a PAGE_OPEN of PKIND 1 at the stripe's index, then
the delta under the new version's tag, in class 7. A member with no route has failed with NO_ROUTE. -/
def State.sendDelta (s : State) (d : Delta) (to' : List Nat) : State :=
  let h := hoMsgOf d.opens.payload
  let p := pageOpenOf d.opens.payload
  let k := dataMembers p.policy
  let stripe := p.index / (k * p.chunk) * p.chunk + p.index % p.chunk
  let pars := openParity h.arg
  to'.foldl (fun s j =>
    match pars.find? (fun q => q.1 = j) with
    | none => s
    | some q =>
      let addr := nodeAddr q.2 (gaSlice d.req.addr)
      let body := ({ p with index := stripe, pkind := 1, pos := p.index % (k * p.chunk) / p.chunk, member := k + j } : PageOpen)
      let gone (s : State) : State := s.modDelta d.id (fun d => { d with fail := if d.fail = 0 then 0x5D else d.fail, lost := d.lost || d.back })
      match s.errand (.deltaOpen d.id j) d.slice (hoAsk addr { h with arg := bits h.arg 19 0 } body.bytes) with
      | none => gone s
      | some s =>
        match s.errand (.delta d.id j) d.slice
            { op := 0x0A, cls := 7, addr, payload := d.req.payload.take 8 ++ d.diff, len := 8, poison := d.req.poison } with
        | none => gone s
        | some s => s.modDelta d.id (fun d => { d with waiting := d.waiting ++ [j] })) s

/-- The delta of an update leaves: new ⊕ old, old being zero when no version was held (R353). -/
def State.startDelta (s : State) (d : Delta) : State :=
  let new := d.req.payload.drop 8
  let diff := if d.made then new else xorBytes (s.mem.readBytes (frameAddr d.frame) 65536) new
  let s := s.modDelta d.id (fun d => { d with sent := true, diff })
  match s.delta? d.id with
  | none => s
  | some d => s.sendDelta d d.parity

/-- An update of the same page that is not finished. -/
def State.deltaBusy (s : State) (d : Delta) : Option Delta :=
  s.deltas.find? (fun e => e.slice = d.slice && e.request = d.request && e.layer = d.layer && e.index = d.index)

/-- A data member of a code receives a version of a page: its parity members take the delta first (R353). -/
def State.newVersion (s : State) (m : Req) (r : HoldRec) (opens : Req) (p : PageOpen) : State :=
  let slice := gaSlice m.addr
  match s.pageTarget slice r p.layer p.index (tagFmt (wordAt m.payload 0)) with
  | none => s.refuse m 0x55
  | some ((n, made), s) =>
    let pars := (openParity (hoMsgOf opens.payload).arg).map (·.1)
    if pars.isEmpty || p.chunk = 0 then s.installPage m r p.layer p.index n made
    else
      let (id, s) := s.fresh
      let d : Delta :=
        { id, req := m, slice, request := r.request, layer := p.layer, index := p.index, frame := n, made, parity := pars, opens }
      let busy := (s.deltaBusy d).isSome
      let s := { s with deltas := s.deltas ++ [d] }
      if busy then s else s.startDelta d

/-- PAGE_WR in its turn (R209, R352, R353): it must follow its PAGE_OPEN directly. A fenced holder refuses a delta (R357). -/
def State.servePageWr (s : State) (m : Req) (opens : Option Req) : State :=
  match opens with
  | none => s.refuse m 0x26
  | some o =>
    let p := pageOpenOf o.payload
    s.atHold m (hoMsgOf o.payload) fun _ r =>
      match p.pkind with
      | 1 => if r.fenced then s.refuse m 0x73 else s.applyDelta m r p
      | 0 =>
        if r.policy = 2 || r.policy = 3 then s.newVersion m r o p
        else
          match s.pageTarget (gaSlice m.addr) r p.layer p.index (tagFmt (wordAt m.payload 0)) with
          | none => s.refuse m 0x55
          | some ((n, made), s) => s.installPage m r p.layer p.index n made
      | _ =>
        match s.pageTarget (gaSlice m.addr) r p.layer p.index (tagFmt (wordAt m.payload 0)) with
        | none => s.refuse m 0x55
        | some ((n, made), s) => s.installPage m r p.layer p.index n made

/-- A parity member has answered a delta, or its restoring one. -/
def State.deltaAnswer (s : State) (id j code : Nat) : State :=
  s.modDelta id fun d =>
    let d := { d with waiting := d.waiting.erase j }
    if d.back then { d with lost := d.lost || code != 0 }
    else if code = 0 then { d with applied := d.applied ++ [j] }
    else { d with fail := if d.fail = 0 then code else d.fail }

/-- An update that waited takes the frame the table names by now. -/
def State.retarget (s : State) (d : Delta) : Delta × State :=
  match (s.holdFind d.slice d.request).bind (fun i => s.heldPage (s.holdAt d.slice i) d.layer d.index) with
  | none => (d, s)
  | some h =>
    if d.made && s.current h then ({ d with frame := handleFrame h, made := false }, s.freeFrame d.frame) else (d, s)

/-- The next update of a page may start. -/
def State.nextDelta (s : State) (d : Delta) : State :=
  let s := { s with deltas := s.deltas.filter (fun e => e.id != d.id) }
  match s.deltaBusy d with
  | none => s
  | some e =>
    if e.sent then s
    else
      let (e, s) := s.retarget e
      (s.modDelta e.id (fun _ => e)).startDelta e

/-- PARITY_DELTA_RESOLVE (R353): with every answer in, the new version is installed; or, where a member failed, those
that applied the delta get it again, and then the push is refused. -/
def parityDeltaResolve (id : Nat) (s : State) : State :=
  match s.delta? id with
  | none => s
  | some d =>
    if !d.sent || !d.waiting.isEmpty then s
    else if d.fail = 0 then
      let s := match s.holdFind d.slice d.request with
        | none => (if d.made then s.freeFrame d.frame else s).refuse d.req 0x26
        | some i => s.installPage d.req (s.holdAt d.slice i) d.layer d.index d.frame d.made
      s.nextDelta d
    else if !d.back && !d.applied.isEmpty then
      (s.modDelta id (fun d => { d with back := true })).sendDelta { d with back := true } d.applied
    else
      let s := (s.bump ⟨.fabMirRevertCnt, 0, 0, 0⟩).refuse d.req (if d.lost then 0x75 else d.fail)
      (if d.made then s.freeFrame d.frame else s).nextDelta d

/-! ### Commands -/

/-- HOLD_EXPIRY (R355). -/
def execHoldExpiry (sl : SliceId) (h : Nat) (s : State) : Res := answer (holdExpiry sl h s)

/-- PARITY_DELTA_RESOLVE (R353). -/
def execParityDeltaResolve (id : Nat) (s : State) : Res := answer (parityDeltaResolve id s)

end Sys2Proof.Machine
end

