-- ==== Sys2Proof/Machine/Handover.lean ====
section
/-! DEFINITION. The handover protocol: its messages and instructions, timers, resends, adoption, and the journal's resolution
after a warm reset (R334, R338 to R350, R356, R359, R486 to R488; log entry 25). -/

namespace Sys2Proof.Machine

/-! ### Times and records -/

/-- LEASE in ns. -/
def State.lease (s : State) : Nat := s.rdf ⟨.fabHoLease, 0, 0, 0⟩ 15 0 * 1000
/-- The key of a journal record. -/
def jnlKey (sl j : Nat) : Nat := sl * 65536 + j
/-- LEASE of the handover that a record belongs to: the value it began under (R27). -/
def State.leaseOf (s : State) (sl j : Nat) : Nat := (Table.find s.leases (jnlKey sl j)).getD s.lease
/-- A handover takes a record: LEASE is taken with it. -/
def State.takeJnl (s : State) (sl j : Nat) (r : JnlRec) : State :=
  { s.setJnl sl j r with leases := Table.set s.leases (jnlKey sl j) s.lease }
/-- RETRY in ns. -/
def State.retryTime (s : State) : Nat := s.rdf ⟨.fabHoCtl, 0, 0, 0⟩ 23 16 * 1000
/-- OFFER_TO in ns. -/
def State.offerTo (s : State) : Nat := s.rdf ⟨.fabHoCtl, 0, 0, 0⟩ 15 0 * 100000

/-- e + k, 32 bits. -/
def epochPlus (e k : Nat) : Nat := (e + k) % 2 ^ 32

/-- Phases of the originator, 1 to 5, and of the receiver, 8 to 11 (Table 13-4). -/
def JnlRec.out (r : JnlRec) : Bool := 1 ≤ r.phase && r.phase ≤ 5
/-- A receiver's record. -/
def JnlRec.in' (r : JnlRec) : Bool := 8 ≤ r.phase && r.phase ≤ 11

/-- Where the partner of a record is reached. -/
def JnlRec.addr (r : JnlRec) : Word := nodeAddr r.partner r.pslice

/-- Write a record's phase. -/
def State.setPhase (s : State) (sl j phase : Nat) : State := s.setJnl sl j { s.jnlAt sl j with phase }

/-- A record is freed. -/
def State.freeJnl (s : State) (sl j : Nat) : State := s.setJnl sl j {}

/-- The entry of a record still holds its request. -/
def State.jnlEntry (s : State) (r : JnlRec) : Option Nat :=
  let e := s.entry r.sheaf
  if e.state != .free && e.reqId == r.request then some r.sheaf else none

/-! ### Exchanges (R339, Table 13-5) -/

/-- Send the message of an exchange. A REFUSE is resent until it is acknowledged. -/
def State.sendExchange (s : State) (x : Exchange) : State :=
  let a : Ask := { op := 0x0C, cls := 7, addr := x.addr, payload := x.payload }
  if x.kind = 3 then (s.errand (.exchange x.id) x.slice a).getD s else (s.request .none x.slice a).getD s

/-- Start to send a message every RETRY. -/
def State.startExchange (s : State) (sl j : Nat) (addr : Word) (h : HoMsg) (body : List Byte) (limit : Nat) (query : Bool) :
    State :=
  let (id, s) := s.fresh
  let x : Exchange := ⟨id, h.kind, sl, j, addr, h.bytes ++ body, s.time + s.retryTime, limit, query, s.retryTime⟩
  { s with exchanges := s.exchanges ++ [x] }.sendExchange x

/-- The answer to a message has arrived: it is no longer resent. -/
def State.endExchange (s : State) (sl j kind : Nat) : State :=
  { s with exchanges := s.exchanges.filter (fun x => !(x.slice = sl && x.jnl = j && x.kind = kind)) }

/-- Whether a message of a record is being resent. -/
def State.exchanging (s : State) (sl j kind : Nat) : Option Exchange :=
  s.exchanges.find? (fun x => x.slice = sl && x.jnl = j && x.kind = kind)

/-- HO_RESEND (R339). -/
def hoResend (id : Nat) (s : State) : State :=
  match s.exchanges.find? (fun x => x.id = id) with
  | none => s
  | some x =>
    if x.next ≤ s.time && s.time < x.limit then
      { s with exchanges := s.exchanges.map (fun (y : Exchange) => if y.id = id then { y with next := y.next + y.every } else y) }.sendExchange x
    else s

/-- HO_RESEND_END (R339, R347, R349): past its limit a RECLAIM or STEPPED frees the journal record too. -/
def hoResendEnd (id : Nat) (s : State) : State :=
  match s.exchanges.find? (fun x => x.id = id) with
  | none => s
  | some x =>
    if s.time < x.limit then s
    else
      let s := { s with exchanges := s.exchanges.filter (fun y => y.id != id) }
      if x.kind = 7 || x.kind = 9 then s.freeJnl x.slice x.jnl else s

/-! ### Ends of a handover -/

/-- The originator's entry goes back to its return state and the record is freed (R344, R487). -/
def State.revertOffer (s : State) (sl j reason : Nat) : State :=
  let r := s.jnlAt sl j
  let s := match s.jnlEntry r with
    | none => s
    | some i => if (s.entry i).state = ReqState.handoverOut then s.transition i (s.entry i).returnState reason else s
  ((s.endExchange sl j 1).endExchange sl j 4).freeJnl sl j

/-- The retained copy is released: its entry and its local frames are freed, and the record is kept as RELEASED (R348). -/
def State.releaseCopy (s : State) (sl j : Nat) : State :=
  let r := s.jnlAt sl j
  let s := match s.jnlEntry r with
    | none => s
    | some i =>
      let s := match s.localFrame (s.entry i).root with
        | none => s
        | some n => s.freeTable n
      s.transition i .free 0x32
  s.setPhase sl j 5

/-- The receiver's entry is discarded and its record freed (R345, R349). -/
def State.discard (s : State) (sl j : Nat) : State :=
  let r := s.jnlAt sl j
  let s := match s.jnlEntry r with
    | none => s
    | some i =>
      match (s.entry i).state with
      | .handoverIn => s.transition i .free 0x36
      | .parked => s.transition i .free 0x37
      | .decode => s.transition i .free 0x37
      | _ => s
  ((s.endExchange sl j 2).endExchange sl j 5).freeJnl sl j

/-- EPOCH_SET to every valid member of an entry's mirror set; the entry becomes eligible when all have answered (R347). -/
def State.epochSetAll (s : State) (i : Nat) : State :=
  let e := s.entry i
  let s := e.members.foldl (fun s m =>
    match s.errand (.epochSet i e.reqId m.2) e.slice
        (hoAsk (nodeAddr m.2 e.slice) { request := e.reqId, epoch := e.epoch, kind := 11 } []) with
    | none => s
    | some s => let e := s.entry i; s.setEntry i { e with epochWaits := e.epochWaits ++ [m.2] }) s
  let e := s.entry i
  if e.epochWaits.isEmpty then s.setEntry i { e with epochRound := false } else s

/-- A member has answered an EPOCH_SET, or its attempts have ended (R347, R359). -/
def State.epochSetDone (s : State) (i : Nat) (req : Word) (node code : Nat) : State :=
  let e := s.entry i
  if e.state = .free || e.reqId != req then s
  else
    let w := e.epochWaits.erase node
    let s := s.setEntry i { e with epochWaits := w, epochRound := e.epochRound && !w.isEmpty }
    if code = 0x25 then s.loseEntry i else s

/-- The receiver has learnt that the originator will never reclaim (R347). -/
def State.confirmIn (s : State) (sl j : Nat) : State :=
  let r := s.jnlAt sl j
  let s := (s.setPhase sl j 10).endExchange sl j 5
  match s.jnlEntry r with
  | none => s
  | some i => if (s.entry i).epoch = epochPlus r.epoch 1 then s.epochSetAll i else s

/-- The originator takes the request back (R349). -/
def State.reclaim (s : State) (sl j : Nat) : State :=
  let r := s.jnlAt sl j
  let e2 := epochPlus r.epoch 2
  let s := (s.endExchange sl j 4).bump ⟨.fabHoReclaimCnt, 0, 0, 0⟩
  let s := match s.jnlEntry r with
    | none => s
    | some i =>
      let s := s.setEntry i { s.entry i with epoch := e2 }
      s.transition i (s.entry i).returnState 0x33
  let s := s.setPhase sl j 4
  let e := s.entry r.sheaf
  let s := e.members.foldl (fun s m =>
    (s.errand .notice sl (hoAsk (nodeAddr m.2 sl) { request := r.request, epoch := e2, kind := 11 } [])).getD s) s
  s.startExchange sl j r.addr { request := r.request, epoch := e2, kind := 9 } [] (s.time + s.leaseOf sl j) false

/-! ### Instructions (R341 to R343, R350, R356) -/

/-- HO.OFFER's status. -/
def State.offerStatus (s : State) (sl i target : Nat) : Nat :=
  let e := s.entry i
  if target != 3 && target != 4 then 0x86
  else if e.inStep then 0x87
  else if !(e.state = .parked || e.state = .decode || e.state = .paused) then 0x70
  else if (s.jnlFree sl).isNone then 0x71
  else 0

/-- HO.OFFER (R341). -/
def opHoOffer : SlotOp :=
  { enc := { opc := 0xF5, x := .g, y := .g, z := .g, dx := true, mods := 15, ctr := true }
    cls := some .sys
    checks := fun c s => ckSheaf s c.slice c.y ++ ckGlobal s c.slice c.z 1
    run := fun c s =>
      let i := fld c.y 14 0
      let target := c.mod % 16
      match s.offerStatus c.slice i target, s.jnlFree c.slice with
      | 0, some j =>
        let d := s.time + s.offerTo
        let s := s.transition i .handoverOut 0x30
        let s := s.setEntry i { s.entry i with partner := gaNode c.z }
        let e := s.entry i
        let s := s.takeJnl c.slice j
          { request := e.reqId, phase := 1, sheaf := i, partner := gaNode c.z, pslice := gaSlice c.z, epoch := e.epoch, target, d }
        c.status 0 0 (s.startExchange c.slice j c.z { request := e.reqId, epoch := e.epoch, kind := 1, target, arg := d } e.image d false)
      | code, _ => c.status code 0 s }

/-- Records of a slice's offer inbox, none while it is disabled. -/
def State.inboxSize (s : State) (sl : Nat) : Option Nat :=
  let b := (s.rd ⟨.fabHoInboxBase, 0, sl, 0⟩).toNat
  let l := s.rdf ⟨.fabHoInboxCtl, 0, sl, 0⟩ 3 0
  if b = 0 || l < 4 || 12 < l then none else some (2 ^ l)

/-- Address of an inbox record: header, image at 0x18, stamp at 0x118, originator's node at 0x120 (R342; log entry 25). -/
def State.inboxAddr (s : State) (sl i : Nat) : Nat := (s.rd ⟨.fabHoInboxBase, 0, sl, 0⟩).toNat + 384 * i

/-- HEAD and TAIL of an inbox. -/
def State.inboxEnds (s : State) (sl : Nat) : Nat × Nat :=
  (s.rdf ⟨.fabHoInboxCtl, 0, sl, 0⟩ 27 16, s.rdf ⟨.fabHoInboxCtl, 0, sl, 0⟩ 43 32)

/-- Slots from HEAD up to TAIL. -/
def State.inboxSlots (s : State) (sl : Nat) : List Nat :=
  match s.inboxSize sl with
  | none => []
  | some n =>
    let (h, t) := s.inboxEnds sl
    (List.range ((t + n - h % n) % n)).map (fun k => (h + k) % n)

/-- The OFFER a slot holds, if it is unanswered: header, image and originator's node. -/
def State.inboxOffer (s : State) (sl i : Nat) : Option (HoMsg × List Byte × Nat) :=
  if (s.inboxSlots sl).contains i then
    let a := s.inboxAddr sl i
    let h := hoMsgOf (s.mem.readBytes a 24)
    if h.kind = 1 then some (h, s.mem.readBytes (a + 24) 256, s.mem.readNat (a + 0x120) 8) else none
  else none

/-- A slot is answered: its KIND clears (log entry 25). -/
def State.inboxAnswer (s : State) (sl i : Nat) : State := s.gwrite (s.inboxAddr sl i + 12) [0] false

/-- The slice field of an entry image. -/
def imageSlice (img : List Byte) : Nat := fld (wordAt img 8) 23 18

/-- The entry HO.ACCEPT makes of an image (R343). -/
def acceptedEntry (img : List Byte) (h : HoMsg) (sl node : Nat) (root : Word) (mirror : Option (List Byte)) : SheafEntry :=
  let e := SheafEntry.fromImage {} (fun _ => 2 ^ 64 - 1) img
  let e := { e with slice := sl, root, maskPtr := 0, state := .free, inStep := false, changePending := false, tail := 0,
                    epoch := h.epoch, partner := node, lease := 0, batchTag := 0 }
  match mirror with
  | none => e
  | some m => ((e.setWord 8 (wordAt m 0)).setWord 9 (wordAt m 8)).setWord 10 (BitVec.ofNat 64 (leAt m 16 4))

/-- HO.ACCEPT's status: Table 2-9, then the root, then the journal (R340, R343, R517; log entry 25). -/
def State.acceptStatus (s : State) (sl : Nat) (e : SheafEntry) (root : Word) : Nat :=
  let n := handleFrame root
  let a := s.admitStatus sl e
  if a != 0 then a
  else if handleNode root != s.node then 0x81
  else if !s.frameOf sl n then 0x9B
  else if !s.current root then 0x83
  else if (s.frame n).kind != 2 then 0x81
  else if (s.jnlFree sl).isNone then 0x71
  else 0

/-- HO.ACCEPT (R343). -/
def opHoAccept : SlotOp :=
  { enc := { opc := 0xF6, x := .g, y := .g, z := .h, w := .g, dx := true, ctr := true }
    cls := some .sys
    checks := fun c s => ckHandle s c.slice (c.r.hr c.o.z.val) false ++ (if c.w = 0 then [] else ckHull c.w 20 64)
    reads := fun c _ => if c.w = 0 then [] else [(fld c.w 31 0, 20)]
    run := fun c s =>
      let root := c.r.hr c.o.z.val
      match s.admitRefusal c.slice, s.inboxOffer c.slice c.y.toNat with
      | some code, _ => c.status code 0 s
      | none, none => c.status 0x86 0 s
      | none, some (h, img, node) =>
        let mirror := if c.w = 0 then none else some ((s.hull c.f).readBytes (fld c.w 31 0) 20)
        let e := acceptedEntry img h c.slice node root mirror
        match s.acceptStatus c.slice e root, s.lowestFree c.slice, s.jnlFree c.slice with
        | 0, some i, some j =>
          let s := (s.geoRef e.model true).adpRef (adpKey e.customer e.model) e.adapter true
          let e := { e with adpHeld := s.adpHolds (adpKey e.customer e.model) e.adapter }
          let s := (s.setEntry i e).transition i .handoverIn 0x34
          let r : JnlRec :=
            { request := h.request, phase := 8, sheaf := i, partner := node, pslice := imageSlice img, epoch := h.epoch,
              target := h.target, d := h.arg }
          let s := (s.takeJnl c.slice j r).inboxAnswer c.slice c.y.toNat
          c.status 0 0 (s.startExchange c.slice j r.addr { request := h.request, epoch := h.epoch, kind := 2 } []
            (h.arg + s.lease + 10000) false)
        | code, _, _ => c.status code 0 s }

/-- HO.REFUSE (R343). -/
def opHoRefuse : SlotOp :=
  { enc := { opc := 0xF7, x := .g, y := .g, dx := true, mods := 0xFF, ctr := true }
    cls := some .sys
    run := fun c s =>
      match s.inboxOffer c.slice c.y.toNat with
      | none => c.status 0x86 0 s
      | some (h, img, node) =>
        let s := s.inboxAnswer c.slice c.y.toNat
        c.status 0 0 (s.hoSend c.slice (nodeAddr node (imageSlice img))
          { request := h.request, epoch := h.epoch, kind := 3, code := c.mod % 256 }) }

/-- HO.CONFIRM (R350): HO_STATE where the entry's record is not UNRESOLVED. -/
def opHoConfirm : SlotOp :=
  { enc := { opc := 0xF8, x := .g, y := .g, dx := true, ctr := true }
    cls := some .sys
    checks := fun c s => ckSheaf s c.slice c.y
    run := fun c s =>
      let i := fld c.y 14 0
      match s.jnlFind c.slice (fun r => r.phase = 11 && r.sheaf = i && r.request == (s.entry i).reqId) with
      | none => c.status 0x70 0 s
      | some j => c.status 0 0 (s.confirmIn c.slice j) }

/-- HO.LOSE (R356): a state from which Table 2-4 has no such transition is ILLEGAL_TRANSITION. -/
def opHoLose : SlotOp :=
  { enc := { opc := 0xF9, x := .g, y := .g, dx := true, ctr := true }
    cls := some .sys
    checks := fun c s => ckSheaf s c.slice c.y
    run := fun c s =>
      let i := fld c.y 14 0
      if ([.admitted, .prefill, .parked, .decode, .paused, .expired, .handoverIn] : List ReqState).contains (s.entry i).state then
        c.status 0 0 (s.loseEntry i)
      else c.status 0x8B 0 s }

/-- HO.STAT: word 0x08 of a journal record, 0 where there is none (log entry 25). -/
def opHoStat : SlotOp :=
  { enc := { opc := 0xFB, x := .g, y := .g, dx := true, ctr := false }
    cls := some .sys
    run := fun c s =>
      let v := match s.jnlSize c.slice with
        | none => 0
        | some l => if c.y.toNat < 2 ^ l then s.gword (s.jnlAddr c.slice c.y.toNat + 8) else 0
      s.setG c.f c.o.x.val v }

/-! ### Adoption (R359) -/

/-- Members that must answer for every page to be covered. -/
def adoptNeed (policy : Nat) : Nat := dataMembers policy

/-- Clear the valid bit of a member. -/
def SheafEntry.dropMember (e : SheafEntry) (i : Nat) : SheafEntry :=
  let k := 16 * (i % 4) + 15
  if i < 4 then { e with mirror0 := setFld e.mirror0 k k 0 }
  else if i < 8 then { e with mirror1 := setFld e.mirror1 k k 0 }
  else { e with mirror2 := setFld e.mirror2 k k 0 }

/-- HO.ADOPT writes its status and its counter falls. -/
def State.adoptStatus (s : State) (id : Nat) (a : Adoption) (code : Nat) : State :=
  let s := { s with adoptions := Table.erase s.adoptions id }
  (s.setG a.furrow a.dest (statusWord code 0)).finish a.furrow a.op (Done.ofCode code)

/-- HO.ADOPT: the refusals of SHF.ADMIT, NO_COPY where no member can answer, else LOOKUP to every valid member. -/
def opHoAdopt : SlotOp :=
  let enc : EncSpec := { opc := 0xFA, x := .g, y := .g, dx := true, ctr := true }
  { enc
    cls := some .sys
    checks := fun c s => ckTemplate s c
    reads := fun c _ => [(fld c.y 31 0, 256)]
    run := fun c s =>
      let t := templateEntry ((s.hull c.f).readBytes (fld c.y 31 0) 256)
      let code := s.admitStatus c.slice t
      if code != 0 then c.status code 0 s
      else if t.mirrorPolicy = 0 || t.members.isEmpty then c.status 0x78 0 s
      else
        let (id, s) := c.issue enc .sys [] s
        let a : Adoption := { furrow := c.f, op := id, dest := c.o.x.val, slice := c.slice, template := t, waiting := [] }
        let s := { s with adoptions := Table.set s.adoptions id a }
        t.members.foldl (fun s m =>
          match s.errand (.lookupAdopt id m.1) c.slice (hoAsk (nodeAddr m.2 c.slice) { request := t.reqId, epoch := 0, kind := 14 } []) with
          | none => s
          | some s =>
            let a := Table.get a s.adoptions id
            { s with adoptions := Table.set s.adoptions id { a with waiting := a.waiting ++ [m.1] } }) s }

/-- A member has answered its LOOKUP, or has not: the answer's epoch and COVERED. -/
def State.adoptAnswer (s : State) (id member : Nat) (ans : Option (Nat × Nat)) : State :=
  match Table.find s.adoptions id with
  | none => s
  | some a =>
    let a := { a with waiting := a.waiting.erase member }
    let a := match ans with
      | none => a
      | some p => { a with got := a.got ++ [(member, p.1, p.2)] }
    { s with adoptions := Table.set s.adoptions id a }

/-- The smallest of a list, 0 for none. -/
def leastOf (l : List Nat) : Nat := (l.min?).getD 0

/-- ADOPT_LOOKUP_COMPLETE (R359). -/
def adoptLookupComplete (id : Nat) (s : State) : State :=
  match Table.find s.adoptions id with
  | none => s
  | some a =>
    if !a.waiting.isEmpty then s
    else if a.got.length < adoptNeed a.template.mirrorPolicy then s.adoptStatus id a 0x78
    else
      let t := a.template
      match s.admitStatus a.slice t, s.lowestFree a.slice with
      | 0, some i =>
        let key := adpKey t.customer t.model
        let v := s.adpCurrent key
        let s := (s.geoRef t.model true).adpRef key v true
        let gone := (List.range 10).filter (fun k => !a.got.any (fun g => g.1 = k))
        let t := gone.foldl (fun (t : SheafEntry) k => t.dropMember k) t
        let s := s.setEntry i
          { t with epoch := epochPlus (((a.got.map (fun g => g.2.1)).max?).getD 0) 2, len := leastOf (a.got.map (fun g => g.2.2)),
                   adapter := v, adpHeld := s.adpHolds key v, admitTime := s.time, state := .free }
        ((s.transition i .admitted rAdmit).epochSetAll i).adoptStatus id a 0
      | code, _ => s.adoptStatus id a code

/-! ### Messages at the originator and the receiver -/

/-- The record of a request at one side. -/
def State.jnlOf (s : State) (sl : Nat) (req : Word) (side : JnlRec → Bool) : Option Nat :=
  s.jnlFind sl (fun r => side r && r.request == req)

/-- The record a message of an epoch concerns, which lies `back` above the record's e: that of the same handover, else any of the
request (R339, R344). -/
def State.jnlFor (s : State) (sl : Nat) (req : Word) (side : JnlRec → Bool) (epoch back : Nat) : Option Nat :=
  (s.jnlOf sl req (fun r => side r && epochPlus r.epoch back = epoch)).or (s.jnlOf sl req side)

/-- A message for a request of which this node holds neither an entry nor a record is answered HO_GONE (R488); with an
entry and no record its epoch is stale. `back` is how far its epoch lies above e. -/
def State.goneOrStale (s : State) (m : Req) (h : HoMsg) (back : Nat) : State :=
  let sl := gaSlice m.addr
  let known := (s.findRequest h.request).isSome || (s.jnlOf sl h.request (fun r => r.phase != 0)).isSome
  if known then s.staleEpoch m
  else
    (s.ack m []).hoSend sl (nodeAddr m.src sl)
      { request := h.request, epoch := (h.epoch + 2 ^ 32 - back) % 2 ^ 32, kind := 3, code := 0x77 }

/-- OFFER at the receiver (R342): into the inbox, or HO_FULL. A repeated one is answered as the first was, and one of another
epoch than the offer in the inbox, or than a handover whose entry stands, is stale (R339). -/
def State.serveOffer (s : State) (m : Req) (h : HoMsg) : State :=
  let sl := gaSlice m.addr
  let again := s.jnlOf sl h.request (fun r => r.in' && r.epoch = h.epoch)
  let taken := s.jnlOf sl h.request (fun r => r.in' && (s.jnlEntry r).isSome)
  match again, taken with
  | some j, _ =>
    let r := s.jnlAt sl j
    if r.phase = 8 then (s.ack m []).hoSend sl r.addr { request := h.request, epoch := h.epoch, kind := 2 }
    else s.ack m []
  | none, some _ => s.staleEpoch m
  | none, none =>
    if s.fallow then s.refuse m 0xB1
    else if s.sliceState sl = 3 then s.refuse m 0xB0
    else
    let held := (s.inboxSlots sl).filterMap fun i =>
      match s.inboxOffer sl i with
      | none => none
      | some (g, _, _) => if g.request == h.request then some g.epoch else none
    if held.contains h.epoch then s.ack m []
    else if !held.isEmpty then s.staleEpoch m
    else
      match s.inboxSize sl with
      | none => s.refuse m 0x71
      | some n =>
        let (head, tail) := s.inboxEnds sl
        let r : Csr := ⟨.fabHoInboxCtl, 0, sl, 0⟩
        if (tail + 1) % n = head % n then (s.count r 63 48 1).refuse m 0x71
        else
          let rec' := m.payload.take 280 ++ toBytes 8 m.stamp ++ toBytes 8 m.src
          let s := s.gwrite (s.inboxAddr sl tail) (rec' ++ fillBytes (384 - rec'.length) 0) false
          (s.wrf r 43 32 ((tail + 1) % n)).ack m []

/-- ACCEPT at the originator (R344). One after D, or for an offer already given up, is answered HO_LATE. -/
def State.serveAccept (s : State) (m : Req) (h : HoMsg) : State :=
  let sl := gaSlice m.addr
  let late (s : State) (addr : Word) : State :=
    s.hoSend sl addr { request := h.request, epoch := h.epoch, kind := 3, code := 0x72 }
  match s.jnlFor sl h.request JnlRec.out h.epoch 0 with
  | none => late (s.ack m []) (nodeAddr m.src sl)
  | some j =>
    let r := s.jnlAt sl j
    if h.epoch != r.epoch || 3 ≤ r.phase then s.staleEpoch m
    else if r.phase = 2 then
      (s.ack m []).hoSend sl r.addr { request := h.request, epoch := h.epoch, kind := 4, arg := r.e }
    else if r.d < m.stamp then late (s.ack m []) r.addr
    else
      let e := m.stamp + s.leaseOf sl j
      let s := match s.jnlEntry r with
        | none => s
        | some i => s.setEntry i { s.entry i with lease := e }
      let s := (s.setJnl sl j { r with phase := 2, e }).endExchange sl j 1
      (s.startExchange sl j r.addr { request := h.request, epoch := h.epoch, kind := 4, arg := e } [] e false).ack m []

/-- REFUSE at either side (R344, R345, R487). -/
def State.serveRefuse (s : State) (m : Req) (h : HoMsg) : State :=
  let sl := gaSlice m.addr
  match s.jnlFor sl h.request (fun r => r.phase != 0) h.epoch 0 with
  | none => s.ack m []
  | some j =>
    let r := s.jnlAt sl j
    if h.epoch != r.epoch then s.staleEpoch m
    else if r.phase = 1 then (s.revertOffer sl j 0x31).ack m []
    else if r.phase = 2 then
      let query := match s.exchanging sl j 4 with | none => false | some x => x.query
      if query && (h.code = 0x76 || h.code = 0x77) then (s.revertOffer sl j 0x38).ack m [] else s.ack m []
    else if r.phase = 8 then (s.discard sl j).ack m []
    else s.ack m []

/-- COMMIT at the receiver (R345): it moves an entry that is still in HANDOVER_IN. -/
def State.serveCommit (s : State) (m : Req) (h : HoMsg) : State :=
  let sl := gaSlice m.addr
  match s.jnlFor sl h.request JnlRec.in' h.epoch 0 with
  | none => s.goneOrStale m h 0
  | some j =>
    let r := s.jnlAt sl j
    let e1 := epochPlus r.epoch 1
    if h.epoch != r.epoch then s.staleEpoch m
    else if r.phase != 8 then
      (s.ack m []).hoSend sl r.addr { request := h.request, epoch := e1, kind := 5 }
    else
      let s := match s.jnlEntry r with
        | none => s
        | some i =>
          if (s.entry i).state != ReqState.handoverIn then s
          else
          let s := s.setEntry i { s.entry i with epoch := e1, admitTime := s.time, epochRound := true }
          s.transition i (if r.target = 3 then .parked else .decode) 0x35
      let s := (s.setJnl sl j { r with phase := 9, e := h.arg }).endExchange sl j 2
      (s.startExchange sl j r.addr { request := h.request, epoch := e1, kind := 5 } [] (h.arg + s.leaseOf sl j) false).ack m []

/-- ACK at the originator (R346, R348). -/
def State.serveAck (s : State) (m : Req) (h : HoMsg) : State :=
  let sl := gaSlice m.addr
  match s.jnlFor sl h.request JnlRec.out h.epoch 1 with
  | none => s.goneOrStale m h 1
  | some j =>
    let r := s.jnlAt sl j
    let tell (s : State) (kind : Nat) : State := s.hoSend sl r.addr { request := h.request, epoch := h.epoch, kind }
    if h.epoch != epochPlus r.epoch 1 then s.staleEpoch m
    else
      match r.phase with
      | 2 => if m.stamp ≤ r.e then tell (((s.setPhase sl j 3).endExchange sl j 4).ack m []) 6 else s.ack m []
      | 3 => tell (s.ack m []) 6
      | 5 => tell (s.ack m []) 8
      | _ => s.staleEpoch m

/-- CONFIRM at the receiver (R347, R488). -/
def State.serveConfirm (s : State) (m : Req) (h : HoMsg) : State :=
  let sl := gaSlice m.addr
  match s.jnlFor sl h.request JnlRec.in' h.epoch 1 with
  | none => s.goneOrStale m h 1
  | some j =>
    let r := s.jnlAt sl j
    if h.epoch != epochPlus r.epoch 1 || r.phase = 8 then s.staleEpoch m
    else if r.phase = 10 then s.ack m []
    else (s.confirmIn sl j).ack m []

/-- RELEASED at the receiver: it confirms, or it ends STEPPED and frees the record (R347). -/
def State.serveReleased (s : State) (m : Req) (h : HoMsg) : State :=
  let sl := gaSlice m.addr
  match s.jnlFor sl h.request JnlRec.in' h.epoch 1 with
  | none => s.goneOrStale m h 1
  | some j =>
    let r := s.jnlAt sl j
    if h.epoch != epochPlus r.epoch 1 || r.phase = 8 then s.staleEpoch m
    else if r.phase != 10 then (s.confirmIn sl j).ack m []
    else if (s.exchanging sl j 7).isSome then ((s.endExchange sl j 7).freeJnl sl j).ack m []
    else s.ack m []

/-- STEPPED at the originator (R348). -/
def State.serveStepped (s : State) (m : Req) (h : HoMsg) : State :=
  let sl := gaSlice m.addr
  match s.jnlFor sl h.request JnlRec.out h.epoch 1 with
  | none => s.ack m []
  | some j =>
    let r := s.jnlAt sl j
    let tell (s : State) : State := (s.ack m []).hoSend sl r.addr { request := h.request, epoch := h.epoch, kind := 8 }
    if h.epoch != epochPlus r.epoch 1 then s.staleEpoch m
    else if r.phase = 3 then tell (s.releaseCopy sl j)
    else if r.phase = 5 then tell s
    else s.staleEpoch m

/-- RECLAIM at the receiver: its entry is discarded (R349, R488). A repeated one is answered again. -/
def State.serveReclaim (s : State) (m : Req) (h : HoMsg) : State :=
  let sl := gaSlice m.addr
  let tell (s : State) (addr : Word) : State :=
    (s.ack m []).hoSend sl addr { request := h.request, epoch := h.epoch, kind := 10 }
  match s.jnlFor sl h.request JnlRec.in' h.epoch 2 with
  | none => tell s (nodeAddr m.src sl)
  | some j =>
    let r := s.jnlAt sl j
    if h.epoch != epochPlus r.epoch 2 || r.phase = 10 then s.staleEpoch m else tell (s.discard sl j) r.addr

/-- RECLAIM_ACK at the originator (R349). -/
def State.serveReclaimAck (s : State) (m : Req) (h : HoMsg) : State :=
  let sl := gaSlice m.addr
  match s.jnlFor sl h.request (fun r => r.phase = 4) h.epoch 2 with
  | none => s.ack m []
  | some j =>
    if h.epoch != epochPlus (s.jnlAt sl j).epoch 2 then s.staleEpoch m
    else ((s.endExchange sl j 9).freeJnl sl j).ack m []

/-- The receiver's first commit under outcome 7: STEPPED (R347). -/
def State.firstStep (s : State) (i : Nat) : State :=
  let e := s.entry i
  match s.jnlFind e.slice (fun r => r.phase = 10 && r.sheaf = i && r.request == e.reqId) with
  | none => s
  | some j =>
    if (s.exchanging e.slice j 7).isSome then s
    else
      let r := s.jnlAt e.slice j
      s.startExchange e.slice j r.addr { request := r.request, epoch := epochPlus r.epoch 1, kind := 7 } [] (s.time + s.leaseOf e.slice j) false

/-! ### Timers -/

/-- OFFER_DEADLINE (R344). An ACCEPT stamped at D still counts. -/
def offerDeadline (sl : SliceId) (j : Nat) (s : State) : State :=
  let r := s.jnlAt sl.val j
  if (s.jnlSize sl.val).isSome && r.phase = 1 && r.d < s.time then s.revertOffer sl.val j 0x31 else s

/-- LEASE_EXPIRY (R348, R349): CONFIRMED releases the retained copy, COMMIT_SENT reclaims. -/
def leaseExpiry (sl : SliceId) (j : Nat) (s : State) : State :=
  let r := s.jnlAt sl.val j
  if (s.jnlSize sl.val).isNone || s.time ≤ r.e then s
  else if r.phase = 3 then s.releaseCopy sl.val j
  else if r.phase = 2 then s.reclaim sl.val j
  else s

/-- ACCEPT_WINDOW_EXPIRY (R345). -/
def acceptWindowExpiry (sl : SliceId) (j : Nat) (s : State) : State :=
  let r := s.jnlAt sl.val j
  if (s.jnlSize sl.val).isSome && r.phase = 8 && r.d + s.leaseOf sl.val j + 10000 < s.time then s.discard sl.val j else s

/-- RECEIVER_UNRESOLVED (R350). -/
def receiverUnresolved (sl : SliceId) (j : Nat) (s : State) : State :=
  let r := s.jnlAt sl.val j
  if (s.jnlSize sl.val).isSome && r.phase = 9 && r.e + s.leaseOf sl.val j ≤ s.time then
    (((s.setPhase sl.val j 11).endExchange sl.val j 5).bump ⟨.fabHoUnresolvedCnt, 0, 0, 0⟩).assertIrq (73 + sl.val)
  else s

/-- JOURNAL_RETAIN_EXPIRY (R348). -/
def journalRetainExpiry (sl : SliceId) (j : Nat) (s : State) : State :=
  let r := s.jnlAt sl.val j
  if (s.jnlSize sl.val).isSome && r.phase = 5 && r.time + s.leaseOf sl.val j ≤ s.time then s.freeJnl sl.val j else s

/-! ### Resolution after a warm reset (R486, R487) -/

/-- A partner can be reached: this node, or one with an ACTIVE port in FAB_ROUTE. -/
def State.partnerUp (s : State) (node : Nat) : Bool :=
  node = s.node || (List.range 24).any (fun p => s.rdb ⟨.fabRoute, 0, node, 0⟩ p && s.portState p = 5)

/-- What Table 18-11 does with a record. -/
def State.resolveRecord (s : State) (sl j : Nat) : State :=
  let r := s.jnlAt sl j
  let hold (s : State) : State := match s.jnlEntry r with
    | none => s
    | some i => s.setEntry i { s.entry i with epochRound := true }
  match r.phase with
  | 1 => (s.revertOffer sl j 0x38).startExchange sl j r.addr { request := r.request, epoch := r.epoch, kind := 3, code := 0x76 } [] r.d false
  | 2 =>
    if r.e < s.time then s.reclaim sl j
    else s.startExchange sl j r.addr { request := r.request, epoch := r.epoch, kind := 4, arg := r.e } [] r.e true
  | 3 => if r.e < s.time then s.releaseCopy sl j else s
  | 4 => s.startExchange sl j r.addr { request := r.request, epoch := epochPlus r.epoch 2, kind := 9 } [] (s.time + s.lease) false
  | 5 => s.freeJnl sl j
  | 8 => (s.discard sl j).hoSend sl r.addr { request := r.request, epoch := r.epoch, kind := 3, code := 0x76 }
  | 9 =>
    let s := hold s
    if r.e + s.lease ≤ s.time then s
    else s.startExchange sl j r.addr { request := r.request, epoch := epochPlus r.epoch 1, kind := 5 } [] (r.e + s.lease) false
  | 10 => (hold s).confirmIn sl j
  | 11 => (hold s).assertIrq (73 + sl)
  | _ => s

/-- JOURNAL_RESOLVE (R486). -/
def journalResolve (sl : SliceId) (j : Nat) (s : State) : State :=
  if s.resolving.contains (sl.val, j) && s.partnerUp (s.jnlAt sl.val j).partner then
    let s := { s with resolving := s.resolving.filter (· != (sl.val, j)) }
    let s := s.resolveRecord sl.val j
    if s.resolving.isEmpty then s.wrf ⟨.clkRstStatus, 0, 0, 0⟩ 1 1 0 else s
  else s

/-! ### Commands -/

/-- HO_OFFER (R341). -/
def execHoOffer (f : FurrowId) (o : Slot) (s : State) : Res := answer (runSlot opHoOffer f o s)

/-- HO_ACCEPT (R343). -/
def execHoAccept (f : FurrowId) (o : Slot) (s : State) : Res := answer (runSlot opHoAccept f o s)

/-- HO_REFUSE (R343). -/
def execHoRefuse (f : FurrowId) (o : Slot) (s : State) : Res := answer (runSlot opHoRefuse f o s)

/-- HO_CONFIRM (R350). -/
def execHoConfirm (f : FurrowId) (o : Slot) (s : State) : Res := answer (runSlot opHoConfirm f o s)

/-- HO_LOSE (R356). -/
def execHoLose (f : FurrowId) (o : Slot) (s : State) : Res := answer (runSlot opHoLose f o s)

/-- HO_STAT (R383). -/
def execHoStat (f : FurrowId) (o : Slot) (s : State) : Res := answer (runSlot opHoStat f o s)

/-- HO_ADOPT (R359). -/
def execHoAdopt (f : FurrowId) (o : Slot) (s : State) : Res := answer (runSlot opHoAdopt f o s)

/-- HO_RESEND (R339). -/
def execHoResend (id : Nat) (s : State) : Res := answer (hoResend id s)

/-- HO_RESEND_END (R339). -/
def execHoResendEnd (id : Nat) (s : State) : Res := answer (hoResendEnd id s)

/-- ADOPT_LOOKUP_COMPLETE (R359). -/
def execAdoptLookupComplete (id : Nat) (s : State) : Res := answer (adoptLookupComplete id s)

/-- OFFER_DEADLINE (R344). -/
def execOfferDeadline (sl : SliceId) (j : Nat) (s : State) : Res := answer (offerDeadline sl j s)

/-- LEASE_EXPIRY (R349). -/
def execLeaseExpiry (sl : SliceId) (j : Nat) (s : State) : Res := answer (leaseExpiry sl j s)

/-- ACCEPT_WINDOW_EXPIRY (R345). -/
def execAcceptWindowExpiry (sl : SliceId) (j : Nat) (s : State) : Res := answer (acceptWindowExpiry sl j s)

/-- RECEIVER_UNRESOLVED (R350). -/
def execReceiverUnresolved (sl : SliceId) (j : Nat) (s : State) : Res := answer (receiverUnresolved sl j s)

/-- JOURNAL_RETAIN_EXPIRY (R348). -/
def execJournalRetainExpiry (sl : SliceId) (j : Nat) (s : State) : Res := answer (journalRetainExpiry sl j s)

/-- JOURNAL_RESOLVE (R486). -/
def execJournalResolve (sl : SliceId) (j : Nat) (s : State) : Res := answer (journalResolve sl j s)

end Sys2Proof.Machine
end

