-- ==== Sys2Proof/Machine/Stream.lean ====
section
/-! DEFINITION. Weight streams and arriving notifies (R239 to R241, R284). -/

namespace Sys2Proof.Machine

/-! ### Descriptors -/

/-- A window descriptor (Table 9-6); MODEL names the model and no rule reads it. -/
structure WindowDesc where
  model : Nat
  first : Nat
  last : Nat
  depth : Nat
  decode : Bool
  map : Nat
  ports : Nat
  base : Nat
  slot : Nat
  reserved : Bool
deriving DecidableEq, Repr

/-- The fields of a window descriptor. -/
def windowDesc (bs : List Byte) : WindowDesc :=
  let w (i : Nat) : Nat := leAt bs (8 * i) 8
  ⟨bits (w 0) 19 0, bits (w 0) 28 20, bits (w 0) 37 29, bits (w 0) 41 38 + 1, (w 0).testBit 42, w 1, bits (w 2) 23 0, w 3, bits (w 4) 31 0,
    bits (w 0) 63 43 != 0 || bits (w 2) 63 24 != 0 || bits (w 4) 63 32 != 0 || leAt bs 0x28 24 != 0⟩

/-- A weight map entry (Table 9-7). -/
structure WeightMap where
  list : Nat
  frames : Nat
  lastBytes : Nat
  fmt : Nat
  reserved : Bool
deriving DecidableEq, Repr

/-- The weight map entry of a layer. -/
def State.weightMap (s : State) (d : WindowDesc) (l : Nat) : WeightMap :=
  let a := d.map + 16 * l
  let w := s.mem.readNat (a + 8) 8
  ⟨s.mem.readNat a 8, bits w 15 0, bits w 32 16, bits w 40 33, bits w 63 41 != 0⟩

/-- Coded bytes in frame i of a layer: an EW11 frame holds at most 728 blocks (R211). -/
def WeightMap.coded (m : WeightMap) (i : Nat) : Nat :=
  if i + 1 = m.frames then m.lastBytes else if m.fmt = 0x10 then 65520 else 65536

/-- Bytes that frame i of a layer is sent as. -/
def WeightMap.sent (m : WeightMap) (decode : Bool) (i : Nat) : Nat :=
  if decode && m.fmt = 0x10 then m.coded i / 90 * 128 else m.coded i

/-- Bytes of a layer. -/
def WeightMap.bytes (m : WeightMap) (decode : Bool) : Nat := ((List.range m.frames).map (m.sent decode)).sum

/-- BAD_PARAM of a layer (R241); fields outside the ranges of Table 9-7 count with it (log entry 24). -/
def WeightMap.bad (m : WeightMap) (d : WindowDesc) : Bool :=
  m.list % 8 != 0 || m.reserved || !(m.fmt = 0x01 || m.fmt = 0x02 || m.fmt = 0x10) || m.frames < 1 || 4096 < m.frames || m.lastBytes < 1 || 65536 < m.lastBytes ||
    d.slot < m.bytes d.decode

/-- BAD_PARAM of a stream, found before anything is sent (R241). -/
def State.windowBad (s : State) (d : WindowDesc) : Bool :=
  d.ports = 0 || d.last < d.first || 256 ≤ d.last ||
    (List.range (d.last + 1 - d.first)).any (fun i => (s.weightMap d (d.first + i)).bad d)

/-- Stream k of a Furrow. -/
def State.stream? (s : State) (f k : Nat) : Option WStream := (s.furrow f).streams.find? (fun x => x.k = k)

/-- Change the stream of an operation. -/
def State.modStream (s : State) (f op : Nat) (g : WStream → WStream) : State :=
  s.modFurrow f (fun r => { r with streams := r.streams.map (fun (x : WStream) => if x.op = op then g x else x) })

/-- FAB.WSTREAM (R239, R380). -/
def opFabWstream : SlotOp :=
  let enc : EncSpec := { opc := 0x89, x := .g, mods := 0xF03, ctr := true }
  let desc (c : Ctx) (s : State) : List Byte := (s.hull c.f).readBytes (fld c.x 31 0) 64
  { enc
    cls := some .fab
    checks := fun c s =>
      let d := windowDesc (desc c s)
      ckHull c.x 64 64 ++ chk (!d.reserved) 0x03 c.x ++ chk (d.slot % 4096 == 0) 0x08 (BitVec.ofNat 64 d.slot) ++
        ckGranary s c.slice (BitVec.ofNat 64 (d.map + 16 * d.first)) (16 * (d.last + 1 - d.first)) 16 false ++
        chk (s.rdf ⟨.slcJob, c.slice, 0, 0⟩ 31 0 != 0) 0x06 c.x
    run := fun c s =>
      let bs := desc c s
      let k := c.mod % 4
      let (id, s) := c.issue enc .fab [bs] s
      let busy := match s.stream? c.f k with | none => false | some x => !x.ended
      if busy then s.finish c.f id (Done.ofCode 0x87)
      else if s.windowBad (windowDesc bs) then s.finish c.f id (Done.ofCode 0x86)
      else
        let x : WStream :=
          { k, op := id, slice := c.slice, cls := c.cls, desc := bs, ra := c.ra, next := (windowDesc bs).first }
        s.modFurrow c.f (fun r => { r with streams := r.streams.filter (fun y => y.k != k) ++ [x] }) }

/-! ### A layer -/

/-- What reading a layer gave: its bytes with their poison, and the code of the first failing check (0: none). -/
structure LayerRun where
  s : State
  bytes : List (Byte × Bool) := []
  code : Nat := 0

/-- The checks of R241 on a frame's handle; a frame of another slice is PROTECTION (log entry 24). -/
def State.weightCheck (s : State) (slice : Nat) (h : Word) (fmt : Nat) : Nat :=
  match s.localFrame h with
  | none => 0x9A
  | some n =>
    let d := s.frame n
    if !s.current h || d.kind != 1 || !d.weight then 0x9A
    else if !s.frameOf slice n then 0x9B
    else if handleFmt h != fmt then 0x10
    else 0

/-- One frame of a layer, whose handle the slice must be able to read (R230, log entry 24): stored bytes, or EW11 blocks decoded to BF16 by the Husk port (R207, R208, R240). A run-ahead
stream leaves the frame of corrupt blocks as it is and records nothing (R111). -/
def LayerRun.frame (r : LayerRun) (f slice : Nat) (ra : Bool) (d : WindowDesc) (m : WeightMap) (i : Nat) : LayerRun :=
  if r.code != 0 then r
  else
    let h := r.s.gword (m.list + 8 * i)
    let listed := granaryOk (m.list + 8 * i) && !r.s.frameFault slice ((m.list + 8 * i) / 65536) false
    match if listed then r.s.weightCheck slice h m.fmt else 0x9B with
    | 0 =>
      let n := handleFrame h
      let a := frameAddr n
      let s := if ra then r.s else r.s.touch n
      let known := (s.frame n).poisoned
      if d.decode && m.fmt = 0x10 then
        let blocks := m.coded i / 90
        let blk (j : Nat) : List Byte := s.mem.readBytes (a + 90 * j) 90
        if !s.ewTagOk n blocks || !(List.range blocks).all (fun j => ewSizeOk (blk j)) then
          { r with s := if ra then s else s.corruptFrame n f 0x29, code := 0x29 }
        else
          let out := (List.range blocks).flatMap fun j =>
            let bad := known || s.mem.anyPoison (a + 90 * j) 90
            let xs := if bad then List.replicate 64 none else ewDecode (blk j)
            let p := xs.any Option.isNone
            (xs.flatMap (fun v => match v with | none => [0xFF, 0xFF] | some v => toBytes 2 (bf16.encode v))).map (fun b => (b, p))
          { r with s, bytes := r.bytes ++ out }
      else
        let k := m.coded i
        let p := known || s.mem.anyPoison a k
        { r with s, bytes := r.bytes ++ (s.mem.readBytes a k).map (fun b => (b, p)) }
    | c => { r with code := c }

/-- The address of a place in the space of port p's engine (R275). -/
def engineAddr (node slice p off : Nat) : Word :=
  BitVec.ofNat 64 (node % 2 ^ 14 * 2 ^ 50 + slice % 64 * 2 ^ 44 + 15 * 2 ^ 40 + p * 2 ^ 35 + off % 2 ^ 35)

/-- Ports of a mask, ascending. -/
def portList (mask : Nat) : List Nat := (List.range 24).filter (fun p => mask.testBit p)

/-- One 4 KiB unit of a layer, on the next port of the stream (R240, Table 11-8). A port that is not usable or whose
engine the slice may not address ends the stream with NO_ROUTE (R275). -/
def State.sendUnit (s : State) (f : Nat) (x : WStream) (l u : Nat) (last : Bool) (bs : List (Byte × Bool)) : State :=
  match s.stream? f x.k with
  | none => s
  | some y =>
    if y.fail.isSome then s
    else
      let d := windowDesc x.desc
      let ps := portList d.ports
      let p := ps.getD (y.turn % ps.length) 24
      let off := d.base + (l - d.first) % d.depth * d.slot + 4096 * u
      let word := x.k + f * 4 + l * 2 ^ 8 + bitVal last 17
      let data := bs.map (·.1)
      let ask : Ask :=
        { op := 0x0D, cls := x.cls, addr := engineAddr s.node x.slice p off, fixed := some p,
          payload := toBytes 8 word ++ data ++ fillBytes (pad8 data.length - data.length) 0, len := data.length,
          poison := bs.any (·.2) }
      let fail (s : State) : State := s.modStream f x.op (fun y => { y with fail := some (Done.ofCode 0x5D) })
      if !s.mayUseEngine x.slice p then fail s
      else
        match s.request (.stream f x.op) x.slice ask with
        | none => fail s
        | some s => s.modStream f x.op (fun y => { y with turn := y.turn + 1, unacked := y.unacked + 1, poison := y.poison || bs.any (·.2) })

/-- The next layer of a stream may start: one of the first W, or its slot has been released (R240). -/
def WStream.mayStart (x : WStream) : Bool :=
  let d := windowDesc x.desc
  !x.ended && x.fail.isNone && x.next ≤ d.last && (x.next < d.first + d.depth || x.released.contains (x.next - d.depth))

/-- WSTREAM_LAYER_START (R240, R241): each frame's handle is checked before the frame is sent. -/
def wstreamLayerStart (f : FurrowId) (k : Fin 4) (s : State) : State :=
  match s.stream? f.val k.val with
  | none => s
  | some x =>
    if !x.mayStart then s
    else
      let d := windowDesc x.desc
      let l := x.next
      let m := s.weightMap d l
      let r := (List.range m.frames).foldl (fun (r : LayerRun) i => r.frame f.val x.slice x.ra d m i) { s }
      let us := chunks 4096 r.bytes
      let s := us.zipIdx.foldl (fun s p => s.sendUnit f.val x l p.2 (r.code = 0 && p.2 + 1 = us.length) p.1) r.s
      s.modStream f.val x.op fun y =>
        { y with next := l + 1, awaiting := if r.code = 0 then y.awaiting ++ [l] else y.awaiting,
                 fail := y.fail.or (if r.code = 0 then none else some { code := r.code, poison := r.code = 0x29 }) }

/-- WSTREAM_END: the last layer is delivered, or the stream ends early; its counter falls (R240). -/
def wstreamEnd (f : FurrowId) (k : Fin 4) (s : State) : State :=
  match s.stream? f.val k.val with
  | none => s
  | some x =>
    if !x.ended && (x.fail.isSome || ((windowDesc x.desc).last < x.next && x.unacked = 0)) then
      let d := x.fail.getD Done.ok
      (s.modStream f.val x.op (fun y => { y with ended := true })).finish f.val x.op { d with poison := d.poison || x.poison }
    else s

/-- The reply to a message of a stream. -/
def State.replyStream (s : State) (f op : Nat) (r : Reply) : State :=
  s.modStream f op (fun x =>
    { x with unacked := x.unacked - 1, fail := x.fail.or (if r.done.code = 0 then none else some r.done) })

/-! ### Notifies (R284) -/

/-- A counter notify takes effect (R284). -/
def State.notifyOk (s : State) (m : Req) : Bool :=
  let w := leAt m.payload 0 8
  let f := bits w 7 2
  let slice := gaSlice m.addr
  bits w 1 0 = 0 && s.bound f = some slice &&
    (match (s.furrow f).prog with
     | none => false
     | some p => p.slice = slice && (bits w 63 32 = 0 || bits w 63 32 = p.tag))

/-- The stream whose slot a release names, while it awaits it. -/
def State.releaseOf (s : State) (m : Req) : Option (Nat × WStream) :=
  let w := leAt m.payload 0 8
  match s.stream? (bits w 7 2) (bits w 14 13) with
  | none => none
  | some x => if x.slice = gaSlice m.addr && x.awaiting.contains (bits w 23 15) then some (bits w 7 2, x) else none

/-- A notify in its turn (R284). A reserved KIND names no counter and is dropped (log entry 24). -/
def State.serveNotify (s : State) (m : Req) : State :=
  let w := leAt m.payload 0 8
  if bits w 1 0 = 1 then
    match s.releaseOf m with
    | none => s.violation m.port 11 false false
    | some (f, x) =>
      (s.modStream f x.op (fun x =>
        { x with awaiting := x.awaiting.filter (· != bits w 23 15), released := bits w 23 15 :: x.released })).ack m []
  else if s.notifyOk m then (s.arrive (bits w 7 2) (some (bits w 12 8)) Done.ok).ack m []
  else (s.bump ⟨.fabNotifyDropCnt, 0, 0, 0⟩).respond m { op := 0, status := 0x60, arg0 := m.seq }

/-! ### Commands -/

/-- FAB_WSTREAM (R239). -/
def execFabWstream (f : FurrowId) (o : Slot) (s : State) : Res := answer (runSlot opFabWstream f o s)

/-- WSTREAM_LAYER_START (R240). -/
def execWstreamLayerStart (f : FurrowId) (k : Fin 4) (s : State) : Res := answer (wstreamLayerStart f k s)

/-- WSTREAM_END (R240). -/
def execWstreamEnd (f : FurrowId) (k : Fin 4) (s : State) : Res := answer (wstreamEnd f k s)

end Sys2Proof.Machine
end

