-- ==== Sys2Proof/Machine/Mirror.lean ====
section
/-! DEFINITION. Copies at the owner: MIR.PUSH, MIR.DROP and ENG.FENCE, push walks and COVER, eviction and demotion (R234 to
R238, R351 to R355, R360; log entries 25 and 26). -/

namespace Sys2Proof.Machine

/-! ### Where a page goes (R351) -/

/-- The members a page is sent to: 0 and 1 under MIRROR2, its data member under a code; only valid ones. -/
def pageMembers (e : SheafEntry) (policy chunk index : Nat) : List (Nat × Nat) :=
  let want (k : Nat) : Bool :=
    if policy = 1 then k < 2
    else
      let n := dataMembers policy * chunk
      n != 0 && k = index % n / chunk
  e.members.filter (fun m => want m.1)

/-- The stripe of a page. -/
def stripeOf (policy chunk index : Nat) : Nat :=
  let n := dataMembers policy * chunk
  if n = 0 then 0 else index / n * chunk + index % chunk

/-- Position of a page in its stripe. -/
def stripePos (policy chunk index : Nat) : Nat :=
  let n := dataMembers policy * chunk
  if n = 0 then 0 else index % n / chunk

/-- The flag of Table 3-2 that a copy under a policy sets: mirrored or coded. -/
def copyFlag (policy : Nat) : Nat := if policy = 1 then 1 else 2

/-- Neither flag is set. -/
def uncopied (h : Word) : Bool := !handleFlag h 1 && !handleFlag h 2

/-! ### Pushes (R352) -/

/-- Change a push. -/
def State.modPush (s : State) (k : Nat) (g : Push → Push) : State :=
  match Table.find s.pushes k with
  | none => s
  | some p => { s with pushes := Table.set s.pushes k (g p) }

/-- Keep the first failure of a push. -/
def Push.failed (p : Push) (code : Nat) (refused : Bool) : Push :=
  { p with fail := p.fail.or (some { code, refused }) }

/-- Change a page of a push. -/
def Push.modPage (p : Push) (layer index : Nat) (g : PushPage → PushPage) : Push :=
  { p with pages := p.pages.map (fun (x : PushPage) => if x.layer = layer && x.index = index then g x else x) }

/-- A demotion is given up: POOL returns to 1; after a failed push AGE clears and it is counted (R236). -/
def State.demotionOff (s : State) (n : Nat) (pushFailed : Bool) : State :=
  let d := s.frame n
  let s := { s with demoting := Table.erase s.demoting n }
  let s := if d.pool = 2 then s.setFrame n { d with pool := 1, age := if pushFailed then 0 else d.age } else s
  s.bumpIf pushFailed ⟨.slcPoolDemoteFailCnt, 0, 0, 0⟩

/-- Every page that all its members took and covered gets its flag, unless the entry holds another handle by now or a
commit has placed positions into the page since (R352). -/
def State.pushFlags (s : State) (p : Push) : State :=
  let e := s.entry p.entry
  if e.state = .free || e.reqId != p.request then s
  else
    match s.localFrame e.root with
    | none => s
    | some root =>
      (p.pages.filter (fun x => x.failed.isEmpty && x.to'.all (fun m => p.coverOk.contains m))).foldl (fun s x =>
        let l := s.layer root x.layer
        let a := l.addr x.index
        let grown := p.len < e.len && p.len < (x.index + 1) * s.layerTokens root l
        if x.to'.isEmpty || grown || s.gword a != x.handle then s
        else s.setGword a (setFld x.handle (copyFlag p.policy) (copyFlag p.policy) 1)) s

/-- A push ends: its operation completes, or its demotion has its handle or is given up. The flag of a page pushed for a demotion
is set in the copy's handle (R236). -/
def State.pushEnd (s : State) (k : Nat) (p : Push) : State :=
  let s := { s with pushes := Table.erase s.pushes k }
  match p.demote with
  | none => (s.pushFlags p).finish p.furrow p.op (p.fail.getD Done.ok)
  | some n =>
    match p.fail, (p.pages.head?).bind (fun x => x.copy) with
    | none, some h => if Table.has s.demoting n then { s with demoting := Table.set s.demoting n (some h, true) } else s
    | _, _ => s.demotionOff n true

/-- Members that get COVER: every valid one that no page failed at; a parity member only where no page failed at all. -/
def Push.coverTo (p : Push) (e : SheafEntry) : List (Nat × Nat) :=
  e.members.filter fun m =>
    if dataMembers p.policy ≤ m.1 && p.policy != 1 then p.pages.all (fun x => x.failed.isEmpty)
    else p.pages.all (fun x => !x.failed.contains m.1)

/-- With every page acknowledged, COVER leaves with the committed length at issue and no EXPIRY of the spec's: a free one
(R352, R355; log entry 25). -/
def State.sendCovers (s : State) (k : Nat) (p : Push) : State :=
  let (u, s) := s.free
  let e := s.entry p.entry
  (p.coverTo e).foldl (fun s m =>
    match s.errand (.cover k m.1) p.slice
        (hoAsk (nodeAddr m.2 p.slice) { request := p.request, epoch := p.epoch, kind := 12, arg := p.len + fld u 31 0 * 2 ^ 32 } []) with
    | none => s.modPush k (fun p => p.failed 0x5D false)
    | some s => s.modPush k (fun p => { p with coverWait := p.coverWait ++ [m.1] })) s

/-- A push goes on: COVER when every page is acknowledged, its end when every COVER is. -/
def State.pushAdvance (s : State) (k : Nat) : State :=
  match Table.find s.pushes k with
  | none => s
  | some p =>
    if !p.walks.isEmpty || p.pages.any (fun x => !x.waiting.isEmpty) then s
    else
      let s := if p.covering then s
        else
          let s := s.modPush k (fun p => { p with covering := true })
          if p.pages.isEmpty then s else s.sendCovers k p
      match Table.find s.pushes k with
      | none => s
      | some p => if p.coverWait.isEmpty then s.pushEnd k p else s

/-- A member has answered its COVER. A member to which this push sent no page may hold nothing: NO_TABLE is no failure
(log entry 26). -/
def State.coverAnswer (s : State) (k member code : Nat) (refused : Bool) : State :=
  let s := s.modPush k fun p =>
    let p := { p with coverWait := p.coverWait.erase member }
    if code = 0 then { p with coverOk := p.coverOk ++ [member] }
    else if code = 0x26 && !p.pages.any (fun x => x.to'.contains member) then p
    else p.failed code refused
  s.pushAdvance k

/-- A member has answered a page: with its handle, or with a failure. -/
def State.pushAnswer (s : State) (k key member code : Nat) (refused : Bool) (copy : Word) : State :=
  let (layer, index) := (key / 4096, key % 4096)
  let s := s.modPush k fun p =>
    let p := p.modPage layer index fun x =>
      let x := { x with waiting := x.waiting.erase member }
      if code = 0 then { x with copy := if x.copy.isNone || some member = x.to'.head? then some copy else x.copy }
      else { x with failed := x.failed ++ [member] }
    if code = 0 then p else p.failed code refused
  s.pushAdvance k

/-- A PAGE_OPEN was refused: its code is the page's (R335, R357). -/
def State.pushOpenAnswer (s : State) (k code : Nat) (refused : Bool) : State :=
  if code = 0 then s else s.modPush k (fun p => p.failed code refused)

/-- Send a page to one member: PAGE_OPEN, then PAGE_WR in the same stream (R352). -/
def State.sendPushPage (s : State) (k : Nat) (p : Push) (layer index model : Nat) (parity : List (Option Nat)) (payload : List Byte)
    (poison : Bool) (m : Nat × Nat) : State :=
  let key := layer * 4096 + index
  let addr := nodeAddr m.2 p.slice
  let gone (s : State) : State :=
    s.modPush k (fun p => (p.modPage layer index (fun x => { x with failed := x.failed ++ [m.1] })).failed 0x5D false)
  let body : PageOpen :=
    ⟨layer, index, 0, if p.policy = 1 then 0 else stripePos p.policy p.chunk index, m.1, p.policy, p.chunk⟩
  match s.errand (.pageOpen k key m.1) p.slice
      (hoAsk addr { request := p.request, epoch := p.epoch, kind := 16, arg := openArg model parity } body.bytes) with
  | none => gone s
  | some s =>
    match s.errand (.pageWr k key m.1) p.slice { op := 0x0A, cls := 7, addr, payload, len := 8, poison } with
    | none => gone s
    | some s => s.modPush k (fun p => p.modPage layer index (fun x => { x with waiting := x.waiting ++ [m.1] }))

/-- Send a page of a push walk to its members (R84, R352). -/
def State.pushPage (s : State) (w : Walk) (index : Nat) : State :=
  match Table.find s.pushes w.op with
  | none => s
  | some p =>
    let h := w.page index
    let n := handleFrame h
    let e := s.entry p.entry
    let model := s.rootModel (handleFrame w.root)
    let (bs, poison) := s.carriedPage n (s.pageFmt model w.layerEnt.fmt) index p.len
    let to' := pageMembers e p.policy p.chunk index
    let parity := if p.policy = 1 then [] else
      let k := dataMembers p.policy
      (List.range (if p.policy = 3 then 2 else 1)).map (fun j => let m := e.member (k + j); if m.2 then some m.1 else none)
    let s := s.modPush w.op (fun p => { p with pages := p.pages ++ [⟨w.layer, index, h, to'.map (·.1), [], none, []⟩] })
    to'.foldl (fun s m => s.sendPushPage w.op p w.layer index model parity (toBytes 8 (s.tag n).toNat ++ bs) poison m) s

/-- The pages of a latched push walk that are to be sent: neither flag set (R352), and not provisional (R85). -/
def Walk.toPush (w : Walk) : List Nat := (w.entries.filter (fun p => uncopied p.2 && !handleFlag p.2 3)).map (·.1)

/-- A stripe whose local pages name different pairs of format and codebook (R352). -/
def State.stripeMixed (s : State) (p : Push) (w : Walk) (index : Nat) : Bool :=
  if p.policy = 1 then false
  else
    let st := stripeOf p.policy p.chunk index
    let tags := (w.entries.filter (fun q => stripeOf p.policy p.chunk q.1 = st)).filterMap (fun q =>
      (s.localFrame q.2).map (fun n => let t := s.tag n; (tagFmt t, if isPQ (tagFmt t) then tagCb t else (0, 0))))
    match tags with
    | [] => false
    | t :: ts => ts.any (· != t)

/-- A push walk that has sent every page ends. -/
def State.pushWalkEnd (s : State) (id : Nat) : State :=
  match s.walk? id with
  | none => s
  | some w =>
    if w.entries.isEmpty then
      ((s.walkEnd id).modPush w.op (fun p => { p with walks := p.walks.erase id })).pushAdvance w.op
    else s

/-- A page that a push cannot send: its code is the push's, and it is missing at every member it belongs to, so that none of them
gets COVER (R352). -/
def Push.unsent (p : Push) (e : SheafEntry) (layer index : Nat) (h : Word) (code : Nat) : Push :=
  let to' := (pageMembers e p.policy p.chunk index).map (·.1)
  let p : Push := { p with pages := p.pages ++ [⟨layer, index, h, to', [], none, to'⟩] }
  p.failed code false

/-- Right after its latch a push walk drops the pages it does not send: those with a copy, the provisional ones, and those that
fail a check of Table 3-10 or lie in a mixed stripe, whose code the push keeps (R84, R85, R352). -/
def State.pushLatched (s : State) (w : Walk) : State :=
  match Table.find s.pushes w.op with
  | none => s.walkEnd w.id
  | some p =>
    let s := (w.entries.map (·.1)).foldl (fun s k =>
      if !w.toPush.contains k then s.dropPage w k
      else
        let c := s.handleCheck (w.page k) w.layerEnt.fmt
        let code := if !w.layerEnt.enabled then 0x80 else if c != 0 then c else if s.stripeMixed p w k then 0x74 else 0
        if code = 0 then s
        else (s.dropPage w k).modPush w.op (fun p => p.unsent (s.entry p.entry) w.layer k (w.page k) code)) s
    s.pushWalkEnd w.id

/-- A push walk has read a frame: its page is sent, then the frame is released (R74). Pages leave in ascending order (R352): a
frame whose page is not the next one of the layer is not released yet. -/
def State.pushRelease (s : State) (w : Walk) (frame : Nat) : State :=
  let ks := (w.entries.takeWhile (fun p => s.localFrame p.2 = some frame)).map (·.1)
  (ks.foldl (fun s k => (s.pushPage w k).dropPage w k) s).pushWalkEnd w.id

/-- Start a push: one walk for each layer, over the pages below the committed length. `only` names one page. -/
def State.startPush (s : State) (p : Push) (f first count : Nat) (only : Option Nat) : Nat × State :=
  let (k, s) := s.fresh
  let root := handleFrame (s.entry p.entry).root
  let s := { s with pushes := Table.set s.pushes k p }
  let s := (List.range count).foldl (fun s i =>
    let l := first + i
    let e := s.layer root l
    let t := s.layerTokens root e
    let pages := if e.enabled && l < s.rootLayers root && t != 0 then min e.pages (ceilDiv p.len t) else 0
    let (a, b) := match only with | none => (0, pages) | some j => (j, min pages (j + 1))
    if b ≤ a then s
    else
      let (id, s) := s.fresh
      let w : Walk :=
        { id, kind := .push, furrow := f, op := k, slice := p.slice, root := (s.entry p.entry).root, layer := l, first := a, cap := b,
          src := .entry p.entry false }
      match s.walkStart w with
      | none => s
      | some s => s.modPush k (fun p => { p with walks := p.walks ++ [id] })) s
  (k, s)

/-- States in which the node of an entry owns its request (R334). -/
def ownerState (st : ReqState) : Bool :=
  ([.admitted, .prefill, .parked, .decode, .paused, .expired] : List ReqState).contains st

/-- The node is the owner of an entry's request: of one that arrived by handover, once it has recorded CONFIRM (R334). -/
def State.owns (s : State) (i : Nat) : Bool := ownerState (s.entry i).state && !s.unconfirmed i

/-- MIR.PUSH's code before anything is sent, none where it starts: BAD_ENTRY where this node is not the owner (R334), HOLE where
the entry names no table (R515). -/
def pushCode (owner : Bool) (e : SheafEntry) (y z : Word) : Option Nat :=
  if !owner then some 0x21
  else if e.mirrorPolicy = 0 then some 0
  else if fld y 24 16 = 0 || 256 < fld y 24 16 || (e.mirrorPolicy != 1 && (z.toNat = 0 || 4095 < z.toNat)) then some 0x86
  else if !handleFlag e.root 0 then some 0x80
  else none

/-- MIR.PUSH (R352). -/
def opMirPush : SlotOp :=
  let enc : EncSpec := { opc := 0x8D, x := .g, y := .g, z := .g, mods := 0x700, ctr := true }
  { enc
    cls := some .fab
    checks := fun c s => ckSheaf s c.slice c.x ++ ckBits c.y 0x1FF01FF ++ chk (s.rdf ⟨.slcJob, c.slice, 0, 0⟩ 31 0 != 0) 0x06 c.x
    run := fun c s =>
      let i := fld c.x 14 0
      let e := s.entry i
      let (id, s) := c.issue enc .fab [] s
      match pushCode (s.owns i) e c.y c.z with
      | some code => s.finish c.f id (Done.ofCode code)
      | none =>
        let s := s.setEntry i { e with chunk := c.z.toNat }
        let p : Push := { furrow := c.f, op := id, slice := c.slice, entry := i, request := e.reqId, epoch := e.epoch,
                          policy := e.mirrorPolicy, chunk := c.z.toNat, len := e.len }
        let (k, s) := s.startPush p c.f (fld c.y 8 0) (fld c.y 24 16) none
        s.pushAdvance k }

/-! ### MIR.DROP and ENG.FENCE -/

/-- An operation of several errands goes on: with its last answer it completes with its first failure. -/
def State.errandsEnd (s : State) (f id : Nat) : State :=
  match s.op? f id with
  | none => s
  | some o => if o.left = 0 then s.finish f id (o.fail.getD Done.ok) else s

/-- An errand of an operation has its answer. -/
def State.opErrand (s : State) (f id : Nat) (d : Done) : State :=
  (s.modOp f id (fun o => { o with left := o.left - 1, fail := o.fail.or (if d.code = 0 then none else some d) })).errandsEnd f id

/-- Send a message of an operation. -/
def State.opSend (s : State) (f id slice : Nat) (a : Ask) : State :=
  match s.errand (.ofOp f id) slice a with
  | none => s.modOp f id (fun o => { o with fail := o.fail.or (some (Done.ofCode 0x5D)) })
  | some s => s.modOp f id (fun o => { o with left := o.left + 1 })

/-- An entry whose copies this node may drop: the owner's, or one that has ended here and is about to be freed (R334, R355). -/
def State.mayDrop (s : State) (i : Nat) : Bool :=
  let st := (s.entry i).state
  st != .free && st != .handoverIn && st != .handoverOut && !s.unconfirmed i

/-- MIR.DROP (R355): BAD_ENTRY where the entry is FREE or in handover. -/
def opMirDrop : SlotOp :=
  let enc : EncSpec := { opc := 0x8E, x := .g, mods := 0x700, ctr := true }
  { enc
    cls := some .fab
    checks := fun c s => ckSheaf s c.slice c.x ++ chk (s.rdf ⟨.slcJob, c.slice, 0, 0⟩ 31 0 != 0) 0x06 c.x
    run := fun c s =>
      let e := s.entry (fld c.x 14 0)
      let (id, s) := c.issue enc .fab [] s
      if !s.mayDrop (fld c.x 14 0) then s.finish c.f id (Done.ofCode 0x21)
      else
        (e.members.foldl (fun s m =>
          s.opSend c.f id c.slice (hoAsk (nodeAddr m.2 c.slice) { request := e.reqId, epoch := e.epoch, kind := 13 } [])) s).errandsEnd
          c.f id }

/-- ENG.FENCE (R360, R380): BAD_PARAM for a port above 23; NO_ROUTE where the port is not usable or has no engine. -/
def opEngFence : SlotOp :=
  let enc : EncSpec := { opc := 0x90, x := .g, mods := 0x700, ctr := true }
  { enc
    cls := some .fab
    run := fun c s =>
      let (id, s) := c.issue enc .fab [] s
      let p := c.x.toNat
      if 24 ≤ p then s.finish c.f id (Done.ofCode 0x86)
      else if !s.hasEngine p then s.finish c.f id (Done.ofCode 0x5D)
      else
        (s.opSend c.f id c.slice
          { hoAsk (engineAddr s.node c.slice p 0) { request := 0, epoch := 0, kind := 18 } [] with fixed := some p }).errandsEnd c.f id }

/-! ### Eviction and demotion (R234 to R237, R354) -/

/-- Where the handle of a frame's page lies: entry, root, layer and address, if its back-reference still names it. -/
def State.backHandle (s : State) (n : Nat) : Option (SheafEntry × Nat × Nat × Word) :=
  let d := s.frame n
  if !d.backV then none
  else
    let e := s.entry d.sheaf
    match s.localFrame e.root with
    | none => none
    | some root =>
      let l := s.layer root d.layer
      if e.state = .free || !l.enabled || l.pages ≤ d.entry then none
      else
        let a := l.addr d.entry
        let h := s.gword a
        if s.localFrame h = some n && s.current h then some (e, root, a, h) else none

/-- MIN_AGE. -/
def State.minAge (s : State) : Nat := s.rdf ⟨.slcPoolEvict, 0, 0, 0⟩ 7 0

/-- R234: an eviction candidate. -/
def State.candidate (s : State) (n : Nat) : Bool :=
  let d := s.frame n
  d.pool = 1 && !d.pin && d.walks = 0 && s.minAge ≤ d.age && s.minFrames d.slice < s.held d.slice &&
    (d.weight || (d.kind = 1 &&
      (match s.backHandle n with
       | none => false
       | some (_, _, _, h) => !handleFlag h 3 && !handleFlag h 4)))

/-- Insert a frame by descending AGE behind equal ages. -/
def State.ageInsert (s : State) (n : Nat) : List Nat → List Nat
  | [] => [n]
  | m :: t => if (s.frame m).age < (s.frame n).age then n :: m :: t else m :: s.ageInsert n t

/-- States of Table 9-5 that allow a demotion. -/
def demotable (st : ReqState) : Bool :=
  st = .prefill || st = .parked || st = .decode || st = .paused || st = .expired

/-- The member whose copy a demoted page points at (R354). -/
def State.copyMember (e : SheafEntry) (index : Nat) : Option Nat :=
  ((pageMembers e e.mirrorPolicy e.chunk index).head?).map (·.2)

/-- Start the demotion of a page (R235, R236): LOOKUP where a copy exists, else a push. -/
def State.demote (s : State) (n : Nat) (e : SheafEntry) (h : Word) : State :=
  let d := s.frame n
  let s := { (s.setFrame n { d with pool := 2 }) with demoting := Table.set s.demoting n (none, false) }
  if uncopied h then
    let p : Push := { demote := some n, slice := e.slice, entry := d.sheaf, request := e.reqId, epoch := e.epoch,
                      policy := e.mirrorPolicy, chunk := e.chunk, len := e.len }
    let f := (s.servingFurrow e.slice (frameStack n)).getD (homeFurrow n)
    let (k, s) := s.startPush p f d.layer 1 (some d.entry)
    s.pushAdvance k
  else
    match State.copyMember e d.entry with
    | none => s.demotionOff n false
    | some node =>
      match s.errand (.lookupDemote n) e.slice
          (hoAsk (nodeAddr node e.slice) { request := e.reqId, epoch := e.epoch, kind := 14, arg := d.layer + d.entry * 2 ^ 9 } []) with
      | none => s.demotionOff n false
      | some s => s

/-- The action of Table 9-5 on a candidate. -/
def State.evict (s : State) (n : Nat) : State :=
  let d := s.frame n
  if d.weight then (s.freeFrame n).count ⟨.slcDropCnt, d.slice, 0, 0⟩ 31 0 1
  else
    match s.backHandle n with
    | none => s
    | some (e, root, a, h) =>
      if e.state = .done || e.state = .lost || e.state = .aborted then
        (((s.setGword a (setFld h 0 0 0)).bumpRootGen root).freeFrame n)
      else if demotable e.state && !e.inStep && e.mirrorPolicy != 0 && (s.owns d.sheaf || !uncopied h) then s.demote n e h
      else s.bump ⟨.slcPoolSkipCnt, 0, 0, 0⟩

/-- Headroom once the frames being zeroed and demoted are free. -/
def State.comingHeadroom (s : State) : Nat := s.headroom + s.zeroing.length + s.demoting.length

/-- EVICTION_PASS (R234, R235): it starts below LOW and acts on candidates until the headroom to come reaches HIGH. -/
def evictionPass (s : State) : State :=
  let wm : Csr := ⟨.slcPoolWm, 0, 0, 0⟩
  let low := s.rdf wm 22 0
  let high := s.rdf wm 54 32
  if !s.rdb ⟨.slcPoolEvict, 0, 0, 0⟩ 8 then { s with evicting := false }
  else if high ≤ s.headroom then { s with evicting := false }
  else if !s.evicting && low ≤ s.headroom then s
  else
    let s := { s with evicting := true }
    let l := ((s.desc.map (·.1)).filter s.candidate).foldl (fun acc n => s.ageInsert n acc) []
    l.foldl (fun s n => if s.comingHeadroom < high && s.candidate n then s.evict n else s) s

/-- A LOOKUP for a demotion has its answer: the copy's handle, or none (R354). -/
def State.lookupDemoted (s : State) (n : Nat) (h : Option Word) : State :=
  if !Table.has s.demoting n then s
  else
    match h with
    | some h => if handleFlag h 0 then { s with demoting := Table.set s.demoting n (some h, false) } else s.demotionOff n false
    | none => s.demotionOff n false

/-- Another page of a table has a copy at its members. -/
def State.otherCopies (s : State) (root a : Nat) : Bool :=
  (List.range (s.rootLayers root)).any fun l =>
    let e := s.layer root l
    e.enabled && (List.range e.pages).any (fun k => e.addr k != a && !uncopied (s.gword (e.addr k)))

/-- The copy pushed for a demotion that is abandoned is released at its holders (R236). DESIGN CHOICE: no message frees one page
of a hold record, so DROP goes to the page's members where no other page of the request has a copy, and otherwise the flag stays
clear and the next push replaces the copy (log entry 26). -/
def State.releasePushed (s : State) (n : Nat) (pushed : Bool) : State :=
  match s.backHandle n with
  | none => s
  | some (e, root, a, h) =>
    if !pushed || !uncopied h || s.otherCopies root a then s
    else
      (pageMembers e e.mirrorPolicy e.chunk (s.frame n).entry).foldl (fun s m =>
        (s.errand .notice e.slice (hoAsk (nodeAddr m.2 e.slice) { request := e.reqId, epoch := e.epoch, kind := 13 } [])).getD s) s

/-- DEMOTION_COMMIT (R236): one atomic step. The remote handle keeps the flags of the copy. -/
def demotionCommit (frame : Nat) (s : State) : State :=
  match Table.find s.demoting frame with
  | some (some copy, pushed) =>
    let d := s.frame frame
    match s.backHandle frame with
    | none => s.demotionOff frame false
    | some (e, root, a, h) =>
      if d.pool = 2 && d.walks = 0 && s.minAge ≤ d.age && !e.inStep && demotable e.state && !handleFlag h 4 then
        let flags := 1 + bitVal (handleFlag h 1) 1 + bitVal (handleFlag h 2) 2 + 64
        let flags := if pushed && uncopied h then flags + 2 ^ copyFlag e.mirrorPolicy else flags
        let r := mkHandle (handleNode copy) (handleFrame copy) (handleGen copy) (handleFmt copy) flags
        let s := { s with demoting := Table.erase s.demoting frame }
        (((s.setGword a r).bumpRootGen root).freeFrame frame).count ⟨.slcDemoteCnt, d.slice, 0, 0⟩ 31 0 1
      else (s.releasePushed frame pushed).demotionOff frame false
  | _ => s

/-! ### Commands -/

/-- MIR_PUSH (R352). -/
def execMirPush (f : FurrowId) (o : Slot) (s : State) : Res := answer (runSlot opMirPush f o s)

/-- MIR_DROP (R355). -/
def execMirDrop (f : FurrowId) (o : Slot) (s : State) : Res := answer (runSlot opMirDrop f o s)

/-- ENG_FENCE (R360). -/
def execEngFence (f : FurrowId) (o : Slot) (s : State) : Res := answer (runSlot opEngFence f o s)

/-- EVICTION_PASS (R234). -/
def execEvictionPass (s : State) : Res := answer (evictionPass s)

/-- DEMOTION_COMMIT (R236). -/
def execDemotionCommit (frame : Nat) (s : State) : Res := answer (demotionCommit frame s)

end Sys2Proof.Machine
end

