-- ==== Sys2Proof/Machine/Rebuild.lean ====
section
/-! DEFINITION. Rebuild jobs: RB.START, the pulls of each page, decoding, lost pages and the job's end (R351, R357, R358;
log entry 26). -/

namespace Sys2Proof.Machine

/-! ### The descriptor (Table 13-7) -/

/-- The fields of a rebuild descriptor. -/
structure RbDesc where
  request : Word
  epoch : Nat
  member : Nat
  policy : Nat
  chunk : Nat
  owner : Nat
  sources : List (Nat × Nat)
  layers : Nat
  pages : Nat
  priFirst : Nat
  priCount : Nat
  bitmap : Nat
  reserved : Bool
deriving DecidableEq, Repr

/-- The fields 64 bytes spell. PAGES has 12 bits for 1 to 4,096: 0 stands for 4,096 (log entry 26). -/
def rbDescOf (bs : List Byte) : RbDesc :=
  let w := leAt bs 8 8
  let v := leAt bs 0x24 8
  let src (j : Nat) : Nat := leAt bs (0x10 + 2 * j) 2
  { request := wordAt bs 0, epoch := bits w 31 0, member := bits w 35 32, policy := bits w 37 36, chunk := bits w 49 38,
    owner := bits w 63 50,
    sources := (List.range 10).filterMap (fun j => if (src j).testBit 15 then some (j, bits (src j) 13 0) else none),
    layers := bits v 8 0, pages := if bits v 20 9 = 0 then 4096 else bits v 20 9, priFirst := bits v 29 21,
    priCount := bits v 38 30, bitmap := leAt bs 0x30 8, reserved := bits v 63 39 != 0 || leAt bs 0x38 8 != 0 }

/-- Members of a policy. -/
def memberCount (policy : Nat) : Nat := match policy with | 1 => 2 | 2 => 5 | 3 => 10 | _ => 0

/-- A value out of its range, or the member being rebuilt among the sources. -/
def RbDesc.bad (d : RbDesc) : Bool :=
  d.reserved || memberCount d.policy ≤ d.member || (d.policy != 1 && d.chunk = 0) || d.layers = 0 || 256 < d.layers ||
    d.sources.any (fun m => m.1 = d.member || memberCount d.policy ≤ m.1) || (d.priCount != 0 && d.layers < d.priFirst + d.priCount)

/-- Page index, at data member j, of the page of stripe st. -/
def RbDesc.pageOf (d : RbDesc) (st j : Nat) : Nat := st / d.chunk * (dataMembers d.policy * d.chunk) + j * d.chunk + st % d.chunk

/-- The indices the member holds, ascending: every page, the pages of its position, or the stripes (R351). -/
def RbDesc.indices (d : RbDesc) : List Nat :=
  let all := List.range d.pages
  if d.policy = 1 then all
  else if d.member < dataMembers d.policy then all.filter (fun i => stripePos d.policy d.chunk i = d.member)
  else (List.range (ceilDiv d.pages (dataMembers d.policy * d.chunk) * d.chunk)).filter (fun st => d.pageOf st 0 < d.pages)

/-- The pages in the order of R357: the priority layers first. -/
def RbDesc.todo (d : RbDesc) : List (Nat × Nat) :=
  let pri := (List.range d.priCount).map (· + d.priFirst)
  let rest := (List.range d.layers).filter (fun l => !pri.contains l)
  (pri ++ rest).flatMap (fun l => d.indices.map (fun i => (l, i)))

/-- The stripe of an index the member holds. -/
def RbDesc.stripe (d : RbDesc) (i : Nat) : Nat := if d.member < dataMembers d.policy then stripeOf d.policy d.chunk i else i

/-- The index a source is asked for: under MIRROR2 the page, a data member's page of the stripe, a parity member's
stripe. -/
def RbDesc.askIndex (d : RbDesc) (i j : Nat) : Nat :=
  if d.policy = 1 then i else if j < dataMembers d.policy then d.pageOf (d.stripe i) j else d.stripe i

/-- Readable sources a page needs. -/
def RbDesc.need (d : RbDesc) : Nat := dataMembers d.policy

/-! ### Starting (R357) -/

/-- A rebuild job's descriptor. -/
def Rebuild.d (r : Rebuild) : RbDesc := rbDescOf r.desc

/-- Change a rebuild job. -/
def State.modRebuild (s : State) (id : Nat) (g : Rebuild → Rebuild) : State :=
  match Table.find s.rebuilds id with
  | none => s
  | some r => { s with rebuilds := Table.set s.rebuilds id (g r) }

/-- The slice may write the bitmaps, 256 KiB. -/
def State.bitmapOk (s : State) (slice a : Nat) : Bool :=
  granaryOk (a + 262143) && (List.range 5).all (fun i => a / 65536 + i > (a + 262143) / 65536 || !s.frameFault slice (a / 65536 + i) true)

/-- The new hold record, REBUILDING and FENCED, in place of one the node had; the code where there is no room. -/
def State.rebuildHold (s : State) (slice : Nat) (d : RbDesc) : Except Nat State :=
  let s := match s.holdFind slice d.request with
    | none => s
    | some i => s.dropHold slice i
  match s.holdFree slice d.request with
  | none => .error 0x71
  | some i =>
    match s.allocate slice 0 2 0 false with
    | none => .error 0x55
    | some (n, s) =>
      let root := mkHandle s.node n (s.frame n).gen 0 1
      let s := s.formatRoot n d.request 0 d.layers root
      .ok (s.setHold slice i { request := d.request, epoch := d.epoch, member := d.member, policy := d.policy, fenced := true, root,
                               owner := d.owner, chunk := d.chunk, rebuilding := true })

/-- Send an errand of a rebuild job; its answer is awaited. -/
def State.rebuildSend (s : State) (id : Nat) (e : Errand) (slice : Nat) (m : Nat × Nat) (h : HoMsg) : State :=
  match s.errand e slice (hoAsk (nodeAddr m.2 slice) h []) with
  | none => s
  | some s => s.modRebuild id (fun r => { r with waiting := r.waiting ++ [m.1] })

/-- RB.START (R357): BAD_PARAM for a descriptor out of range, PROTECTION for a bitmap of another slice, HO_FULL or
NO_FRAME where no hold record can be made. -/
def opRbStart : SlotOp :=
  let enc : EncSpec := { opc := 0x8F, x := .g, mods := 0x700, ctr := true }
  { enc
    cls := some .fab
    checks := fun c _ => ckHull c.x 64 64
    run := fun c s =>
      let bs := (s.hull c.f).readBytes (fld c.x 31 0) 64
      let d := rbDescOf bs
      let (id, s) := c.issue enc .fab [bs] s
      if d.bad then s.finish c.f id (Done.ofCode 0x86)
      else if !s.bitmapOk c.slice d.bitmap then s.finish c.f id (Done.ofCode 0x9B)
      else
        match s.rebuildHold c.slice d with
        | .error code => s.finish c.f id (Done.ofCode code)
        | .ok s =>
          let s := { s with rebuilds := Table.set s.rebuilds id { furrow := c.f, op := id, slice := c.slice, desc := bs, todo := d.todo } }
          d.sources.foldl (fun s m =>
            let s := s.rebuildSend id (.fence id m.1) c.slice m { request := d.request, epoch := d.epoch, kind := 17, arg := 1 }
            s.rebuildSend id (.lookupSource id m.1) c.slice m { request := d.request, epoch := 0, kind := 14 }) s }

/-- A source has answered FENCE, or LOOKUP with its COVERED and model (log entry 26). -/
def State.rebuildAnswer (s : State) (id member : Nat) (ans : Option (Nat × Nat)) : State :=
  match Table.find s.rebuilds id with
  | none => s
  | some r =>
    let s := s.modRebuild id (fun r => { r with waiting := r.waiting.erase member })
    match ans with
    | none => s
    | some (covered, model) =>
      let s := s.modRebuild id (fun r => { r with covered := r.covered ++ [(member, covered)] })
      match (s.holdFind r.slice r.d.request).bind (fun i => s.localFrame (s.holdAt r.slice i).root) with
      | none => s
      | some root => s.setGword (frameAddr root + 8) (setFld (s.rootWord root) 19 0 model)

/-! ### A page (R357, R358) -/

/-- The sources not failed, in member order, that have not been asked for the present page. -/
def Rebuild.fresh (r : Rebuild) : List (Nat × Nat) :=
  r.d.sources.filter (fun m => !r.failed.contains m.1 && !Table.has r.got m.1)

/-- What a source gave can be used: a page, or a missing page, which counts as zero bytes. -/
def Fetched.usable : Fetched → Bool
  | .page _ _ => true
  | .hole => true
  | _ => false

/-- Usable answers so far. -/
def Rebuild.usable (r : Rebuild) : Nat := (r.got.filter (fun p => p.2.usable)).length

/-- A source has failed for the rest of the job. -/
def Rebuild.sourceFailed (r : Rebuild) (member code : Nat) : Rebuild :=
  { r with got := Table.set r.got member .bad, failed := member :: r.failed, code := if r.code = 0 then code else r.code }

/-- Pull the present page from one source. -/
def State.rebuildAsk (s : State) (id : Nat) (r : Rebuild) (layer index : Nat) (m : Nat × Nat) : State :=
  let cls := match s.op? r.furrow r.op with | none => 0 | some o => o.mod / 256 % 8
  let q : PullReq := ⟨r.d.request, r.d.epoch, layer, r.d.askIndex index m.1, 1, 0⟩
  match s.errand (.source id m.1) r.slice { op := 0x06, cls, addr := nodeAddr m.2 r.slice, payload := pullPayload q } with
  | none => s.modRebuild id (fun r => r.sourceFailed m.1 0x5D)
  | some s => s.modRebuild id (fun r => { r with got := Table.set r.got m.1 .asked })

/-- The bytes of an answer. -/
def Fetched.bytes : Fetched → List Byte
  | .page _ d => d
  | _ => fillBytes 65536 0

/-- A power in GF(2^8). -/
def gfPower (a : Nat) : Nat → Nat
  | 0 => 1
  | n + 1 => gfMul (gfPower a n) a

/-- The inverse in GF(2^8), 0 for 0. -/
def gfInv (a : Nat) : Nat := gfPower a 254

/-- The exclusive or of byte strings over 65,536 bytes. -/
def xorAll (l : List (List Byte)) : List Byte := l.foldl xorBytes (fillBytes 65536 0)

/-- The k data pages of a stripe from k of its pages (Table 13-6): at most two data pages are missing, and as many parity
pages are at hand. -/
def stripeData (k : Nat) (got : Table (List Byte)) : List (List Byte) :=
  let have' := (List.range k).filter (Table.has got)
  let miss := (List.range k).filter (fun j => !Table.has got j)
  let z := fillBytes 65536 0
  let sp := xorBytes (Table.get z got k) (xorAll (have'.map (Table.get z got)))
  let sq := xorBytes (Table.get z got (k + 1)) (xorAll (have'.map (fun j => gfScale (gfPow j) (Table.get z got j))))
  let found : Table (List Byte) :=
    match miss with
    | [x] => if Table.has got k then [(x, sp)] else [(x, gfScale (gfInv (gfPow x)) sq)]
    | [x, y] =>
      let dy := gfScale (gfInv (gfPow x ^^^ gfPow y)) (xorBytes sq (gfScale (gfPow x) sp))
      [(x, xorBytes sp dy), (y, dy)]
    | _ => []
  (List.range k).map (fun j => if Table.has got j then Table.get z got j else Table.get z found j)

/-- The page the member is to hold, decoded from its sources. -/
def RbDesc.decode (d : RbDesc) (got : Table (List Byte)) : List Byte :=
  if d.policy = 1 then (got.head?.map (·.2)).getD []
  else
    let k := dataMembers d.policy
    let ds := stripeData k got
    if d.member < k then ds.getD d.member []
    else if d.member = k then xorAll ds
    else xorAll (ds.zipIdx.map (fun p => gfScale (gfPow p.2) p.1))

/-- Set a page's bit in a bitmap. -/
def State.setBitmap (s : State) (base layer index : Nat) : State :=
  let b := layer * 4096 + index
  s.gwrite (base + b / 8) [s.mem.read (base + b / 8) ||| BitVec.ofNat 8 (2 ^ (b % 8))] false

/-- The page is done with: the next one is examined. -/
def State.rebuildNext (s : State) (id : Nat) : State :=
  s.modRebuild id (fun r => { r with todo := r.todo.drop 1, got := [] })

/-- A page of the job is lost: a poisoned frame and handle, its LOST bit, and the count (R358). -/
def State.rebuildLost (s : State) (id : Nat) (r : Rebuild) (layer index code : Nat) : State :=
  let s := (s.setBitmap (r.d.bitmap + 131072) layer index).bump ⟨.fabRbLostCnt, 0, 0, 0⟩
  let s := s.modRebuild id (fun r => { r with lost := true, code := if r.code = 0 then code else r.code })
  match s.holdFind r.slice r.d.request with
  | none => s
  | some i =>
    let h := s.holdAt r.slice i
    let fmt := match s.localFrame h.root with | none => 0 | some n => (s.layer n layer).fmt
    match s.pageTarget r.slice h layer index fmt with
    | none => s
    | some ((n, made), s) =>
      let s := s.setFrame n { s.frame n with poisoned := true }
      match s.enterPage r.slice h layer index n fmt 33 with
      | none => if made then s.freeFrame n else s
      | some (_, s) => s

/-- A layer whose first pages were lost takes its format from the first page rebuilt: the layer entry, and the handles and frames
of the lost pages (R76, R358). -/
def State.learnFormat (s : State) (h : HoldRec) (layer fmt : Nat) : State :=
  match s.localFrame h.root with
  | none => s
  | some root =>
    let e := s.layer root layer
    if !e.enabled || e.fmt != 0 || s.rootLayers root ≤ layer then s
    else
      (List.range e.pages).foldl (fun s k =>
        let w := s.gword (e.addr k)
        match s.localFrame w with
        | none => s
        | some n => (s.setGword (e.addr k) (setFld w 15 8 fmt)).setFrame n { s.frame n with stamp := fmt })
        (s.setLayer root layer { e with fmt })

/-- Write a rebuilt page with its stripe's tag and set its REBUILT bit; without a frame it is lost (R357, R231). -/
def State.rebuildWrite (s : State) (id : Nat) (r : Rebuild) (layer index : Nat) (tag : Word) (data : List Byte) : State :=
  match s.holdFind r.slice r.d.request with
  | none => s
  | some i =>
    let h := s.holdAt r.slice i
    let s := s.learnFormat h layer (tagFmt tag)
    match s.pageTarget r.slice h layer index (tagFmt tag) with
    | none => s.rebuildLost id r layer index 0x55
    | some ((n, made), s) =>
      match s.enterPage r.slice h layer index n (tagFmt tag) 1 with
      | none => (if made then s.freeFrame n else s).rebuildLost id r layer index 0x55
      | some (_, s) =>
        ((s.pageArrives n r.furrow (tagFmt tag) tag data false false).setBitmap r.d.bitmap layer index)

/-- REBUILD_PAGE: the next page asks its sources, or, with their answers in, is decoded and written, is missing in the
whole stripe, asks another source, or is lost. -/
def rebuildPage (id : Nat) (s : State) : State :=
  match Table.find s.rebuilds id with
  | none => s
  | some r =>
    match r.waiting, r.todo with
    | [], (layer, index) :: _ =>
      if r.got.any (fun p => p.2 = .asked) then s
      else if r.d.need ≤ r.usable then
        let got := r.got.filter (fun p => p.2.usable)
        match got.findSome? (fun p => match p.2 with | .page t _ => some t | _ => none) with
        | none => s.rebuildNext id
        | some tag =>
          (s.rebuildWrite id r layer index tag (r.d.decode (got.map (fun p => (p.1, p.2.bytes))))).rebuildNext id
      else
        let want := r.d.need - r.usable
        if r.fresh.length < want then (s.rebuildLost id r layer index 0x84).rebuildNext id
        else (r.fresh.take want).foldl (fun s m => s.rebuildAsk id r layer index m) s
    | _, _ => s

/-- A source has answered its pull: a page, a hole, a page that cannot be read, or a refusal or no answer, after which it
counts as failed (R358). -/
def State.rebuildFetched (s : State) (id member status : Nat) (refused : Bool) (payload : List Byte) (poison : Bool) : State :=
  s.modRebuild id fun r =>
    let put (x : Fetched) : Rebuild := { r with got := Table.set r.got member x }
    if refused then r.sourceFailed member status
    else if status = 0x80 then put .hole
    else if status != 0 || poison then { put .bad with code := if r.code = 0 then (if status = 0 then 0x84 else status) else r.code }
    else put (.page (wordAt payload 0) (payload.drop 8))

/-- REBUILD_END (R357, R358). -/
def rebuildEnd (id : Nat) (s : State) : State :=
  match Table.find s.rebuilds id with
  | none => s
  | some r =>
    if !r.todo.isEmpty || !r.waiting.isEmpty then s
    else
      let d := r.d
      let s := { s with rebuilds := Table.erase s.rebuilds id }
      let s := match s.holdFind r.slice d.request with
        | none => s
        | some i =>
          let covered := leastOf (r.covered.map (·.2))
          s.setHold r.slice i { s.holdAt r.slice i with covered, rebuilding := false, fenced := false }
      let tell (s : State) (node kind : Nat) : State :=
        (s.errand .notice r.slice (hoAsk (nodeAddr node r.slice) { request := d.request, epoch := d.epoch, kind } [])).getD s
      let s := d.sources.foldl (fun s m => tell s m.2 17) s
      let s := if r.lost then tell s d.owner 15 else s
      s.finish r.furrow r.op (if r.lost then { code := r.code, poison := true } else Done.ok)

/-! ### Commands -/

/-- RB_START (R357). -/
def execRbStart (f : FurrowId) (o : Slot) (s : State) : Res := answer (runSlot opRbStart f o s)

/-- REBUILD_PAGE (R357). -/
def execRebuildPage (id : Nat) (s : State) : Res := answer (rebuildPage id s)

/-- REBUILD_END (R357). -/
def execRebuildEnd (id : Nat) (s : State) : Res := answer (rebuildEnd id s)

end Sys2Proof.Machine
end

