-- ==== Sys2Proof/Machine/Sieve.lean ====
section
/-! DEFINITION. Masks and sampling: SIEVE.MASK, SMP.DRAW and the Sieve units that run them (R262 to R272). -/

namespace Sys2Proof.Machine

/-! ### Units (R272) -/

/-- A Field's Sieve unit is powered, not failed and not fenced (R272). -/
def State.sieveUp (s : State) (field : Nat) : Bool :=
  let i := field / 2
  let u := s.unit (.sievePair (Fin.ofNat 2 i))
  s.domainOn (114 + i) && !u.failed && !u.fenced

/-- The unit that takes a Field's operations: its own, else the available one of lowest Field number. -/
def State.sieveFor (s : State) (field : Nat) : Option Nat :=
  if s.sieveUp field then some field else firstBelow 4 s.sieveUp

/-- A Sieve unit. -/
def State.sieveAt (s : State) (f : Nat) : UnitQueue := Table.get {} s.sieve f
/-- Change a Sieve unit. -/
def State.modSieve (s : State) (f : Nat) (g : UnitQueue → UnitQueue) : State :=
  { s with sieve := Table.set s.sieve f (g (s.sieveAt f)) }

/-- The unit's queue of 32 is full. -/
def State.sieveFull (s : State) (field : Nat) : Bool :=
  match s.sieveFor field with
  | none => false
  | some f => 32 ≤ (s.sieveAt f).queue.length

/-- Queue an operation of a Furrow's. -/
def State.sievePut (s : State) (field : Nat) (j : UnitJob) : State :=
  match s.sieveFor field with
  | none => s
  | some f => s.modSieve f (fun u => { u with queue := u.queue ++ [j] })

/-- Operations queued on units that are not available go to the available one as it has places, in arrival order (R272). -/
def State.sieveShift (s : State) : State :=
  (List.range 4).foldl (fun s f =>
    match s.sieveFor f with
    | none => s
    | some g =>
      let n := 32 - (s.sieveAt g).queue.length
      let q := (s.sieveAt f).queue
      if g = f || q.isEmpty || n = 0 then s
      else
        (s.modSieve f (fun u => { u with queue := q.drop n })).modSieve g (fun u => { u with queue := u.queue ++ q.take n })) s

/-- SIEVE.MASK (R265). -/
def opSieveMask : SlotOp :=
  let enc : EncSpec := { opc := 0xB0, x := .g, y := .g, ctr := true }
  { enc
    cls := some .cod
    stalls := fun c s => s.sieveFull c.field
    checks := fun c s => ckHull c.x 0x140 64 ++ ckSheaf s c.slice c.y ++ chk (s.sieveFor c.field).isSome 0x07 0
    run := fun c s =>
      let (id, s) := c.issue enc .cod [] s
      s.sievePut c.field ⟨false, c.f, id⟩ }

/-- SMP.DRAW (R270). -/
def opSmpDraw : SlotOp :=
  let enc : EncSpec := { opc := 0xB1, x := .g, y := .g, z := .g, ctr := true }
  { enc
    cls := some .cod
    stalls := fun c s => s.sieveFull c.field
    checks := fun c s =>
      ckHull c.x 512 64 ++ ckHull c.y 0x140 64 ++ ckSheaf s c.slice c.z ++ chk (s.sieveFor c.field).isSome 0x07 0
    run := fun c s =>
      let (id, s) := c.issue enc .cod [] s
      s.sievePut c.field ⟨false, c.f, id⟩ }

/-! ### Logit blocks (R262, R269) -/

/-- A logit block's header. -/
structure LogitBlock where
  off : Nat
  vocab : Nat
  wide : Bool
  rows : Nat
  masked : Bool
  drafts : Nat
deriving DecidableEq, Repr

/-- Bytes of a logit. -/
def LogitBlock.width (b : LogitBlock) : Nat := if b.wide then 4 else 2
/-- RB. -/
def LogitBlock.rowBytes (b : LogitBlock) : Nat := ceilDiv (b.vocab * b.width) 64 * 64
/-- Offset of row j. -/
def LogitBlock.row (b : LogitBlock) (j : Nat) : Nat := b.off + 0x140 + j * b.rowBytes

/-- The block at a Hull offset; none is BAD_LOGITS (R269). -/
def logitBlock (m : Memory) (off : Nat) : Option LogitBlock :=
  let w := m.readNat off 8
  let b : LogitBlock := ⟨off, bits w 18 0, w.testBit 19, bits w 26 20, w.testBit 27, bits w 63 32⟩
  let draftsOk := b.rows = 1 || (b.drafts % 4 = 0 && b.drafts + 4 * (b.rows - 1) ≤ 0x300000)
  if 1 ≤ b.vocab && b.vocab ≤ 262144 && 1 ≤ b.rows && b.rows ≤ 64 && bits w 31 28 = 0 && draftsOk &&
      b.row b.rows ≤ 0x300000 then some b
  else none

/-- Row j's logits as values. -/
def LogitBlock.logits (b : LogitBlock) (m : Memory) (j : Nat) : List FVal :=
  let f := if b.wide then fp32 else bf16
  (chunks b.width (m.readBytes (b.row j) (b.vocab * b.width))).map (fun c => f.decode (fromBytes c))

/-- A line of row j carries the poison mark. -/
def LogitBlock.marked (b : LogitBlock) (m : Memory) (j : Nat) : Bool := m.anyPoison (b.row j) (b.vocab * b.width)

/-- Row j with −∞ in place of every logit the list does not admit (R265). -/
def LogitBlock.maskRow (b : LogitBlock) (m : Memory) (j : Nat) (adm : List Bool) : Memory :=
  let w := b.width
  let neg := toBytes w (if b.wide then 0xFF800000 else 0xFF80)
  let old := (List.range (b.vocab * w)).map (fun i => m.byte (b.row j + i))
  m.patch (b.row j) ((List.zipWith (fun c ok => if ok then c else neg) (chunks w old) adm).flatten)

/-! ### Mask programs (R266 to R268) -/

/-- Bytes of Granary that a program of a slice may read; none where one lies outside the slice's frames (R269). -/
def State.sieveRead (s : State) (slice a n : Nat) : Option (List Byte) :=
  if n = 0 then some []
  else if granaryOk a && granaryOk (a + n - 1) && s.allowed slice a n false = n then some (s.mem.readBytes a n) else none

/-- The IDs of an allow-list. -/
def State.allowList (s : State) (slice ptr : Nat) : Option (List Nat) :=
  match s.sieveRead slice ptr 8 with
  | none => none
  | some h =>
    let n := bits (leAt h 0 8) 12 0
    if n < 1 || 4096 < n then none
    else (s.sieveRead slice (ptr + 8) (4 * n)).map (fun bs => (List.range n).map (fun i => bits (leAt bs (4 * i) 4) 17 0))

/-- The dead state. -/
def deadState : Nat := 0xFFFFFFFF

/-- A grammar automaton's header (Table 10-6). -/
structure Grammar where
  slice : Nat
  states : Nat
  stateBase : Nat
  rowBase : Nat
  transBase : Nat
deriving DecidableEq, Repr

/-- The automaton at a pointer, for a block of a vocabulary. -/
def State.grammar (s : State) (slice ptr vocab : Nat) : Option Grammar :=
  match s.sieveRead slice ptr 64 with
  | none => none
  | some h => if bits (leAt h 4 4) 18 0 = vocab then some ⟨slice, leAt h 0 4, leAt h 8 8, leAt h 0x10 8, leAt h 0x18 8⟩ else none

/-- The record of a state. -/
def Grammar.record (g : Grammar) (s : State) (st : Nat) : Option (List Byte) :=
  if g.states ≤ st then none else s.sieveRead g.slice (g.stateBase + 32 * st) 32

/-- Whether numbers rise strictly. -/
def rising : List Nat → Bool
  | a :: b :: t => a < b && rising (b :: t)
  | _ => true

/-- δ (R268): none is BAD_MASK_PROG. -/
def Grammar.next (g : Grammar) (s : State) (st x : Nat) : Option Nat :=
  if st = deadState then some deadState
  else
    match g.record s st with
    | none => none
    | some r =>
      let n := leAt r 0xC 4
      if 262144 < n then none
      else
        match s.sieveRead g.slice (g.transBase + leAt r 8 4) (8 * n) with
        | none => none
        | some bs =>
          let l := (List.range n).map (fun i => (bits (leAt bs (8 * i) 4) 17 0, leAt bs (8 * i + 4) 4))
          if rising (l.map (·.1)) then
            some (match l.find? (fun p => p.1 == x) with | some p => p.2 | none => leAt r 0x10 4)
          else none

/-- The tokens that a state admits, by ID below VOCAB (R267). -/
def Grammar.admits (g : Grammar) (s : State) (vocab st : Nat) : Option (List Bool) :=
  if st = deadState then some (List.replicate vocab false)
  else
    match g.record s st with
    | none => none
    | some r =>
      let blocks := ceilDiv vocab 256
      match s.sieveRead g.slice (g.rowBase + leAt r 0 4) (ceilDiv blocks 4) with
      | none => none
      | some cs =>
        let cls := (List.range blocks).map (fun b => leAt cs (b / 4) 1 / 4 ^ (b % 4) % 4)
        let mixed := (cls.filter (· == 2)).length
        match s.sieveRead g.slice (g.rowBase + leAt r 4 4) (32 * mixed) with
        | none => none
        | some bm =>
          if cls.any (· == 3) then none
          else
            some ((List.range vocab).map fun t =>
              let b := t / 256
              match cls.getD b 0 with
              | 0 => false
              | 1 => true
              | _ =>
                let i := ((cls.take b).filter (· == 2)).length
                (leAt bm (32 * i + t % 256 / 8) 1).testBit (t % 8))

/-- States of rows 0 to n − 1 along the draft tokens, and entries into the dead state. -/
def Grammar.states' (g : Grammar) (s : State) (st : Nat) (drafts : List Nat) : Option (List Nat × Nat) :=
  drafts.foldl (fun acc x =>
    match acc with
    | none => none
    | some (l, dead) =>
      let cur := l.getLast?.getD st
      (g.next s cur x).map (fun n => (l ++ [n], dead + (if n = deadState && cur != deadState then 1 else 0)))) (some ([st], 0))

/-- All of a list of optional values, or none. -/
def allSome {α : Type} : List (Option α) → Option (List α)
  | [] => some []
  | a :: t =>
    match a, allSome t with
    | some a, some t => some (a :: t)
    | _, _ => none

/-- SIEVE.MASK's effect on unit f: mask mode 3 has no program, so it is BAD_MASK_PROG (log entry 23). -/
def State.maskDo (s : State) (f : Nat) (j : UnitJob) (o : AsyncOp) : Done × State :=
  let m := s.hull j.furrow
  match logitBlock m (fld o.x 31 0) with
  | none => (Done.ofCode 0x46, s)
  | some b =>
    let e := s.entry (sheafIx o.y)
    let ptr := e.maskPtr.toNat
    let mask (m : Memory) : Memory := m.patch (b.off + 3) [BitVec.ofNat 8 (m.byte (b.off + 3)).toNat ||| 8]
    let rows (l : List (List Bool)) (m : Memory) : Memory := l.zipIdx.foldl (fun m p => b.maskRow m p.2 p.1) m
    let d : Done := { poison := (List.range b.rows).any (b.marked m) }
    match e.maskMode with
    | 0 => (d, s.modHull j.furrow mask)
    | 1 =>
      match s.allowList o.slice ptr with
      | none => (Done.ofCode 0x44, s)
      | some ids =>
        let adm := (List.range b.vocab).map (fun t => ids.contains t)
        let s := (s.modHull j.furrow (fun m => mask (rows (List.replicate b.rows adm) m))).touchRange ptr 8
        (d, s.count ⟨.fldSieveBadidCnt, f, 0, 0⟩ 31 0 (ids.filter (fun t => b.vocab ≤ t)).length)
    | 2 =>
      match s.grammar o.slice ptr b.vocab with
      | none => (Done.ofCode 0x44, s)
      | some g =>
        let drafts := (List.range (b.rows - 1)).map (fun k => m.readNat (b.drafts + 4 * k) 4)
        match g.states' s e.automaton drafts with
        | none => (Done.ofCode 0x44, s)
        | some (sts, dead) =>
          match allSome (sts.map (g.admits s b.vocab)) with
          | none => (Done.ofCode 0x44, s)
          | some adm =>
            let put (m : Memory) : Memory := sts.zipIdx.foldl (fun m p => m.patch (b.off + 0x40 + 4 * p.2) (toBytes 4 p.1)) m
            let s := (s.modHull j.furrow (fun m => put (mask (rows adm m)))).touchRange ptr 64
            (d, s.count ⟨.fldSieveDeadCnt, f, 0, 0⟩ 31 0 dead)
    | _ => (Done.ofCode 0x44, s)

/-! ### The sampler (R270, R271, Table 10-7) -/

/-- A candidate token: its ID and a value (its z, then its weight), FP32. -/
abbrev Cand := Nat × Nat

/-- Whether a is taken before b: greater value, lower ID on a tie. -/
def candBefore (a b : Cand) : Bool := f32lt b.2 a.2 || (!f32lt a.2 b.2 && a.1 < b.1)

/-- Insert a candidate into a list in descending order. -/
def candInsert (c : Cand) : List Cand → List Cand
  | [] => [c]
  | d :: t => if candBefore c d then c :: d :: t else d :: candInsert c t

/-- Candidates in descending order. -/
def candSort (l : List Cand) : List Cand := l.foldl (fun acc c => candInsert c acc) []

/-- FP32 sum in the order of the list, each addition rounded. -/
def candSum (l : List Cand) : Nat := l.foldl (fun t c => f32add t c.2) 0

/-- The shortest prefix whose running sum reaches a limit. -/
def candPrefix (lim : FVal) (sum : Nat) : List Cand → List Cand
  | [] => []
  | c :: t =>
    let r := f32add sum c.2
    if FVal.lt (fp32.decode r) lim then c :: candPrefix lim r t else [c]

/-- The first candidate whose running sum exceeds a limit, or the last. -/
def candPick (lim : FVal) (sum : Nat) : List Cand → Option Cand
  | [] => none
  | [c] => some c
  | c :: t =>
    let r := f32add sum c.2
    if FVal.lt lim (fp32.decode r) then some c else candPick lim r t

/-- The sampler's parameters after the substitutions of R271: temperature, top-p, min-p (none: disabled), top-k, and how
many were substituted. -/
structure Sampler where
  tau : Nat
  topP : Option Nat
  minP : Option Nat
  topK : Nat
  fixes : Nat

/-- A filter value inside (0, 1). -/
def unitOpen (c : Nat) : Bool := f32lt 0 c && f32lt c 0x3F800000

/-- The parameters of an entry (Table 2-1). -/
def samplerOf (e : SheafEntry) : Sampler :=
  let t := fld e.sampling0 31 0
  let p := fld e.sampling0 63 32
  let m := fld e.sampling1 31 0
  let v := fp32.decode t
  let okT := v.isFinite && !f32lt t 0
  ⟨if okT then t else 0, if unitOpen p then some p else none, if unitOpen m then some m else none, fld e.sampling1 42 32,
    (if okT then 0 else 1) + (if unitOpen p then 0 else 1) + (if unitOpen m then 0 else 1)⟩

/-- What a row's draw came to: the token and PROB, and whether step 8 ran under the 1,024-token limit. -/
structure RowDraw where
  token : Nat
  prob : Nat
  trunc : Bool

/-- Steps 3 to 9 of Table 10-7 for the candidates of a row, given u as a numerator over 2^32. None where the weights are
not defined: an infinite z with no filter to drop it, or no finite z (log entry 23). -/
def Sampler.draw (p : Sampler) (live : List Cand) (u : Nat) : Option RowDraw :=
  if (fp32.decode p.tau).isZero then (candSort live).head?.map (fun c => ⟨c.1, 0x3F800000, false⟩)
  else
    let zs := live.map (fun c => (c.1, f32div c.2 p.tau))
    let k := if p.topK = 0 then (if p.topP.isSome then 1024 else 0) else p.topK
    let kept := if k = 0 then zs else (candSort (zs.filter (fun c => (fp32.decode c.2).isFinite))).take k
    let top := (candSort kept).head?
    match top with
    | none => none
    | some top =>
      if !(fp32.decode top.2).isFinite then none
      else
        let ws := kept.map (fun c => (c.1, f32exp (f32sub c.2 top.2)))
        let ws := match p.minP with | none => ws | some m => ws.filter (fun c => !f32lt c.2 m)
        let ws := match p.topP with
          | none => ws
          | some q =>
            let l := candSort ws
            candPrefix (FVal.mul (fp32.decode q) (fp32.decode (candSum l))) 0 l
        let byId := (List.zip (ws.map (·.1)) ws).foldl (fun acc c => idInsert c.2 acc) []
        let t := candSum byId
        (candPick (FVal.mul (.fin false u (-32)) (fp32.decode t)) 0 byId).map fun c =>
          ⟨c.1, f32div c.2 t, p.topK = 0 && p.topP.isSome⟩
where
  /-- Insert by ascending ID. -/
  idInsert (c : Cand) : List Cand → List Cand
    | [] => [c]
    | d :: t => if c.1 < d.1 then c :: d :: t else d :: idInsert c t

/-- A draw under way. -/
structure DrawRun where
  s : State
  tokens : List (Nat × Nat × Nat) := []
  nan : Nat := 0
  trunc : Nat := 0
  dead : Nat := 0
  stopped : Bool := false
  bad : Bool := false

/-- One row (Table 10-7): candidates are the logits other than −∞, as FP32. -/
def DrawRun.row (r : DrawRun) (b : LogitBlock) (m : Memory) (e : SheafEntry) (g : Option Grammar) (p : Sampler) (j : Nat) : DrawRun :=
  if r.stopped || r.bad then r
  else
    let xs := b.logits m j
    let r := { r with nan := r.nan + (xs.filter FVal.isNaN).length }
    let live := (xs.zipIdx.filter (fun q => !q.1.isNaN && q.1 != .inf true)).map (fun q => (q.2, fp32.encode q.1))
    if !xs.any FVal.isFinite then { r with stopped := true }
    else
      let u := bits (philox ((e.rngCounter + j) % 2 ^ 128) e.rngKey.toNat) 31 0
      let (d, s) := match p.draw live u with
        | some d => (d, r.s)
        | none =>
          let (v, s) := r.s.free
          (⟨v.toNat % b.vocab, fld v 63 32, false⟩, s)
      let r := { r with s, trunc := r.trunc + (if d.trunc then 1 else 0) }
      match g with
      | none => { r with tokens := r.tokens ++ [(d.token, d.prob, e.automaton)] }
      | some g =>
        let st := m.readNat (b.off + 0x40 + 4 * j) 4
        match g.next s st d.token with
        | none => { r with bad := true }
        | some n => { r with tokens := r.tokens ++ [(d.token, d.prob, n)], dead := r.dead + (if n = deadState && st != deadState then 1 else 0) }

/-- Write a member result (Table 10-5): flags are ORed, TOKENS, SAMPLED and DRAWS set. -/
def writeMember (m : Memory) (a flags : Nat) (l : List (Nat × Nat × Nat)) : Memory :=
  let n := l.length
  let w1 := setBits (setBits (setBits (m.readNat (a + 4) 4) 6 0 n) 7 7 1) 14 8 n
  let m := (m.writeNat a 4 (m.readNat a 4 ||| flags)).writeNat (a + 4) 4 w1
  let m := match l with | [] => m | t :: _ => m.writeNat (a + 8) 4 t.2.1
  l.zipIdx.foldl (fun m p => (m.writeNat (a + 0x10 + 3 * p.2) 3 p.1.1).writeNat (a + 0xD0 + 4 * p.2) 4 p.1.2.2) m

/-- SMP.DRAW's effect on unit f. Outside mask mode 2 the state after a token is the entry's (log entry 23). -/
def State.drawDo (s : State) (f : Nat) (j : UnitJob) (o : AsyncOp) : Done × State :=
  let m := s.hull j.furrow
  let a := fld o.x 31 0
  match logitBlock m (fld o.y 31 0) with
  | none => (Done.ofCode 0x46, s)
  | some b =>
    let e := s.entry (sheafIx o.z)
    let g := if e.maskMode = 2 then s.grammar o.slice e.maskPtr.toNat b.vocab else none
    if (e.maskMode = 1 || e.maskMode = 2) && !b.masked then
      (Done.ofCode 0x45, s.modHull j.furrow (fun m => writeMember m a 0 []))
    else if e.maskMode = 3 || (e.maskMode = 2 && g.isNone) then (Done.ofCode 0x44, s)
    else
      let p := samplerOf e
      let r := (List.range b.rows).foldl (fun (r : DrawRun) k => r.row b m e g p k) { s }
      if r.bad then (Done.ofCode 0x44, r.s)
      else
        let flags := if r.tokens.isEmpty then 2 ^ 19 else 0
        let s := r.s.modHull j.furrow (fun m => writeMember m a flags r.tokens)
        let s := s.count ⟨.fldSmpNanCnt, f, 0, 0⟩ 31 0 r.nan
        let s := s.count ⟨.fldSmpFixCnt, f, 0, 0⟩ 31 0 p.fixes
        let s := s.count ⟨.fldSmpTruncCnt, f, 0, 0⟩ 31 0 r.trunc
        let s := s.count ⟨.fldSieveDeadCnt, f, 0, 0⟩ 31 0 r.dead
        ({ poison := (List.range b.rows).any (b.marked m) }, s)

/-- SIEVE_OP_START: operations run one at a time in arrival order (R272). -/
def sieveOpStart (f : FieldId) (s : State) : State :=
  let u := s.sieveAt f.val
  if u.running.isSome || !s.sieveUp f.val then s
  else
    match u.queue with
    | [] => s
    | j :: t => (s.modSieve f.val (fun _ => ⟨t, some j⟩)).sieveShift

/-- SIEVE_OP_COMPLETE: the running operation ends after `cycles` of the unit. -/
def sieveOpComplete (f : FieldId) (cycles : Nat) (s : State) : State :=
  match (s.sieveAt f.val).running with
  | none => s
  | some j =>
    let s := (s.meterJob 4 j cycles).modSieve f.val (fun u => { u with running := none })
    let s := s.offIfDue (.sievePair (Fin.ofNat 2 (f.val / 2)))
    match s.op? j.furrow j.op with
    | none => s
    | some o =>
      let (d, s) := if o.opc = 0xB0 then s.maskDo f.val j o else s.drawDo f.val j o
      s.finish j.furrow o.id d

/-! ### Commands -/

/-- SIEVE_MASK (R265). -/
def execSieveMask (f : FurrowId) (o : Slot) (s : State) : Res := answer (runSlot opSieveMask f o s)

/-- SMP_DRAW (R270). -/
def execSmpDraw (f : FurrowId) (o : Slot) (s : State) : Res := answer (runSlot opSmpDraw f o s)

/-- SIEVE_OP_START (R272). -/
def execSieveOpStart (f : FieldId) (s : State) : Res := answer (sieveOpStart f s)

/-- SIEVE_OP_COMPLETE (R270). -/
def execSieveOpComplete (f : FieldId) (cycles : Nat) (s : State) : Res := answer (sieveOpComplete f cycles s)

end Sys2Proof.Machine
end

