-- ==== Sys2Proof/Machine/Arrive.lean ====
section
/-! DEFINITION. Arriving write-class requests, arriving responses and time-outs, each handed to what it is for, and the latching
and frame releases of walks (R73, R74, R278 to R302, R338, R353). -/

namespace Sys2Proof.Machine

/-! ### Requests in their turn -/

/-- A HANDOVER message (Table 13-3). ENGINE_FENCE is for phase engines: a device refuses it with HO_STATE (log entry 25). -/
def State.serveHandover (s : State) (m : Req) : State :=
  let h := hoMsgOf m.payload
  match h.kind with
  | 1 => s.serveOffer m h
  | 2 => s.serveAccept m h
  | 3 => s.serveRefuse m h
  | 4 => s.serveCommit m h
  | 5 => s.serveAck m h
  | 6 => s.serveConfirm m h
  | 7 => s.serveStepped m h
  | 8 => s.serveReleased m h
  | 9 => s.serveReclaim m h
  | 10 => s.serveReclaimAck m h
  | 11 => s.serveEpochSet m h
  | 12 => s.serveCover m h
  | 13 => s.serveDrop m h
  | 14 => s.serveLookup m h
  | 15 => s.serveLoss m h
  | 16 => s.servePageOpen m h
  | 17 => s.serveFence m h
  | _ => s.refuse m 0x70

/-- A write-class request in its turn, by its OP (Table 11-2). -/
def serveWrite (m : Req) (t : Target) (opened : Option Req) (s : State) : State :=
  match m.op with
  | 0x03 => s.serveAtom m t
  | 0x08 => s.serveNotify m
  | 0x09 => s.serveRow m
  | 0x0A => s.servePageWr m opened
  | 0x0B => s.serveAbort m
  | 0x0C => s.serveHandover m
  | _ => s.serveStore m t

/-- A write-class request arrives: checks, then its turn (R287 to R293, R302). A refused one still takes its turn. -/
def State.arriveWrite (s : State) (m : Req) : State :=
  match s.screen m with
  | (.served t, s) => s.order serveWrite m (some t)
  | (.refused, s) => s.order serveWrite m none
  | (.discarded, s) => s

/-- KIND of a notify's payload (Table 11-8). -/
def notifyKind (m : Req) : Nat := leAt m.payload 0 1 % 4

/-- A HANDOVER message of one kind. -/
def State.arriveHandover (s : State) (m : Req) (kind : Nat) : State :=
  if leAt m.payload 12 1 = kind then s.arriveWrite { m with op := 0x0C } else s

/-- ST_REQUEST (R279, R291). -/
def stRequest (m : Req) (s : State) : State := s.arriveWrite { m with op := 0x02 }

/-- COPY_WR (R281, R291). -/
def copyWr (m : Req) (s : State) : State := s.arriveWrite { m with op := 0x05 }

/-- ROW_UPDATE (R261). -/
def rowUpdate (m : Req) (s : State) : State := s.arriveWrite { m with op := 0x09 }

/-- PAGE_WR (R352). -/
def pageWr (m : Req) (s : State) : State := s.arriveWrite { m with op := 0x0A }

/-- ABORT (R189). -/
def abort (m : Req) (s : State) : State := s.arriveWrite { m with op := 0x0B }

/-- ATOM_ADD (R280). -/
def atomAdd (m : Req) (s : State) : State := s.arriveWrite { m with op := 0x03, subop := 0 }

/-- ATOM_SMIN (R280). -/
def atomSmin (m : Req) (s : State) : State := s.arriveWrite { m with op := 0x03, subop := 1 }

/-- ATOM_SMAX (R280). -/
def atomSmax (m : Req) (s : State) : State := s.arriveWrite { m with op := 0x03, subop := 2 }

/-- ATOM_UMIN (R280). -/
def atomUmin (m : Req) (s : State) : State := s.arriveWrite { m with op := 0x03, subop := 3 }

/-- ATOM_UMAX (R280). -/
def atomUmax (m : Req) (s : State) : State := s.arriveWrite { m with op := 0x03, subop := 4 }

/-- ATOM_SWAP (R280). -/
def atomSwap (m : Req) (s : State) : State := s.arriveWrite { m with op := 0x03, subop := 5 }

/-- ATOM_CAS (R280). -/
def atomCas (m : Req) (s : State) : State := s.arriveWrite { m with op := 0x03, subop := 6 }

/-- ATOM_FADD_FP32 (R280). -/
def atomFaddFp32 (m : Req) (s : State) : State := s.arriveWrite { m with op := 0x03, subop := 7 }

/-- ATOM_FADD_BF16 (R280). -/
def atomFaddBf16 (m : Req) (s : State) : State := s.arriveWrite { m with op := 0x03, subop := 8 }

/-- NOTIFY_COUNTER (R284). -/
def notifyCounter (m : Req) (s : State) : State := if notifyKind m = 0 then s.arriveWrite { m with op := 0x08 } else s

/-- NOTIFY_SLOT_RELEASE (R284). -/
def notifySlotRelease (m : Req) (s : State) : State := if notifyKind m = 1 then s.arriveWrite { m with op := 0x08 } else s

/-- OFFER (R342). -/
def offer (m : Req) (s : State) : State := s.arriveHandover m 1

/-- ACCEPT (R344). -/
def accept (m : Req) (s : State) : State := s.arriveHandover m 2

/-- REFUSE (R344, R345). -/
def refuse (m : Req) (s : State) : State := s.arriveHandover m 3

/-- COMMIT (R345). -/
def commit (m : Req) (s : State) : State := s.arriveHandover m 4

/-- ACK (R346). -/
def ack (m : Req) (s : State) : State := s.arriveHandover m 5

/-- CONFIRM (R347). -/
def confirm (m : Req) (s : State) : State := s.arriveHandover m 6

/-- STEPPED (R348). -/
def stepped (m : Req) (s : State) : State := s.arriveHandover m 7

/-- RELEASED (R347). -/
def released (m : Req) (s : State) : State := s.arriveHandover m 8

/-- RECLAIM (R349). -/
def reclaim (m : Req) (s : State) : State := s.arriveHandover m 9

/-- RECLAIM_ACK (R349). -/
def reclaimAck (m : Req) (s : State) : State := s.arriveHandover m 10

/-- EPOCH_SET (R337). -/
def epochSet (m : Req) (s : State) : State := s.arriveHandover m 11

/-- COVER (R352). -/
def cover (m : Req) (s : State) : State := s.arriveHandover m 12

/-- DROP (R355). -/
def drop (m : Req) (s : State) : State := s.arriveHandover m 13

/-- LOOKUP (R354). -/
def lookup (m : Req) (s : State) : State := s.arriveHandover m 14

/-- LOSS (R356). -/
def loss (m : Req) (s : State) : State := s.arriveHandover m 15

/-- PAGE_OPEN (R335). -/
def pageOpen (m : Req) (s : State) : State := s.arriveHandover m 16

/-- HOLDER_FENCE (R357). -/
def holderFence (m : Req) (s : State) : State := s.arriveHandover m 17

/-- RESERVED_OP_REQUEST (R302): NAKed, discarded and counted. -/
def reservedOpRequest (m : Req) (s : State) : State := if reservedOp m || reservedHeader m then (s.screen m).2 else s

/-! ### Responses and time-outs -/

/-- An errand of the device has its outcome. -/
def State.errandDone (s : State) (e : Errand) (x : Reply) : State :=
  let code := x.done.code
  let p := x.rsp.payload
  match e with
  | .notice => s
  | .exchange id => { s with exchanges := s.exchanges.filter (fun y => y.id != id || x.done.timeout) }
  | .epochSet i req node => s.epochSetDone i req node code
  | .ofOp f id => s.opErrand f id x.done
  | .lookupDemote n => s.lookupDemoted n (if code = 0 then some (wordAt p 16) else none)
  | .lookupAdopt a m => s.adoptAnswer a m (if code = 0 then some (leAt p 8 4, leAt p 24 3) else none)
  | .fence r m => s.rebuildAnswer r m none
  | .lookupSource r m => s.rebuildAnswer r m (if code = 0 then some (leAt p 24 3, leAt p 27 3 % 2 ^ 20) else none)
  | .source r m => s.rebuildFetched r m code (x.done.refused || x.done.timeout) p (x.done.poison || x.void)
  | .pageOpen k _ _ => s.pushOpenAnswer k code x.done.refused
  | .pageWr k key m => s.pushAnswer k key m code x.done.refused (wordAt p 0)
  | .cover k m => s.coverAnswer k m code x.done.refused
  | .deltaOpen d _ =>
    if code = 0 then s else s.modDelta d (fun d => { d with fail := if d.fail = 0 then code else d.fail })
  | .delta d m => s.deltaAnswer d m code

/-- A fabric job has its outcome. -/
def State.jobDone (s : State) (id : Nat) (x : Reply) : State :=
  match Table.find s.jobs id with
  | none => s
  | some (.row f ops) => ops.foldl (fun s o => s.finish f o x.done) (s.endJob id)
  | some (.errand _ e) => (s.endJob id).errandDone e x

/-- An operation in flight has its outcome: it goes to its owner. A pull stays in flight until its last page (R282). -/
def State.deliver (s : State) (o : FabOp) (x : Reply) (why : TagEnd) : State :=
  let t := s.closeFab o.tag why
  match o.owner with
  | .none => t
  | .job id => t.jobDone id x
  | .stream f op => t.replyStream f op x
  | .op f id =>
    match s.op? f id with
    | none => t
    | some a =>
      if a.opc = 0x86 then s.replyPull f a o x else if a.opc = 0x87 then t.replyShip f a o x else t.replyPlain f a o x

/-- A response arrives (R291, R299). -/
def State.receive (s : State) (r : Rsp) : State :=
  let (l, s) := s.answer r
  l.foldl (fun s p => s.deliver p.1 p.2 (if p.1.tag = r.tag then .answered else .silent)) s

/-- LD_RESPONSE (R279, R299). -/
def ldResponse (m : Rsp) (s : State) : State := s.receive { m with op := 0x81 }

/-- The acknowledgements of write-class requests that return nothing or a header. -/
def isWriteAck (op : Nat) : Bool := [0x82, 0x85, 0x88, 0x89, 0x8B, 0x8C, 0x8D].contains op

/-- WRITE_ACK (R291). -/
def writeAck (m : Rsp) (s : State) : State := if isWriteAck m.op then s.receive m else s

/-- ATOM_RESPONSE (R280). -/
def atomResponse (m : Rsp) (s : State) : State := s.receive { m with op := 0x83 }

/-- COPY_RD_RESPONSE (R281). -/
def copyRdResponse (m : Rsp) (s : State) : State := s.receive { m with op := 0x84 }

/-- PAGE_RESPONSE (R282). -/
def pageResponse (m : Rsp) (s : State) : State := s.receive { m with op := 0x86 }

/-- PAGE_WR_ACK (R352, R353). -/
def pageWrAck (m : Rsp) (s : State) : State := s.receive { m with op := 0x8A }

/-- KIND of the HANDOVER message a response answers. -/
def State.answeredKind (s : State) (r : Rsp) : Option Nat :=
  (s.fabOp? r.tag).bind (fun o => if o.req.op = 0x0C then some (leAt o.req.payload 12 1) else none)

/-- EPOCH_SET_ANSWER (R347, R359). -/
def epochSetAnswer (m : Rsp) (s : State) : State := if s.answeredKind m = some 11 then s.receive { m with op := 0x8C } else s

/-- LOOKUP_ANSWER (R354, R359). -/
def lookupAnswer (m : Rsp) (s : State) : State := if s.answeredKind m = some 14 then s.receive { m with op := 0x8C } else s

/-- ENGINE_FENCE_ANSWER (R360). -/
def engineFenceAnswer (p : PortId) (s : State) : State :=
  match s.fabOps.find? (fun o => o.fixed = some p.val && o.req.op = 0x0C && leAt o.req.payload 12 1 = 18) with
  | none => s
  | some o => s.receive { op := 0x8C, src := o.dst, tag := o.tag, arg0 := o.req.seq, port := some p, stamp := s.time }

/-- A write-class request that drew no answer may have left a hole at its receiver: the stream's next request carries
RESYNC (R293, Table 13-11; log entry 21). -/
def State.holeSent (s : State) (o : FabOp) : State :=
  if writeClass o.req.op then s.setTx o.stream { s.txStream o.stream with resync := true } else s

/-- A load, COPY_RD segment or atomic that times out leaves a fault record (R298), a run-ahead one none (R111). -/
def State.lateFault (s : State) (o : FabOp) : State :=
  if (lateReply o).void && !s.ownerRa o.owner then s.faultRecord 0x5C o.req.addr.toNat o.dst o.slice o.req.op else s

/-- FAB_OP_TIMEOUT (R297, R298, Table 13-5): nothing but a deadline that has passed with no answer in time waiting. -/
def fabOpTimeout (id : Nat) (s : State) : State :=
  match s.fabOp? id with
  | none => s
  | some o =>
    let due := match o.deadline with | none => false | some d => d < s.time
    if !due || o.group.isSome || s.answers.any (fun r => r.tag = o.tag && o.inTime r.stamp) then s
    else
      let s := ((s.bump ⟨.fabTimeoutCnt, 0, 0, 0⟩).holeSent o).lateFault o
      match o.owner with
      | .job j =>
        let (ended, t) := (s.closeFab id .late).errandRetry j o
        match Table.find s.jobs j with
        | some (.errand _ _) => if ended then t.jobDone j (lateReply o) else t
        | _ => t.jobDone j (lateReply o)
      | _ => s.deliver o (lateReply o) .late

/-- FAB_RETRY_RESEND (R292): the same request, the same SEQ. -/
def fabRetryResend (id : Nat) (s : State) : State :=
  match s.fabOp? id with
  | none => s
  | some o =>
    match o.resendAt with
    | none => s
    | some t =>
      if s.time < t || !o.again then s
      else
        let s := s.bump ⟨.fabRetryCnt, 0, 0, 0⟩
        (s.modFab id (fun p => { p with resendAt := none, again := false, retries := p.retries + 1 })).dispatch o

/-! ### Walks -/

/-- WALK_LATCH (R73, R75): a pull or push walk answers or drops at once the pages it has nothing to read for. -/
def walkLatch (id : Nat) (s : State) : State :=
  let t := s.tryLatch id
  match s.walk? id, t.walk? id with
  | some v, some w =>
    if v.latched || !w.latched then t
    else
      match w.kind, w.req with
      | .pull, some m => t.pullLatched w m
      | .push, _ => t.pushLatched w
      | _, _ => t
  | _, _ => t

/-- WALK_FRAME_RELEASE (R74): what the walk reads of the frame it reads now, before the frame's count falls. -/
def walkFrameRelease (id : Nat) (frame : Nat) (s : State) : State :=
  match s.walk? id with
  | none => s
  | some w =>
    if !w.latched || !w.held.contains frame || frame = handleFrame w.root then s
    else
      match w.kind, w.req with
      | .pull, some m => s.pullRelease w m frame
      | .push, _ => s.pushRelease w frame
      | _, _ => (s.walkReadFrame w frame).releaseFrame id frame

/-! ### Commands -/

/-- ST_REQUEST (R291). -/
def execStRequest (m : Req) (s : State) : Res := answer (stRequest m s)

/-- COPY_WR (R281). -/
def execCopyWr (m : Req) (s : State) : Res := answer (copyWr m s)

/-- ROW_UPDATE (R261). -/
def execRowUpdate (m : Req) (s : State) : Res := answer (rowUpdate m s)

/-- PAGE_WR (R352). -/
def execPageWr (m : Req) (s : State) : Res := answer (pageWr m s)

/-- ABORT (R189). -/
def execAbort (m : Req) (s : State) : Res := answer (abort m s)

/-- ATOM_ADD (R280). -/
def execAtomAdd (m : Req) (s : State) : Res := answer (atomAdd m s)

/-- ATOM_SMIN (R280). -/
def execAtomSmin (m : Req) (s : State) : Res := answer (atomSmin m s)

/-- ATOM_SMAX (R280). -/
def execAtomSmax (m : Req) (s : State) : Res := answer (atomSmax m s)

/-- ATOM_UMIN (R280). -/
def execAtomUmin (m : Req) (s : State) : Res := answer (atomUmin m s)

/-- ATOM_UMAX (R280). -/
def execAtomUmax (m : Req) (s : State) : Res := answer (atomUmax m s)

/-- ATOM_SWAP (R280). -/
def execAtomSwap (m : Req) (s : State) : Res := answer (atomSwap m s)

/-- ATOM_CAS (R280). -/
def execAtomCas (m : Req) (s : State) : Res := answer (atomCas m s)

/-- ATOM_FADD_FP32 (R280). -/
def execAtomFaddFp32 (m : Req) (s : State) : Res := answer (atomFaddFp32 m s)

/-- ATOM_FADD_BF16 (R280). -/
def execAtomFaddBf16 (m : Req) (s : State) : Res := answer (atomFaddBf16 m s)

/-- NOTIFY_COUNTER (R284). -/
def execNotifyCounter (m : Req) (s : State) : Res := answer (notifyCounter m s)

/-- NOTIFY_SLOT_RELEASE (R284). -/
def execNotifySlotRelease (m : Req) (s : State) : Res := answer (notifySlotRelease m s)

/-- OFFER (R342). -/
def execOffer (m : Req) (s : State) : Res := answer (offer m s)

/-- ACCEPT (R344). -/
def execAccept (m : Req) (s : State) : Res := answer (accept m s)

/-- REFUSE (R344). -/
def execRefuse (m : Req) (s : State) : Res := answer (refuse m s)

/-- COMMIT (R345). -/
def execCommit (m : Req) (s : State) : Res := answer (commit m s)

/-- ACK (R346). -/
def execAck (m : Req) (s : State) : Res := answer (ack m s)

/-- CONFIRM (R347). -/
def execConfirm (m : Req) (s : State) : Res := answer (confirm m s)

/-- STEPPED (R348). -/
def execStepped (m : Req) (s : State) : Res := answer (stepped m s)

/-- RELEASED (R347). -/
def execReleased (m : Req) (s : State) : Res := answer (released m s)

/-- RECLAIM (R349). -/
def execReclaim (m : Req) (s : State) : Res := answer (reclaim m s)

/-- RECLAIM_ACK (R349). -/
def execReclaimAck (m : Req) (s : State) : Res := answer (reclaimAck m s)

/-- EPOCH_SET (R337). -/
def execEpochSet (m : Req) (s : State) : Res := answer (epochSet m s)

/-- COVER (R352). -/
def execCover (m : Req) (s : State) : Res := answer (cover m s)

/-- DROP (R355). -/
def execDrop (m : Req) (s : State) : Res := answer (drop m s)

/-- LOOKUP (R354). -/
def execLookup (m : Req) (s : State) : Res := answer (lookup m s)

/-- LOSS (R356). -/
def execLoss (m : Req) (s : State) : Res := answer (loss m s)

/-- PAGE_OPEN (R335). -/
def execPageOpen (m : Req) (s : State) : Res := answer (pageOpen m s)

/-- HOLDER_FENCE (R357). -/
def execHolderFence (m : Req) (s : State) : Res := answer (holderFence m s)

/-- RESERVED_OP_REQUEST (R302). -/
def execReservedOpRequest (m : Req) (s : State) : Res := answer (reservedOpRequest m s)

/-- LD_RESPONSE (R299). -/
def execLdResponse (m : Rsp) (s : State) : Res := answer (ldResponse m s)

/-- WRITE_ACK (R291). -/
def execWriteAck (m : Rsp) (s : State) : Res := answer (writeAck m s)

/-- ATOM_RESPONSE (R280). -/
def execAtomResponse (m : Rsp) (s : State) : Res := answer (atomResponse m s)

/-- COPY_RD_RESPONSE (R281). -/
def execCopyRdResponse (m : Rsp) (s : State) : Res := answer (copyRdResponse m s)

/-- PAGE_RESPONSE (R282). -/
def execPageResponse (m : Rsp) (s : State) : Res := answer (pageResponse m s)

/-- PAGE_WR_ACK (R352). -/
def execPageWrAck (m : Rsp) (s : State) : Res := answer (pageWrAck m s)

/-- EPOCH_SET_ANSWER (R347). -/
def execEpochSetAnswer (m : Rsp) (s : State) : Res := answer (epochSetAnswer m s)

/-- LOOKUP_ANSWER (R354). -/
def execLookupAnswer (m : Rsp) (s : State) : Res := answer (lookupAnswer m s)

/-- ENGINE_FENCE_ANSWER (R360). -/
def execEngineFenceAnswer (p : PortId) (s : State) : Res := answer (engineFenceAnswer p s)

/-- FAB_OP_TIMEOUT (R297). -/
def execFabOpTimeout (id : Nat) (s : State) : Res := answer (fabOpTimeout id s)

/-- FAB_RETRY_RESEND (R292). -/
def execFabRetryResend (id : Nat) (s : State) : Res := answer (fabRetryResend id s)

/-- WALK_LATCH (R73). -/
def execWalkLatch (id : Nat) (s : State) : Res := answer (walkLatch id s)

/-- WALK_FRAME_RELEASE (R74). -/
def execWalkFrameRelease (id : Nat) (frame : Nat) (s : State) : Res := answer (walkFrameRelease id frame s)

end Sys2Proof.Machine
end

