-- ==== Sys2Proof/Machine/Cancel.lean ====
section
/-! DEFINITION. What ends operations before their time and what ends a program: RA.CANCEL (R112), the end of every
operation of a Furrow that loses its power or its state, END and END.CANCEL (R93), and SHF.COMMIT (R53). -/

namespace Sys2Proof.Machine

/-! ### Taking an operation off the units that serve it -/

/-- Fabric operations of an owner are closed, and responses to them are discarded in silence (R112). -/
def State.silence (s : State) (w : FabOwner) : State :=
  (s.fabOps.filter (fun m => m.owner = w)).foldl (fun s m => s.closeFab m.tag .silent) s

/-- Walks that serve a request of this node's own with one of the tags given end early (R74, R112). -/
def State.endServed (s : State) (tags : List Nat) : State :=
  let ws := s.walks.filter fun w =>
    match w.req with
    | some m => m.port.isNone && m.src = s.node && tags.contains m.tag
    | none => false
  ws.foldl (fun s w => s.walkEnd w.id) s

/-- Walks of an operation of a Furrow's program. -/
def State.endOpWalks (s : State) (f id : Nat) : State :=
  (s.walks.filter (fun w => w.req.isNone && w.furrow = f && w.op = id)).foldl (fun s w => s.walkEnd w.id) s

/-- Every unit forgets an operation: arrays, Winnow and Sieve units, walks, fabric, pushes, adoptions, rebuilds and streams. A
deferred edit stays in its queue and is applied (R78). -/
def State.withdraw (s : State) (f id : Nat) : State :=
  let tags := (s.fabOps.filter (fun m => m.owner = .op f id)).map (·.tag)
  let s := ((s.endServed tags).silence (.op f id)).silence (.stream f id)
  let s := (s.endOpWalks f id).holdBooks (match s.op? f id with | none => [] | some o => o.books) false
  let s := [JobKind.tile, .part, .merge].foldl (fun s k => s.dropJob ⟨k, f, id⟩) s
  let off (q : UnitQueue) : UnitQueue :=
    { queue := q.queue.filter (fun j => !(j.furrow = f && j.op = id)),
      running := q.running.filter (fun j => !(j.furrow = f && j.op = id)) }
  let ps := (s.pushes.filter (fun p => p.2.demote.isNone && p.2.furrow = f && p.2.op = id)).flatMap (fun p => p.2.walks)
  let s := ps.foldl (fun s w => s.walkEnd w) s
  let s := s.modFurrow f (fun r => { r with streams := r.streams.map (fun x => if x.op = id then { x with ended := true } else x) })
  { s with
    winnow := s.winnow.map (fun p => (p.1, off p.2))
    sieve := s.sieve.map (fun p => (p.1, off p.2))
    pushes := s.pushes.filter (fun p => !(p.2.demote.isNone && p.2.furrow = f && p.2.op = id))
    adoptions := s.adoptions.filter (fun p => !(p.2.furrow = f && p.2.op = id))
    rebuilds := s.rebuilds.filter (fun p => !(p.2.furrow = f && p.2.op = id)) }

/-! ### Run-ahead (R110 to R112) -/

/-- A staging frame of a cancelled pull holds undefined bytes (R112): `n` free bytes from `a` on, eight to a draw. -/
def State.freeFill (s : State) (a : Nat) : (words : Nat) → State
  | 0 => s
  | k + 1 =>
    let (w, s) := s.free
    (s.setGword a w).freeFill (a + 8) k

/-- What a cancelled run-ahead action leaves of its destination (R112). -/
def State.cancelDestination (s : State) (f : Nat) (o : AsyncOp) : State :=
  match o.opc with
  | 0x68 => s.modFurrow f (fun r =>
      r.gleanDrop (fun l => l.tag.isNone && o.x.toNat ≤ l.addr && l.addr < o.x.toNat + o.y.toNat))
  | 0x86 =>
    (List.range o.pull.count).foldl (fun s j =>
      match s.pullTarget o.slice (o.pullDest j) with
      | none => s
      | some n => s.freeFill (frameAddr n) 8192) s
  | _ => s

/-- One run-ahead action is cancelled: its counter falls once with CANCELLED (R112). -/
def State.cancel (s : State) (f : Nat) (o : AsyncOp) : State :=
  ((s.cancelDestination f o).withdraw f o.id).finish f o.id { cancelled := true }

/-- Cancel the outstanding run-ahead actions of a Furrow's program that pass a test. -/
def State.cancelAll (s : State) (f : Nat) (p : AsyncOp → Bool) : State :=
  ((s.furrow f).ops.filter (fun o => o.ra && p o)).foldl (fun s o => s.cancel f o) s

/-- RA.CANCEL aX (R112). -/
def opRaCancel : SlotOp :=
  { enc := { opc := 0xD5, x := .a }
    run := fun c s => s.cancelAll c.f (fun o => o.counter = some c.o.x.val) }

/-! ### The end of a program (R93) -/

/-- Held row updates go out and the program waits for its outstanding operations (R93, R260). -/
def State.beginEnd (s : State) (f : Nat) : State := (s.flushRows f).modProg f (fun p => { p with phase := .ending })

/-- END. -/
def opEnd : SlotOp :=
  { enc := { opc := 0x1E }
    run := fun c s => s.beginEnd c.f }

/-- END.CANCEL: the run-ahead actions first (R112). -/
def opEndCancel : SlotOp :=
  { enc := { opc := 0x1F }
    run := fun c s => (s.cancelAll c.f (fun _ => true)).beginEnd c.f }

/-- What R108 does once the outstanding operations have completed: completion word, STOPPED, head and interrupt, the
exception registers, the Reeve's message and interrupt, and a MACHINE_CHECK record. Row updates still held go out first, so
that the operations they belong to can complete (R107, log entry 9). -/
def exceptionComplete (f : FurrowId) (s : State) : State :=
  let n := f.val
  let r := s.furrow n
  match r.prog with
  | none => s
  | some p =>
    match p.phase with
    | .excepting e =>
      if !r.rows.isEmpty then s.flushRows n
      else if r.ops.isEmpty then
        let st : Csr := ⟨.frwExcStatus, n, 0, 0⟩
        let again := s.rdb st 13
        let s := s.setGword (p.addr + 0x38) (completionWord (some e.code) p.issued)
        let s := s.wrf (cq .frwCqCtl n p.queue) 5 5 1
        let s := s.advanceHead n p.queue
        let s := if p.irq then s.assertIrq (n + 1) else s
        let s :=
          if again then s.wrf st 14 14 1
          else
            let w := e.code + e.slot * 2 ^ 8 + p.queue * 2 ^ 11 + 2 ^ 13 + p.tag * 2 ^ 32
            ((s.wr st (BitVec.ofNat 64 (w + (s.rdf st 14 14) * 2 ^ 14))).wr ⟨.frwExcPc, n, 0, 0⟩
              (BitVec.ofNat 64 (e.pc % 4096))).wr ⟨.frwExcInfo, n, 0, 0⟩ e.info
        let s := s.post (n / 16) (excMessage n p e again)
        let s := if e.code = 0x0B then
            s.record 0x05 2 (unitCode (.furrow f)) (toBytes 8 (s.rd st).toNat ++ toBytes 8 e.pc ++ toBytes 8 e.info.toNat)
          else s
        (s.modFurrow n (fun r => { r with prog := none })).offIfDue (.furrow f)
      else s
    | _ => s

/-- A Furrow's outstanding operations are lost with it: no counter falls, and its program ends under R108 if it stands in
an exception. -/
def State.dropOps (s : State) (f : FurrowId) : State :=
  let s := (s.furrow f.val).ops.foldl (fun s o => s.withdraw f.val o.id) s
  exceptionComplete f (s.modFurrow f.val (fun r => { r with ops := [], rows := [] }))

/-! ### SHF.COMMIT (R53 to R58, R260, R347, R386) -/

/-- SHF.COMMIT: the held row updates go out first; a member committed under outcome 7 has taken its first step. -/
def opShfCommit : SlotOp :=
  { enc := { opc := 0xE0, x := .g, y := .g, z := .g, dx := true, ctr := true }
    cls := some .sys
    checks := fun c s => ckCommit s c
    reads := fun c s =>
      let (_, t, ok) := batchHeader (s.hull c.f) (fld c.y 31 0)
      let t := if ok then t else 0
      [(fld c.y 31 0, 8 + 2 * t), (fld c.z 31 0, 512 * t)]
    run := fun c s =>
      let m := s.hull c.f
      let a := fld c.y 31 0
      let (_, t, ok) := batchHeader m a
      let s := s.flushRows c.f
      if ok then
        let ms := batchMembers m a t
        let v := fld c.z 31 0
        let (n, s) := s.commitBatch c.f a v
        let s := ms.zipIdx.foldl (fun s p =>
          if ((s.hull c.f).readNat (v + 512 * p.2) 4).testBit 16 then s.firstStep p.1 else s) s
        c.status 0 n s
      else c.status 0x86 0 s }

/-! ### Commands -/

/-- RA_CANCEL (R112). -/
def execRaCancel (f : FurrowId) (o : Slot) (s : State) : Res := answer (runSlot opRaCancel f o s)

/-- END (R93). -/
def execEnd (f : FurrowId) (o : Slot) (s : State) : Res := answer (runSlot opEnd f o s)

/-- END_CANCEL (R93). -/
def execEndCancel (f : FurrowId) (o : Slot) (s : State) : Res := answer (runSlot opEndCancel f o s)

/-- EXCEPTION_COMPLETE (R108). -/
def execExceptionComplete (f : FurrowId) (s : State) : Res := answer (exceptionComplete f s)

/-- SHF_COMMIT (R53). -/
def execShfCommit (f : FurrowId) (o : Slot) (s : State) : Res := answer (runSlot opShfCommit f o s)

end Sys2Proof.Machine
end

