-- ==== Sys2Proof/Machine/Fec.lean ====
section
/-! DEFINITION. Reed-Solomon codes: those of Table 12-2 with the lanes of a codeword (R305, R308, R309), and that of a Granary line
(R435, R436); log entry 39. -/

namespace Sys2Proof.Machine

/-! ### Reed-Solomon codes -/

/-- A Reed-Solomon code: bits of a symbol, the field polynomial, symbols of a codeword and of its message, and how many wrong
symbols the decoder corrects. -/
structure RsCode where
  bits : Nat
  poly : Nat
  length : Nat
  message : Nat
  limit : Nat
deriving DecidableEq, Repr

/-- Times x, reduced by the field polynomial. -/
def RsCode.twice (k : RsCode) (a : Nat) : Nat := if a < 2 ^ (k.bits - 1) then 2 * a else (2 * a) ^^^ k.poly

/-- Product of two elements, from `n` bits of the second. -/
def RsCode.mulBits (k : RsCode) (a b : Nat) : (n : Nat) → Nat
  | 0 => 0
  | n + 1 => (if b % 2 = 1 then a else 0) ^^^ k.mulBits (k.twice a) (b / 2) n

/-- Product. -/
def RsCode.mul (k : RsCode) (a b : Nat) : Nat := k.mulBits a b k.bits

/-- Power. -/
def RsCode.pow (k : RsCode) (a : Nat) : (n : Nat) → Nat
  | 0 => 1
  | n + 1 => k.mul a (k.pow a n)

/-- Inverse of an element other than 0: its power 2^bits - 2, by squares. -/
def RsCode.inv (k : RsCode) (a : Nat) : Nat :=
  ((List.range (k.bits - 1)).foldl (fun (p : Nat × Nat) _ => let q := k.mul p.1 p.1; (q, k.mul p.2 q)) (a, 1)).2

/-- The primitive element to the n-th power. -/
def RsCode.alpha (k : RsCode) (n : Nat) : Nat := k.pow 2 (n % (2 ^ k.bits - 1))

/-- Value of a polynomial, lowest coefficient first. -/
def RsCode.polyAt (k : RsCode) (x : Nat) : List Nat → Nat
  | [] => 0
  | c :: t => c ^^^ k.mul x (k.polyAt x t)

/-- Sum of two polynomials. -/
def polyAdd : List Nat → List Nat → List Nat
  | [], b => b
  | a, [] => a
  | x :: a, y :: b => (x ^^^ y) :: polyAdd a b

/-- A polynomial times a constant and x^m. -/
def RsCode.polyScale (k : RsCode) (c m : Nat) (a : List Nat) : List Nat := List.replicate m 0 ++ a.map (k.mul c)

/-- Product of two polynomials. -/
def RsCode.polyMul (k : RsCode) : List Nat → List Nat → List Nat
  | [], _ => []
  | x :: a, b => polyAdd (b.map (k.mul x)) (0 :: k.polyMul a b)

/-- Check symbols of a codeword. -/
def RsCode.checks (k : RsCode) : Nat := k.length - k.message

/-- The generator with the roots α^0 to α^(r-1), lowest coefficient first. -/
def RsCode.generator (k : RsCode) : List Nat := (List.range k.checks).foldl (fun g j => k.polyMul g [k.alpha j, 1]) [1]

/-- The check symbols of a message, both highest coefficient first: the remainder of m(x) x^r by the generator. -/
def RsCode.check (k : RsCode) (msg : List Nat) : List Nat :=
  let g := (k.generator.take k.checks).reverse
  msg.foldl (fun rem m =>
    let f := (rem.headD 0) ^^^ m
    polyAdd (rem.drop 1 ++ [0]) (g.map (k.mul f))) (List.replicate k.checks 0)

/-- A codeword: its message, then the check symbols. -/
def RsCode.encode (k : RsCode) (msg : List Nat) : List Nat := msg ++ k.check msg

/-- Syndromes of a received word: its values at the roots. -/
def RsCode.syndromes (k : RsCode) (w : List Nat) : List Nat := (List.range k.checks).map (fun j => k.polyAt (k.alpha j) w.reverse)

/-- The Berlekamp-Massey recurrence: locator, its predecessor, length, gap and last discrepancy. -/
structure Locator where
  c : List Nat := [1]
  b : List Nat := [1]
  len : Nat := 0
  gap : Nat := 1
  last : Nat := 1

/-- One syndrome more. -/
def Locator.step (x : Locator) (k : RsCode) (syn : List Nat) (n : Nat) : Locator :=
  let d := (List.range (x.len + 1)).foldl (fun d i => d ^^^ k.mul (x.c.getD i 0) (if i ≤ n then syn.getD (n - i) 0 else 0)) 0
  if d = 0 then { x with gap := x.gap + 1 }
  else
    let c := polyAdd x.c (k.polyScale (k.mul d (k.inv x.last)) x.gap x.b)
    if 2 * x.len ≤ n then ⟨c, x.c, n + 1 - x.len, 1, d⟩ else { x with c, gap := x.gap + 1 }

/-- The error at place i of a received word (Forney), 0 where the locator has no root for it. -/
def RsCode.errorAt (k : RsCode) (locator omega : List Nat) (i : Nat) : Nat :=
  let x := k.alpha (k.length - 1 - i)
  let y := k.inv x
  if k.polyAt y locator != 0 then 0
  else
    let slope := k.polyAt y ((locator.drop 1).zipIdx.map (fun p => if p.2 % 2 = 0 then p.1 else 0))
    k.mul x (k.mul (k.polyAt y omega) (k.inv slope))

/-- The decoder: the codeword that differs from a received word in at most `limit` symbols, with the places it corrects; none
beyond the limit. -/
def RsCode.decode (k : RsCode) (w : List Nat) : Option (List Nat × List Nat) :=
  let syn := k.syndromes w
  if syn.all (· == 0) then some (w, [])
  else
    let l := (List.range syn.length).foldl (fun x n => Locator.step x k syn n) {}
    let omega := (k.polyMul syn l.c).take syn.length
    let errors := (List.range w.length).map (k.errorAt l.c omega)
    let v := List.zipWith (· ^^^ ·) w errors
    let places := (errors.zipIdx.filter (fun p => p.1 != 0)).map (·.2)
    if places.length ≤ k.limit && (k.syndromes v).all (· == 0) then some (v, places) else none

/-- The codes of Table 12-2, over GF(2^10) with x^10 + x^3 + 1: RS(544,514), or RS(272,257) in low-latency mode. -/
def fecCode (low : Bool) : RsCode := if low then ⟨10, 0x409, 272, 257, 7⟩ else ⟨10, 0x409, 544, 514, 15⟩

/-- The code of a Granary line (R435): RS(72,64) over GF(2^8), of which the decoder corrects 3 symbols. -/
def granaryCode : RsCode := ⟨8, 0x11D, 72, 64, 3⟩

/-! ### A Granary line as symbols (R435, R436) -/

/-- The 64 data symbols of a line: symbol i holds pins 2i and 2i + 1 in each of the four beats of 16 bytes (log entry 39). -/
def lineSymbols (bs : List Byte) : List Nat :=
  let pin (beat p : Nat) : Nat := bitVal ((bs.getD (16 * beat + p / 8) 0).getLsbD (p % 8)) 0
  (List.range 64).map (fun i => ((List.range 4).map (fun b => (pin b (2 * i) + 2 * pin b (2 * i + 1)) * 4 ^ b)).sum)

/-- The line that 64 data symbols hold. -/
def symbolLine (l : List Nat) : List Byte :=
  (List.range 64).map (fun j =>
    BitVec.ofNat 8 ((List.range 8).map (fun p =>
      let q := j % 16 * 8 + p
      bitVal ((l.getD (q / 2) 0).testBit (2 * (j / 16) + q % 2)) p)).sum)

/-- The poison codeword: every data byte 0xFF, the check symbols complemented. -/
def poisonWord : List Nat :=
  let d := List.replicate 64 0xFF
  d ++ (granaryCode.check d).map (· ^^^ 0xFF)

/-! ### Lanes (R305) -/

/-- A codeword over `width` logical lanes: symbols go round-robin from lane 0. -/
def toLanes (width : Nat) (w : List Nat) : List (List Nat) :=
  (List.range width).map (fun j => (w.zipIdx.filter (fun p => p.2 % width = j)).map (·.1))

/-- The codeword of n symbols that lanes bring. -/
def fromLanes (n : Nat) (lanes : List (List Nat)) : List Nat :=
  (List.range n).map (fun i => (lanes.getD (i % lanes.length) []).getD (i / lanes.length) 0)

/-- Lanes whose arrival differs by at most 80 ns are deskewed. -/
def deskewed (skews : List Nat) : Bool := skews.all (fun a => skews.all (fun b => a ≤ b + 80))

/-! ### Flits in codewords -/

/-- Bits of a number, lowest first. -/
def bitsOf (n v : Nat) : List Bool := (List.range n).map v.testBit

/-- The number that bits make, lowest first. -/
def ofBits : List Bool → Nat
  | [] => 0
  | b :: t => (if b then 1 else 0) + 2 * ofBits t

/-- A list in pieces of `n`, the last one filled up with `z`. -/
def pieces {α : Type} (n : Nat) (z : α) : (fuel : Nat) → List α → List (List α)
  | 0, _ => []
  | k + 1, l =>
    if l.isEmpty then []
    else (l.take n ++ List.replicate (n - l.length) z) :: pieces n z k (l.drop n)

/-- The codewords that carry a run of flits: the flits' bits in order, in the message symbols (log entry 39). -/
def codewordsOf (low : Bool) (flits : List (List Byte)) : List (List Nat) :=
  let bits := flits.flatMap (fun f => f.flatMap (fun b => bitsOf 8 b.toNat))
  let syms := (pieces 10 false bits.length bits).map ofBits
  (pieces (fecCode low).message 0 syms.length syms).map (fecCode low).encode

/-- The message bits of a codeword. -/
def codewordBits (low : Bool) (w : List Nat) : List Bool := (w.take (fecCode low).message).flatMap (bitsOf 10)

end Sys2Proof.Machine
end

