-- ==== Sys2Proof/Machine/Ports.lean ====
section
/-! DEFINITION. A port above and below its link layer: training, wavelengths, lanes and laser feed, and the egress scheduler
with its shapers (R304 to R309, R319 to R325, R327 to R333; log entry 27). -/

namespace Sys2Proof.Machine

/-! ### States of training (R319, Tables 12-5 and 12-6) -/

/-- A field of PRT_CTL_p. -/
def State.portCtl (s : State) (p i : Nat) : Bool := s.rdb ⟨.prtCtl, p, 0, 0⟩ i

/-- Training fails: the port is FAILED with a reason. One that AUTO will not start again is a unit fault (Tables 15-10 and
15-14). -/
def State.trainFail (s : State) (p reason : Nat) : State :=
  let s := (s.portGo p 7 reason).modPort p (fun x => { x with failures := x.failures + 1, dropped := true })
  if s.portCtl p 3 && (s.port p).failures < 3 then s else s.post (p / 6) (2 + (0x200 + p) * 2 ^ 8 + 3 * 2 ^ 24)

/-- A port goes OFF: its domain or EN has gone; what it queued is lost (R21, R322). -/
def State.portOff (s : State) (p reason : Nat) : State :=
  if s.portState p = 0 then s
  else (s.portGo p 0 reason).modPort p (fun x => { x with dropped := true, queue := [], waiting := [], partialPkt := [] })

/-- EN set with the domain on: FEED_CHECK. A port stays OFF while it is fenced (Table 15-7) or the node ID has not been
written (R497). -/
def State.portStart (s : State) (p reason : Nat) : State :=
  if s.portState p = 0 && s.portCtl p 0 && s.domainOn (72 + p) && s.rdb ⟨.chpNodeId, 0, 0, 0⟩ 14 &&
      !s.fenced (.port (Fin.ofNat 24 p)) then s.portGo p 1 reason else s

/-- PORT_ENABLE. -/
def portEnable (p : PortId) (s : State) : State := (s.wrf ⟨.prtCtl, p.val, 0, 0⟩ 0 0 1).portStart p.val 1

/-- PORT_DISABLE. -/
def portDisable (p : PortId) (s : State) : State := (s.wrf ⟨.prtCtl, p.val, 0, 0⟩ 0 0 0).portOff p.val 0

/-- PORT_RETRAIN: an ACTIVE port retrains, a FAILED one starts again; either counts (R319). -/
def portRetrain (p : PortId) (s : State) : State :=
  if s.portState p.val = 7 then
    ((s.portGo p.val 1 2).modPort p.val (fun x => { x with failures := 0 })).bump ⟨.prtRetrainCnt, p.val, 0, 0⟩
  else s.retrain p.val 2

/-- FEED_CHECK_COMPLETE (R319): a wavelength passes at or above ALARM. -/
def feedCheckComplete (p : PortId) (power : List Nat) (s : State) : State :=
  let q := p.val
  if s.portState q != 1 then s
  else
    let s := (List.range 9).foldl (fun s k => s.wr ⟨.prtFeedPwr, q, k, 0⟩ (BitVec.ofNat 64 (power.getD k 0 % 65536))) s
    let alarm := s.rdf ⟨.prtFeedTh, q, 0, 0⟩ 31 16
    let good := ((List.range 9).filter (fun k => alarm ≤ power.getD k 0)).length
    if (if s.portCtl q 2 then 4 else 8) ≤ good then s.portGo q 2 0 else s.trainFail q 3

/-- The wavelengths of the lanes of a direction, and the spare, from those that passed training: lane j keeps λj where it
can; at half width the first four (R304, R307). None where there are too few. -/
def laneChoice (good : List Nat) (half : Bool) : Option (List Nat × Nat) :=
  if 8 ≤ good.length then
    let miss := (List.range 8).filter (fun j => !good.contains j)
    some ((List.range 8).map (fun j => if miss.contains j then 8 else j), if miss.isEmpty && good.contains 8 then 8 else 15)
  else if half && 4 ≤ good.length then
    some (good.take 4 ++ [15, 15, 15, 15], (good[4]?).getD 15)
  else none

/-- A lane map as PRT_LANE_MAP holds it. -/
def laneMapWord (lanes : List Nat) (spare : Nat) : Word :=
  BitVec.ofNat 64 ((lanes.zipIdx.map (fun p => p.1 * 2 ^ (4 * p.2))).sum + spare * 2 ^ 32)

/-- PHY_TRAIN_COMPLETE (R307, R319): nothing that locks is LOCK_FAIL, too few wavelengths WIDTH_FAIL. `peerHalf` is the
partner's HALF_OK, which the lane control channel brings. -/
def phyTrainComplete (p : PortId) (tx rx : List Bool) (peerHalf : Bool) (s : State) : State :=
  let q := p.val
  if s.portState q != 2 then s
  else
    let half := s.portCtl q 2 && peerHalf
    let good (l : List Bool) : List Nat := (List.range 9).filter (fun k => l.getD k false)
    let s := s.wrf ⟨.prtLaneStatus, q, 0, 0⟩ 26 0
      (((List.range 9).map (fun k => (if rx.getD k false then 1 else 4) * 2 ^ (3 * k))).sum)
    if (good tx).isEmpty || (good rx).isEmpty then s.trainFail q 4
    else
      match laneChoice (good tx) half, laneChoice (good rx) half with
      | some t, some r =>
        let s := s.wr ⟨.prtLaneMap, q, 0, 0⟩ (laneMapWord r.1 r.2)
        let s := s.wrf ⟨.prtStatus, q, 0, 0⟩ 12 12 (if (good rx).length < 8 then 1 else 0)
        let s := s.modPort q (fun x =>
          { x with coefficients := true, txMap := (t.1.zipIdx.map (fun (a, j) => (j, a))) ++ [(8, t.2)] })
        s.portGo q 3 0
      | _, _ => s.trainFail q 8

/-- ALIGN_COMPLETE. -/
def alignComplete (p : PortId) (ok : Bool) (s : State) : State :=
  if s.portState p.val != 3 then s else if ok then s.portGo p.val 4 0 else s.trainFail p.val 5

/-- The INIT this end sends (Table 12-4): node, role, FEC mode, receive width, RX_NEXT, credits, incarnation. -/
def State.initBody (s : State) (p : Nat) : List Byte :=
  toBytes 8 (s.node + bitVal (s.port p).lowFec 15 + bitVal (s.rdb ⟨.prtStatus, p, 0, 0⟩ 12) 16 + (s.port p).expect * 2 ^ 17 +
    512 * 2 ^ 29 + (s.port p).incarnation * 2 ^ 39)

/-- INIT_SEND_TIMER. -/
def initSendTimer (p : PortId) (s : State) : State :=
  if s.portState p.val = 4 then s.sendCtrl p.val 1 (s.initBody p.val) else s

/-- Training ends: counts start again; the replay buffer is resent from the partner's RX_NEXT where the partner is the same
and nothing was dropped, else discarded (R315, R321). The port is in service again (R303). -/
def State.portActive (s : State) (p node incarnation rxNext : Nat) : State :=
  let x := s.port p
  let same := x.peerIncarnation = some (node, incarnation) && !x.dropped
  let other := match x.peerIncarnation with | none => false | some q => q.1 != node
  let y : Port :=
    { x with sent := [], freedByPeer := [], received := [], freed := [], toAck := 0, nakSince := none, nakRun := (0, 0),
             peerIncarnation := some (node, incarnation), failures := 0, dropped := false, violations := [], offset := none }
  let y := if same then y.acked ((rxNext + 4095) % 4096)
    else { y with replay := [], nextFseq := rxNext, partialPkt := [] }
  let y := if same && !y.replay.isEmpty then { y.put y.replay with sent := y.replay.foldl (fun t f => Table.set t f.vc (Table.get 0 t f.vc + 1)) [] } else y
  let s := (s.modPort p (fun _ => y)).wrf ⟨.prtPvStatus, p, 0, 0⟩ 0 0 0
  let s := (List.range 8).foldl (fun s v => s.showCredit p v) s
  s.portGo p 5 (if other then 0x0E else 0)

/-- CTRL_INIT (R320, R321): the partner's node ID and role are recorded whatever comes of it. -/
def ctrlInit (p : PortId) (payload : List Byte) (s : State) : State :=
  let q := p.val
  let w := leAt payload 0 8
  let st : Csr := ⟨.prtStatus, q, 0, 0⟩
  if s.portState q != 4 then s
  else
    let s := (s.wrf st 27 14 (bits w 13 0)).wrf st 28 28 (bits w 14 14)
    if w.testBit 15 != (s.port q).lowFec then s.trainFail q 6
    else if w.testBit 14 != s.hasEngine q then s.trainFail q 7
    else
    let s := s.sendCtrl q 1 (s.initBody q)
    let s := s.wrf st 11 11 (bits w 16 16)
    s.portActive q (bits w 13 0) (bits w 54 39) (bits w 28 17)

/-- Time limit of a training state in ns, and the reason for failing it (Table 12-5). -/
def State.trainLimit (s : State) (p : Nat) : Option (Nat × Nat) :=
  match s.portState p with
  | 1 => some (100000, 3)
  | 2 => some (if (s.port p).coefficients then 200000 else 1500000, 4)
  | 3 => some (20000, 5)
  | 4 => some (10000, 9)
  | _ => none

/-- Time since a port's last transition. -/
def State.portAge (s : State) (p : Nat) : Nat := s.time - (s.rd ⟨.prtStatusTime, p, 0, 0⟩).toNat

/-- TRAINING_TIMEOUT. -/
def trainingTimeout (p : PortId) (s : State) : State :=
  match s.trainLimit p.val with
  | none => s
  | some (t, reason) => if t ≤ s.portAge p.val then s.trainFail p.val reason else s

/-- QUARANTINE_END. -/
def quarantineEnd (p : PortId) (s : State) : State :=
  if s.portState p.val = 6 && 10000 ≤ s.portAge p.val then s.portGo p.val 2 0 else s

/-- FAILED_AUTO_RETRY: not after three failures in a row. -/
def failedAutoRetry (p : PortId) (s : State) : State :=
  if s.portState p.val = 7 && s.portCtl p.val 3 && (s.port p.val).failures < 3 && 100000000 ≤ s.portAge p.val then
    s.portGo p.val 1 0
  else s

/-! ### Wavelengths and laser feed (R306, R323 to R325) -/

/-- A PORT record of a remap or a feed warning. -/
def State.portRecord (s : State) (p what k : Nat) : State := s.record 0x0A 1 (0x200 + p) (toBytes 8 what ++ toBytes 8 k)

/-- Logical lanes of a direction: `b` is TX_HALF or RX_HALF of PRT_STATUS (R307). -/
def State.lanes (s : State) (p b : Nat) : Nat := if s.rdb ⟨.prtStatus, p, 0, 0⟩ b then 4 else 8

/-- A receiver declares a wavelength failed: its lane moves to the spare, or with no spare the port retrains (R306,
R307). -/
def State.waveFailed (s : State) (p k : Nat) : State :=
  let map : Csr := ⟨.prtLaneMap, p, 0, 0⟩
  let s := s.wrf ⟨.prtLaneStatus, p, 0, 0⟩ (3 * k + 2) (3 * k + 2) 1
  if s.portState p != 5 then s
  else
    let spare := s.rdf map 35 32
    if spare = k then s.wrf map 35 32 15
    else
      match firstBelow 8 (fun j => s.rdf map (4 * j + 3) (4 * j) = k) with
      | none => s
      | some j =>
        if spare = 15 then s.retrain p 0x0C
        else
          let s := ((s.wrf map (4 * j + 3) (4 * j) spare).wrf map 35 32 15).bump ⟨.prtRemapCnt, p, 0, 0⟩
          (s.modPort p (fun x => { x with laneAsk := some (j, spare), askLanes := List.range (s.lanes p 11) })).portRecord p 1 j

/-- WAVELENGTH_FAIL (R306, R323): a wavelength loses its LOCK, shows SER_HIGH above 2 × 10^-4, or cannot be kept within margin. -/
def wavelengthFail (p : PortId) (k : Fin 9) (fault : WaveFault) (s : State) : State :=
  let st : Csr := ⟨.prtLaneStatus, p.val, 0, 0⟩
  match fault with
  | .lockLost => (s.wrf st (3 * k.val) (3 * k.val) 0).waveFailed p.val k.val
  | .symbolErrors errors symbols =>
    if 2 * symbols < 10000 * errors then (s.wrf st (3 * k.val + 1) (3 * k.val + 1) 1).waveFailed p.val k.val
    else s.wrf st (3 * k.val + 1) (3 * k.val + 1) 0
  | .margin => s.waveFailed p.val k.val

/-- LANE_REMAP_REQUEST (R305, R306): the transmit direction moves a lane to its spare, where the control channel of any lane of
the receive direction brings the request. -/
def laneRemapRequest (p : PortId) (lane : Fin 8) (heard : List Bool) (s : State) : State :=
  let x := s.port p.val
  let spare := Table.get 8 x.txMap 8
  if s.portState p.val != 5 || spare = 15 || !(heard.take (s.lanes p.val 12)).any id then s
  else
    let s := s.modPort p.val (fun x => { x with txMap := Table.set (Table.set x.txMap lane.val spare) 8 15 })
    (s.bump ⟨.prtRemapCnt, p.val, 0, 0⟩).portRecord p.val 2 lane.val

/-- RING_TUNING (R323): it disturbs nothing. -/
def ringTuning (p : PortId) (s : State) : State :=
  if s.portState p.val = 5 then s.modPort p.val (fun x => { x with tunedAt := s.time }) else s

/-- One wavelength's measurement (R324, R325). -/
def State.measureFeed (s : State) (p k power : Nat) : State :=
  let th : Csr := ⟨.prtFeedTh, p, 0, 0⟩
  let st : Csr := ⟨.prtLaneStatus, p, 0, 0⟩
  let x := s.port p
  let warn := if power < s.rdf th 15 0 then Table.get 0 x.feedWarn k + 1 else 0
  let low := if power < s.rdf th 31 16 then Table.get 0 x.feedLow k + 1 else 0
  let s := (s.wr ⟨.prtFeedPwr, p, k, 0⟩ (BitVec.ofNat 64 (power % 65536))).modPort p (fun x =>
    { x with feedWarn := Table.set x.feedWarn k (min warn 3), feedLow := Table.set x.feedLow k (min low 3) })
  let s :=
    if 3 ≤ warn then if s.rdb st (27 + k) then s else (s.wrf st (27 + k) (27 + k) 1).portRecord p 3 k
    else if s.rdf th 15 0 < power then s.wrf st (27 + k) (27 + k) 0
    else s
  if low = 3 then s.waveFailed p k else s

/-- FEED_MEASURE (R324, R325). -/
def feedMeasure (p : PortId) (power : List Nat) (s : State) : State :=
  if s.portState p.val = 0 then s
  else (List.range 9).foldl (fun s k => s.measureFeed p.val k (power.getD k 0)) s

/-! ### Shapers and policers (R331 to R333) -/

/-- A shaper's level brought up to date. -/
def State.shaper (s : State) (p sl : Nat) : Bucket := (Table.get {} (s.port p).shapers sl).fill (s.rd ⟨.shpCfg, p, sl, 0⟩) s.time

/-- A packet of a slice conforms; EN with RATE 0 stops the slice. -/
def State.conforms (s : State) (p sl : Nat) : Bool :=
  let cfg := s.rd ⟨.shpCfg, p, sl, 0⟩
  !cfg.getLsbD 48 || (fld cfg 16 0 != 0 && decide (0 ≤ (s.shaper p sl).level))

/-- The bucket after a write: full when FILL is set in it, else empty (R332). -/
def freshBucket (v : Word) (now : Nat) : Bucket := ⟨if v.getLsbD 49 then ((fld v 39 17 * 1000 : Nat) : Int) else 0, now⟩

/-- A write that a shaper or policer takes. -/
def bucketWriteOk (v : Word) : Bool := fld v 16 0 ≤ 128000 && 4480 ≤ fld v 39 17

/-- SHP_CFG_p_s is written (R332). -/
def State.writeShaper (s : State) (p sl : Nat) (v : Word) : State :=
  if bucketWriteOk v then
    (s.wr ⟨.shpCfg, p, sl, 0⟩ (v &&& 0x1FFFFFFFFFFFF)).modPort p (fun x =>
      { x with shapers := Table.set x.shapers sl (freshBucket v s.time) })
  else s

/-- PRT_POL_p_s is written (R333). -/
def State.writePolicer (s : State) (p sl : Nat) (v : Word) : State :=
  if bucketWriteOk v then
    (s.wr ⟨.prtPol, p, sl, 0⟩ (v &&& 0x5FFFFFFFFFFFF)).modPort p (fun x =>
      { x with policers := Table.set x.policers sl (freshBucket v s.time) })
  else s

/-! ### The egress scheduler (R315, R327 to R330) -/

/-- a ≤ b, compared modulo 2^48. -/
def tagLe (a b : Nat) : Bool := (b + 2 ^ 48 - a % 2 ^ 48) % 2 ^ 48 < 2 ^ 47

/-- The later of two tags. -/
def tagMax (a b : Nat) : Nat := if tagLe a b then b else a

/-- The head packet of a sub-queue. -/
def Port.headOf (x : Port) (c sl : Nat) : Option Packet := x.queue.find? (fun k => k.vc = c && k.slice = sl)

/-- The first conforming sub-queue of a class whose head has credit, in ascending slice number after the slice served last
(R327). The replay buffer must hold its flits (R316). -/
def State.subQueue (s : State) (p c : Nat) : Option Packet :=
  let x := s.port p
  let last := Table.get 63 x.served c
  ((List.range 64).map (fun k => (last + 1 + k) % 64)).findSome? fun sl =>
    match x.headOf c sl with
    | none => none
    | some k => if s.conforms p sl && k.nflit ≤ x.credit c && x.replay.length + k.nflit ≤ 2048 then some k else none

/-- Flits of class 7 among the last 4,096 sent. -/
def Port.recent7 (x : Port) : Nat := (x.recent.map (fun p => if p.2 then p.1 else 0)).sum

/-- The newest packets that make up 4,096 flits. -/
def keepRecent : Nat → List (Nat × Bool) → List (Nat × Bool)
  | _, [] => []
  | n, (k, b) :: t => if n = 0 then [] else (min k n, b) :: keepRecent (n - min k n) t

/-- The class with the smallest start tag, the higher number on a tie (R328). -/
def Port.firstClass (x : Port) : List Nat → Option Nat
  | [] => none
  | c :: t =>
    match x.firstClass t with
    | none => some c
    | some d =>
      let a := Table.get 0 x.start c
      let b := Table.get 0 x.start d
      if a = b then some (max c d) else if tagLe a b then some c else some d

/-- The flits of a packet, numbered from the next FSEQ. -/
def Port.flitsOf (x : Port) (k : Packet) : List Flit :=
  let bytes := k.header ++ k.payload
  (List.range k.nflit).map fun i =>
    let base : Flit := { kind := if i = 0 then 1 else 2, vc := k.vc, fseq := (x.nextFseq + i) % 4096, body := (bytes.drop (112 * i)).take 112 }
    if i = 0 then { base with nflit := k.nflit, last := k.last, segoff := k.segoff } else base

/-- Tags after a packet of L flits of a class (R328). -/
def Port.tagged (x : Port) (c flits weight : Nat) (byTag more : Bool) : Port :=
  let st := Table.get 0 x.start c
  let v := if byTag then st else x.vtime
  let fin := (st + ceilDiv (65536 * flits) weight) % 2 ^ 48
  { x with vtime := v, finish := Table.set x.finish c fin, start := if more then Table.set x.start c (tagMax fin v) else x.start }

/-- The largest finish tag of all classes (R328). -/
def Port.lastFinish (x : Port) : Nat := (List.range 8).foldl (fun m c => tagMax m (Table.get 0 x.finish c)) (Table.get 0 x.finish 0)

/-- The chosen packet leaves: it is charged, its flits are numbered, kept for replay and put on the fibre. -/
def State.sendPacket (s : State) (p : Nat) (k : Packet) (byTag : Bool) : State :=
  let x := s.port p
  let w := s.rdf ⟨.prtSched, p, 0, 0⟩ (8 * k.vc + 7) (8 * k.vc)
  let fs := x.flitsOf k
  let queue := x.queue.erase k
  let x := { x with queue }.tagged k.vc k.nflit (max 1 w) byTag (queue.any (fun q => q.vc = k.vc))
  let x := if queue.isEmpty then { x with vtime := x.lastFinish } else x
  let b := (s.shaper p k.slice).charge (s.rd ⟨.shpCfg, p, k.slice, 0⟩) k.nflit 1
  let x := { x with served := Table.set x.served k.vc k.slice, recent := keepRecent 4096 ((k.nflit, k.vc = 7) :: x.recent),
                    sent := Table.set x.sent k.vc ((Table.get 0 x.sent k.vc + k.nflit) % 4096),
                    nextFseq := (x.nextFseq + k.nflit) % 4096, replay := x.replay ++ fs,
                    awake := x.awake.filter (fun c => queue.any (fun q => q.vc = c)),
                    shapers := if s.rdb ⟨.shpCfg, p, k.slice, 0⟩ 48 then Table.set x.shapers k.slice b else x.shapers }
  ((s.modPort p (fun _ => x.put fs)).showCredit p k.vc).meter k.slice 6 (128 * k.nflit)

/-- A quarantine that waited takes effect once no NAK is left to send (R303). -/
def State.quarantineIfDue (s : State) (p : Nat) : State :=
  if (s.port p).quarantineDue && !(s.port p).naks then s.quarantineNow p else s

/-- EGRESS_SCHEDULE (R327 to R330): a class that wakes starts at the virtual time, then the choice is made. With nothing to send
the port sends CREDIT (R315). A port about to be quarantined sends class 7 alone (R303). -/
def egressSchedule (p : PortId) (s : State) : State :=
  let q := p.val
  if !s.portUsable q then s
  else
    let elig := (List.range 8).filter (fun c => (c = 7 || !(s.port q).quarantineDue) && (s.subQueue q c).isSome)
    let s := s.modPort q (fun x =>
      { (elig.filter (fun c => !x.awake.contains c)).foldl (fun (y : Port) c =>
          { y with start := Table.set y.start c (tagMax y.vtime (Table.get 0 y.finish c)) }) x with awake := elig })
    let x := s.port q
    let strict := s.rdb ⟨.prtSchedCtl, q, 0, 0⟩ 0 && elig.contains 7 && x.recent7 < 512
    match (if strict then some 7 else x.firstClass elig) with
    | none => s.sendCredit q
    | some c =>
      match s.subQueue q c with
      | none => s
      | some k => (s.sendPacket q k !strict).quarantineIfDue q

/-! ### What leaves on the lanes (R305, R308) -/

/-- The symbols that a port's last sending puts on each of its logical lanes. -/
def State.onLanes (s : State) (p : Nat) : List (List Nat) :=
  let w := s.lanes p 11
  let cs := (codewordsOf (s.port p).lowFec (s.port p).line).map (toLanes w)
  (List.range w).map (fun j => cs.flatMap (fun c => c.getD j []))

/-! ### FLIT_RECEIVE -/

/-- A CTRL flit (Table 12-4). -/
def State.ctrlReceive (s : State) (p : PortId) (f : Flit) : State :=
  let b := f.body.drop 1
  match leAt f.body 0 1 with
  | 1 => ctrlInit p b s
  | 2 => ctrlAck p b s
  | 3 => ctrlNak p b s
  | 4 => ctrlCredit p b s
  | 5 => beacon p b s
  | 6 => beaconReply p b s
  | _ => s.bump ⟨.prtLinkErrCnt, p.val, 0, 0⟩

/-- A flit that the decoder passes upward (R310, R314 to R316): data flits only while ACTIVE and not about to be quarantined. -/
def State.flitIn (s : State) (p : PortId) (flit : List Byte) : State :=
  let q := p.val
  let st := s.portState q
  if st != 4 && st != 5 then s
  else if !crcOk flit then
    let s := s.bump ⟨.prtCrcCnt, q, 0, 0⟩
    if st = 5 && (s.port q).nakSince.isNone then s.sendNak q else s
  else if flitReserved flit then s.bump ⟨.prtLinkErrCnt, q, 0, 0⟩
  else
    let f := flitOf flit
    let s := if st = 5 then s.flitReports q f else s
    let s :=
      match f.kind with
      | 0 => s
      | 3 => s.ctrlReceive p f
      | _ =>
        if st != 5 || (s.port q).quarantineDue then s
        else if f.fseq = (s.port q).expect then s.dataFlit p f
        else if (s.port q).nakSince.isSome then s
        else s.sendNak q
    s.unblock p

/-- Whole flits leave the bits received; one that a discarded codeword touches is lost (R309). -/
def State.flitsOut (s : State) (p : PortId) : (fuel : Nat) → State
  | 0 => s
  | k + 1 =>
    let bits := (s.port p.val).rxBits
    if bits.length < 1024 then s
    else
      let s := s.modPort p.val (fun x => { x with rxBits := bits.drop 1024 })
      let fl := bits.take 1024
      let s := if fl.all Option.isSome then s.flitIn p (toBytes 128 (ofBits (fl.filterMap id))) else s
      s.flitsOut p k

/-- A codeword arrives on the lanes of an aligned port: deskewed, reassembled and decoded in the mode in effect, counted, its bits
passed on or lost (R305, R308, R309). -/
def State.codewordIn (s : State) (p : PortId) (lanes : List (Nat × List (BitVec 10))) : State :=
  let q := p.val
  let low := (s.port q).lowFec
  let w := fromLanes (fecCode low).length (lanes.map (fun l => l.2.map BitVec.toNat))
  match (if deskewed (lanes.map Prod.fst) then (fecCode low).decode w else none) with
  | none =>
    ((s.bump ⟨.prtFecUncorrCnt, q, 0, 0⟩).modPort q (fun x =>
      { x with rxBits := x.rxBits ++ List.replicate (10 * (fecCode low).message) none })).flitsOut p 6
  | some (v, places) =>
    ((s.bumpIf (!places.isEmpty) ⟨.prtFecCorrCnt, q, 0, 0⟩).modPort q (fun x =>
      { x with rxBits := x.rxBits ++ (codewordBits low v).map some })).flitsOut p 6

/-- FLIT_RECEIVE (R305, R309, R310, R314 to R316): a port takes nothing in before alignment. -/
def flitReceive (p : PortId) (what : Received) (s : State) : State :=
  match what with
  | .flit bytes => s.flitIn p bytes
  | .codeword lanes => if s.portState p.val = 4 || s.portState p.val = 5 || s.portState p.val = 6 then s.codewordIn p lanes else s

/-! ### Commands -/

/-- PORT_ENABLE (R319). -/
def execPortEnable (p : PortId) (s : State) : Res := answer (portEnable p s)

/-- PORT_DISABLE (R319). -/
def execPortDisable (p : PortId) (s : State) : Res := answer (portDisable p s)

/-- PORT_RETRAIN (R319). -/
def execPortRetrain (p : PortId) (s : State) : Res := answer (portRetrain p s)

/-- FEED_CHECK_COMPLETE (R319). -/
def execFeedCheckComplete (p : PortId) (power : List Nat) (s : State) : Res := answer (feedCheckComplete p power s)

/-- PHY_TRAIN_COMPLETE (R319). -/
def execPhyTrainComplete (p : PortId) (tx : List Bool) (rx : TrainedRx) (s : State) : Res :=
  answer (phyTrainComplete p tx rx.locked rx.peerHalf s)

/-- ALIGN_COMPLETE (R319). -/
def execAlignComplete (p : PortId) (ok : Bool) (s : State) : Res := answer (alignComplete p ok s)

/-- INIT_SEND_TIMER (R319). -/
def execInitSendTimer (p : PortId) (s : State) : Res := answer (initSendTimer p s)

/-- CTRL_INIT (R320). -/
def execCtrlInit (p : PortId) (payload : List Byte) (s : State) : Res := answer (ctrlInit p payload s)

/-- TRAINING_TIMEOUT (R319). -/
def execTrainingTimeout (p : PortId) (s : State) : Res := answer (trainingTimeout p s)

/-- QUARANTINE_END (R319). -/
def execQuarantineEnd (p : PortId) (s : State) : Res := answer (quarantineEnd p s)

/-- FAILED_AUTO_RETRY (R319). -/
def execFailedAutoRetry (p : PortId) (s : State) : Res := answer (failedAutoRetry p s)

/-- WAVELENGTH_FAIL (R306). -/
def execWavelengthFail (p : PortId) (w : WaveLoss) (s : State) : Res := answer (wavelengthFail p w.wave w.fault s)

/-- LANE_REMAP_REQUEST (R306). -/
def execLaneRemapRequest (p : PortId) (r : RemapRequest) (s : State) : Res :=
  answer (laneRemapRequest p r.lane r.heard s)

/-- RING_TUNING (R323). -/
def execRingTuning (p : PortId) (s : State) : Res := answer (ringTuning p s)

/-- FEED_MEASURE (R325). -/
def execFeedMeasure (p : PortId) (power : List Nat) (s : State) : Res := answer (feedMeasure p power s)

/-- EGRESS_SCHEDULE (R328). -/
def execEgressSchedule (p : PortId) (s : State) : Res := answer (egressSchedule p s)

/-- FLIT_RECEIVE (R316). -/
def execFlitReceive (p : PortId) (what : Received) (s : State) : Res := answer (flitReceive p what s)

end Sys2Proof.Machine
end

