-- ==== Sys2Proof/Machine/Units.lean ====
section
/-! DEFINITION. Units and their two views: leaving service and coming back (R137, R516), power domains (R468, R469), the
Reeves (R401, R402), and the comparison of the views with what follows from it (R408 to R411). -/

namespace Sys2Proof.Machine

/-! ### Leaving service (R137, R516, Table 15-7) -/

/-- The other array of a Field. -/
def otherArray (k : Nat) : Nat := if k % 2 = 0 then k + 1 else k - 1

/-- A queued job that cannot move completes with ARRAY_FENCED; a ship is refused with it (R137, R516). A grouped ATTN.PART does
so too, without a record, and is a member fault of its group. -/
def State.fencedJob (s : State) (j : ArrayJob) : State :=
  match j.kind with
  | .ship =>
    match s.walk? j.op with
    | none => s
    | some w => match w.req with | none => s | some m => (s.walkEnd j.op).refuse m 0x16
  | .part =>
    match s.op? j.furrow j.op with
    | none => s
    | some o =>
      let s := if o.attn.walk = 0 then s else s.walkEnd (o.attn.walk - 1)
      let s := s.finish j.furrow j.op (Done.ofCode 0x16)
      if o.attn.gid != 0 then s.memberFault o.attn.gid s.node 0x16 else s
  | _ => s.finish j.furrow j.op (Done.ofCode 0x16)

/-- A job may move to the other array: a tile only with every operand in Hull (R137). -/
def State.movable (s : State) (j : ArrayJob) : Bool :=
  match j.kind, s.op? j.furrow j.op with
  | .tile, some o => allHull o.desc
  | _, _ => true

/-- Jobs that wait to move from array k enter the other array's queue while it has places (R137). -/
def State.moveJobs (s : State) (k : Nat) : (fuel : Nat) → State
  | 0 => s
  | n + 1 =>
    match (s.array k).moved with
    | [] => s
    | j :: t =>
      if j.kind = .ship || (s.array (otherArray k)).load < 32 then
        ((s.modArray k (fun a => { a with moved := t })).queueJob (otherArray k) j).moveJobs k n
      else s

/-- An array leaves service: its queued jobs move in queue order or complete; jobs that waited to move here complete.
Ownership writes that waited for its tiles follow (R138). -/
def State.arrayLeaves (s : State) (k : Nat) : State :=
  let jobs := (s.array k).queue
  let o := otherArray k
  let back := (s.array o).moved
  let s := (s.modArray k (fun a => { a with queue := [] })).modArray o (fun a => { a with moved := [] })
  let s := back.foldl (fun s j => s.fencedJob j) s
  let s := if s.arrayAvailable o then
      let s := (jobs.filter (fun j => !s.movable j)).foldl (fun s j => s.fencedJob j) s
      let keep := jobs.filter (fun j => s.movable j)
      (s.modArray k (fun a => { a with moved := a.moved ++ keep })).moveJobs k keep.length
    else (((s.array k).moved) ++ jobs).foldl (fun s j => s.fencedJob j) (s.modArray k (fun a => { a with moved := [] }))
  s.applyOwners k

/-- A moved tile enters the other array's queue once a place frees (R137). -/
def fencedTileRequeue (k : ArrayId) (s : State) : State := s.moveJobs k.val 1

/-- FENCE: a unit leaves service in the manner of its class (Table 15-7). -/
def State.fenceUnit (s : State) (u : UnitId) : State :=
  let was := s.fenced u
  let s := s.modUnit u (fun x => { x with fenced := true })
  match u with
  | .core c => s.wrf ⟨.slcCore, 0, c.val, 0⟩ 7 7 1
  | _ =>
    if was then s
    else
      match u with
      | .furrow n => if (s.running n.val).isSome then s.raise n.val 0x0C 0 0 else s
      | .thresher k => s.arrayLeaves k.val
      | .port p => s.portOff p.val 0
      | .core _ => s
      | .sievePair _ => s.sieveShift
      | .winnowPair _ => s.winnowShift

/-- UNFENCE: a unit returns to service (Table 15-7). -/
def State.unfenceUnit (s : State) (u : UnitId) : State :=
  let s := s.modUnit u (fun x => { x with fenced := false })
  match u with
  | .port p => s.portStart p.val 1
  | .core c => s.wrf ⟨.slcCore, 0, c.val, 0⟩ 7 7 0
  | .sievePair _ => s.sieveShift
  | .winnowPair _ => s.winnowShift
  | _ => s

/-! ### Views (R408, Tables 15-10 and 15-11) -/

/-- The data-path views. -/
inductive PathView where
  | serving | held | idleOff | fault
deriving DecidableEq, Repr

/-- Number of a data-path view, in the order of Table 15-10. -/
def PathView.code : PathView → Nat
  | .serving => 0 | .held => 1 | .idleOff => 2 | .fault => 3

/-- Number of a management view, in the order of Table 15-11. -/
def MgmtView.code : MgmtView → Nat
  | .inService => 0 | .fenced => 1 | .off => 2 | .failed => 3

/-- The data-path view of a unit (Table 15-10); a unit whose self-test failed is in FAULT (R411). -/
def State.pathView (s : State) (u : UnitId) : PathView :=
  let x := s.unit u
  match u with
  | .port p =>
    if s.domainOn (unitDomain u) && x.failed then .fault
    else
      match s.portState p.val with
      | 5 => .serving
      | 0 => if s.domainOn (unitDomain u) then .held else .idleOff
      | 7 => if s.portCtl p.val 3 && (s.port p.val).failures < 3 then .held else .fault
      | _ => .held
  | .furrow n =>
    if !s.domainOn (unitDomain u) then .idleOff
    else if s.machineChecked n.val || x.failed then .fault
    else if x.fenced then .held else .serving
  | .core c =>
    if !s.domainOn (unitDomain u) then .idleOff
    else if x.failed then .fault
    else if s.rdb ⟨.slcCore, 0, c.val, 0⟩ 7 then .held else .serving
  | _ => if !s.domainOn (unitDomain u) then .idleOff else if x.failed then .fault else if x.fenced then .held else .serving

/-- The views agree (Table 15-11); `held` is how long the data path has been HELD, in ns. -/
def viewsAgree (limit held : Nat) (m : MgmtView) (d : PathView) : Bool :=
  match m, d with
  | .inService, .serving => true
  | .inService, .held => held ≤ limit * 1000000
  | .fenced, .held => true
  | .fenced, .fault => true
  | .off, .idleOff => true
  | .failed, .serving => false
  | .failed, _ => true
  | _, _ => false

/-- How long a unit's data path has been HELD. -/
def State.heldFor (s : State) (u : UnitId) : Nat := match (s.unit u).heldSince with | none => 0 | some t => s.time - t

/-- The two views of a unit agree. -/
def State.agrees (s : State) (u : UnitId) : Bool :=
  viewsAgree (s.rdf ⟨.chpReconCtl, 0, 0, 0⟩ 31 16) (s.heldFor u) (s.unit u).mgmt (s.pathView u)

/-- Every unit of classes 0 to 5, in the order of unit IDs (R401). -/
def allUnits : List UnitId :=
  ((List.finRange 64).map .furrow) ++ ((List.finRange 8).map .thresher) ++ ((List.finRange 24).map .port) ++
    ((List.finRange 18).map .core) ++ ((List.finRange 2).map .sievePair) ++ ((List.finRange 2).map .winnowPair)

/-- A UNIT_FENCE record: both views and the cause (Table 17-9). -/
def State.fenceRecord (s : State) (u : UnitId) (cause : Nat) : State :=
  s.record 0x07 2 (unitCode u) (toBytes 1 (s.unit u).mgmt.code ++ toBytes 1 (s.pathView u).code ++ toBytes 6 cause)

/-! ### Power domains (R468, R469) -/

/-- Inrush weight (Table 18-2). -/
def inrush (d : Nat) : Nat := if 64 ≤ d && d < 72 then 4 else if 72 ≤ d && d < 96 then 2 else 1

/-- The unit of a domain (Table 18-2). -/
def domainUnit (d : Nat) : UnitId :=
  if d < 64 then .furrow (Fin.ofNat 64 d)
  else if d < 72 then .thresher (Fin.ofNat 8 (d - 64))
  else if d < 96 then .port (Fin.ofNat 24 (d - 72))
  else if d < 114 then .core (Fin.ofNat 18 (d - 96))
  else if d < 116 then .sievePair (Fin.ofNat 2 (d - 114))
  else .winnowPair (Fin.ofNat 2 (d - 116))

/-- Waiting domains begin to turn on, in arrival order, while at most 8 weight units are turning on (R469). -/
def State.startDomains (s : State) : (fuel : Nat) → State
  | 0 => s
  | n + 1 =>
    match s.onWaiting with
    | [] => s
    | d :: t =>
      if (s.turningOn.map inrush).sum + inrush d ≤ 8 then
        { s with turningOn := s.turningOn ++ [d], onWaiting := t }.startDomains n
      else s

/-- POWER_ON of a domain that is off. -/
def State.powerOn (s : State) (d : Nat) : State :=
  if s.domainOn d || s.turningOn.contains d || s.onWaiting.contains d then s
  else { s with onWaiting := s.onWaiting ++ [d] }.startDomains 8

/-- POWER_OFF: a serving unit is fenced first; the domain goes off once nothing of the unit runs (R136, R469). -/
def State.powerOff (s : State) (u : UnitId) : State :=
  let s := s.fenceUnit u
  let s := match u with
    | .port p => if s.portState p.val = 0 then s.portGo p.val 0 0x0D else s.portOff p.val 0x0D
    | _ => s
  (s.modUnit u (fun x => { x with offDue := true })).offIfDue u

/-! ### Reeve commands (R401, R410, R411) -/

/-- What a command's answer is put into: FLD_REEVE_RSP for a core, an HMP response for a session (R401, R407). -/
def State.reeveAnswer (s : State) (f : Nat) (c : ReeveCmd) (status : Nat) : State :=
  if c.core then
    let r : Csr := ⟨.fldReeveRsp, f, 0, 0⟩
    (s.wrf r 7 0 status).wrf r 8 8 1
  else s

/-- Headland records what a core's command told a unit (R410); a FAILED unit stays FAILED (R411), and POWER_ON of a unit that has
power tells nothing. -/
def State.applyView (s : State) (c : ReeveCmd) : State :=
  let idle := c.code = 2 && s.domainOn (unitDomain c.unit)
  let v := match c.code with
    | 2 => some MgmtView.fenced
    | 3 => some .off
    | 4 => some .fenced
    | 5 => some .inService
    | _ => none
  s.modUnit c.unit (fun x =>
    { x with lastCmd := some s.time,
             mgmt := if x.mgmt = .failed then .failed else if idle then x.mgmt else if c.core then v.getD x.mgmt else c.view.getD x.mgmt })

/-- The status that refuses a command, 0 when the Reeve runs it (R401, R411, R414; log entry 28). -/
def State.reeveRefusal (s : State) (f : Nat) (c : ReeveCmd) : Nat :=
  if !((unitFields c.unit).contains f) || c.code = 0 || 6 < c.code then 0x86
  else if (s.unit c.unit).recon != 0 then 0x87
  else if c.code != 1 && c.code != 2 && !s.domainOn (unitDomain c.unit) then 0x9D
  else if c.code = 5 && (s.unit c.unit).mgmt = .failed then 0x07
  else if c.code = 6 && !s.fenced c.unit then 0x87
  else 0

/-- Run one command: the state and the status, none while it goes on. -/
def State.reeveRun (s : State) (f : Nat) (c : ReeveCmd) : State × Option Nat :=
  match s.reeveRefusal f c with
  | 0 =>
    let s := if c.code = 1 then s else s.applyView c
    match c.code with
    | 1 => ({ s with csrData := [BitVec.ofNat 64 (s.pathView c.unit).code] }, some 0)
    | 2 => if s.domainOn (unitDomain c.unit) then (s, some 0) else (s.powerOn (unitDomain c.unit), none)
    | 3 => (s.powerOff c.unit, some 0)
    | 4 => (s.fenceUnit c.unit, some 0)
    | 5 => (s.unfenceUnit c.unit, some 0)
    | _ => (s.modUnit c.unit (fun x => { x with testing := true }), none)
  | code => (s, some code)

/-- The Reeve of a Field works through its commands until one takes time. -/
def State.reeveWork (s : State) (f : Nat) : (fuel : Nat) → State
  | 0 => s
  | n + 1 =>
    match Table.get [] s.reeves f with
    | [] => s
    | c :: t =>
      match s.reeveRun f c with
      | (s, none) => s
      | (s, some code) => ({ s with reeves := Table.set s.reeves f t }.reeveAnswer f c code).reeveWork f n

/-- A command reaches a Reeve; it runs once those before it have been answered (R401). -/
def State.reeveSend (s : State) (f : Nat) (c : ReeveCmd) : State :=
  let q := Table.get [] s.reeves f
  let s := { s with reeves := Table.set s.reeves f (q ++ [c]) }
  if q.isEmpty then s.reeveWork f 1 else s

/-- The command in progress at a Reeve for a unit is answered, and the next ones run. -/
def State.reeveDone (s : State) (code : Nat) (u : UnitId) (status : Nat) : State :=
  (unitFields u).foldl (fun s f =>
    match Table.get [] s.reeves f with
    | [] => s
    | c :: t =>
      if c.code = code && c.unit = u then
        ({ s with reeves := Table.set s.reeves f t }.reeveAnswer f c status).reeveWork f t.length
      else s) s

/-- A command of a core's write of FLD_REEVE_CMD; in Fallow mode Reeves take commands from Headland alone (R414). -/
def State.reeveCore (s : State) (f code : Nat) (u : UnitId) : State :=
  if s.fallow then s.reeveAnswer f { code, unit := u, core := true } 0xB1
  else s.reeveSend f { code, unit := u, core := true }

/-- A command to a unit by its sender: a supervisor core's through the register, else Headland's. -/
def State.reeveBy (s : State) (who : Who) (f code : Nat) (u : UnitId) : State :=
  match who with
  | .supervisor => s.reeveCore f code u
  | .bound _ => s
  | _ =>
    let view := match code with
      | 2 => some MgmtView.fenced
      | 3 => some .off
      | 4 => some .fenced
      | 5 => some .inService
      | _ => none
    s.reeveSend f { code, unit := u, view }

/-- REEVE_STATUS. -/
def reeveStatus (who : Who) (f : FieldId) (u : UnitId) (s : State) : State := s.reeveBy who f.val 1 u
/-- REEVE_POWER_ON. -/
def reevePowerOn (who : Who) (f : FieldId) (u : UnitId) (s : State) : State := s.reeveBy who f.val 2 u
/-- REEVE_POWER_OFF. -/
def reevePowerOff (who : Who) (f : FieldId) (u : UnitId) (s : State) : State := s.reeveBy who f.val 3 u
/-- REEVE_FENCE. -/
def reeveFence (who : Who) (f : FieldId) (u : UnitId) (s : State) : State := s.reeveBy who f.val 4 u
/-- REEVE_UNFENCE. -/
def reeveUnfence (who : Who) (f : FieldId) (u : UnitId) (s : State) : State := s.reeveBy who f.val 5 u
/-- REEVE_SELFTEST. -/
def reeveSelftest (who : Who) (f : FieldId) (u : UnitId) (s : State) : State := s.reeveBy who f.val 6 u

/-! ### Reconciliation (R411, R452) -/

/-- The bytes of a message: the header of Table 15-8 and the body (R406). -/
def hmpBytes (type status : Nat) (seq : BitVec 32) (body : List Byte) : List Byte :=
  toBytes 1 1 ++ toBytes 1 type ++ toBytes 2 status ++ toBytes 4 seq.toNat ++ toBytes 4 body.length ++ toBytes 4 0 ++ body

/-- Headland sends a message on an open session, in the session's next TLS record (R397, R404, R406). -/
def State.hmpSend (s : State) (c type status : Nat) (seq : BitVec 32) (body : List Byte) : State :=
  match Table.find s.sessions c with
  | none => s
  | some x =>
    let tag := Config.sessionTag x.secret x.carried (hmpBytes type status seq body)
    { s with sessions := Table.set s.sessions c { x with carried := x.carried + 1 },
             hmpSent := s.hmpSent ++ [⟨c, type, status, seq, body, tag⟩] }

/-- An asynchronous message: SEQ counts what the session has carried (log entry 35). -/
def State.hmpTell (s : State) (c type : Nat) (body : List Byte) : State :=
  s.hmpSend c type 0 (match Table.find s.sessions c with | none => 0 | some x => BitVec.ofNat 32 x.carried) body

/-- Messages sent before a command are no longer held. -/
def State.hmpClear (s : State) : State := { s with hmpSent := [] }

/-- Answer an HMP command: TYPE and SEQ are the command's (R406). -/
def State.hmpReply (s : State) (c : Sender) (type status : Nat) (body : List Byte) : State := s.hmpSend c.val type status c.seq body

/-- The next step of a reconciliation that its unit's data path allows. -/
def State.reconStep (s : State) (u : UnitId) : State :=
  match (s.unit u).recon with
  | 1 => if s.pathView u = .idleOff then (s.modUnit u (fun x => { x with recon := 2 })).powerOn (unitDomain u) else s
  | 2 => if s.domainOn (unitDomain u) then s.modUnit u (fun x => { x with recon := 3, testing := true }) else s
  | _ => s

/-- A FAILED unit is held, and its domain goes off (R411). -/
def State.reconcile (s : State) (u : UnitId) (session : Option Sender) : State :=
  let s := s.modUnit u (fun x => { x with recon := 1, reconFor := session, lastCmd := some s.time })
  (if s.domainOn (unitDomain u) then s.powerOff u else s).reconStep u

/-- The self-test of a reconciliation has ended: the unit is unfenced and IN_SERVICE with no exclusions, or stays FAILED
(R411, R452). -/
def State.reconEnd (s : State) (u : UnitId) (pass : Bool) : State :=
  let session := (s.unit u).reconFor
  let s := s.modUnit u (fun x => { x with recon := 0, reconFor := none, lastCmd := some s.time })
  let s := if pass then
      let s := s.modUnit u (fun x => { x with mgmt := .inService, inBin := none })
      let s := { s with almanac := { s.almanac with exclusions := s.almanac.exclusions.filter (fun e => e.1 != u) } }
      s.unfenceUnit u
    else s
  let s := (s.fenceRecord u 3).hmpClear
  match session with
  | none => s
  | some c => s.hmpReply c 0x08 (if pass then 0 else 7) []

/-- DOMAIN_ON_COMPLETE (R469): the unit comes up fenced; a waiting domain may begin. -/
def domainOnComplete (d : DomainId) (s : State) : State :=
  if s.turningOn.contains d.val then
    let u := domainUnit d.val
    let s := { s with turningOn := s.turningOn.filter (· != d.val), domains := s.domains ++ [d.val] }
    let s := s.modUnit u (fun x => { x with fenced := true, failed := s.failedForGood u })
    let s := match u with | .core c => s.wrf ⟨.slcCore, 0, c.val, 0⟩ 7 7 1 | _ => s
    let s := (s.powerMessage u 1).startDomains 8
    (s.reeveDone 2 u 0).reconStep u
  else s

/-- SELFTEST_COMPLETE (R411, Table 15-14). -/
def selftestComplete (u : UnitId) (pass : Bool) (s : State) : State :=
  if !(s.unit u).testing then s
  else
    let pass := pass && !s.failedForGood u
    let s := s.modUnit u (fun x => { x with testing := false, failed := !pass })
    let s := if pass then s else s.post ((unitFields u).headD 0) (2 + unitCode u * 2 ^ 8 + 2 * 2 ^ 24)
    if (s.unit u).recon = 3 then s.reconEnd u pass else s.reeveDone 6 u (if pass then 0 else 7)

/-! ### The comparison (R409) -/

/-- A unit is treated as failed: view FAILED, FENCE, a record, the counter (R409). -/
def State.failUnit (s : State) (u : UnitId) (cause : Nat) : State :=
  let s := (s.fenceRecord u cause).bump ⟨.slcReconFenceCnt, 0, 0, 0⟩
  let s := s.modUnit u (fun x => { x with mgmt := .failed, disagree := 0, failFence := some s.time, lastCmd := some s.time })
  if s.domainOn (unitDomain u) then s.fenceUnit u else s

/-- The settle period after a command to a unit (R409). -/
def State.settling (s : State) (u : UnitId) : Bool :=
  match (s.unit u).lastCmd with
  | none => false
  | some t => s.time < t + s.rdf ⟨.chpReconCtl, 0, 0, 0⟩ 7 0 * 100000

/-- One unit's comparison. -/
def State.compareUnit (s : State) (u : UnitId) : State :=
  if (s.unit u).recon != 0 then s.reconStep u
  else
    let v := s.pathView u
    let held := if v = .held then (s.unit u).heldSince.or (some s.time) else none
    let s := if held = (s.unit u).heldSince then s else s.modUnit u (fun x => { x with heldSince := held })
    if s.settling u then s
    else if s.agrees u then
      if (s.unit u).disagree = 0 then s else s.modUnit u (fun x => { x with disagree := 0 })
    else if 1 ≤ (s.unit u).disagree then s.failUnit u 1
    else s.modUnit u (fun x => { x with disagree := 1 })

/-- VIEW_COMPARE, while Headland runs outside minimal-power mode. -/
def viewCompare (s : State) : State := if s.powered && !s.minimal then allUnits.foldl (fun s u => s.compareUnit u) s else s

/-- FAIL_POWER_CHECK: 20 µs after its FENCE, a failed unit still SERVING loses its domain (R409). -/
def failPowerCheck (u : UnitId) (s : State) : State :=
  match (s.unit u).failFence with
  | none => s
  | some t =>
    if s.time < t + 20000 then s
    else
      let s := s.modUnit u (fun x => { x with failFence := none })
      if s.pathView u = .serving then (match u with | .furrow n => s.dropOps n | _ => s).switchOff u else s

/-! ### Commands -/

/-- FENCED_TILE_REQUEUE (R137). -/
def execFencedTileRequeue (k : ArrayId) (s : State) : Res := answer (fencedTileRequeue k s)

/-- REEVE_STATUS (R401). -/
def execReeveStatus (who : Who) (f : FieldId) (u : UnitId) (s : State) : Res := answer (reeveStatus who f u s)

/-- REEVE_POWER_ON (R469). -/
def execReevePowerOn (who : Who) (f : FieldId) (u : UnitId) (s : State) : Res := answer (reevePowerOn who f u s)

/-- REEVE_POWER_OFF (R469). -/
def execReevePowerOff (who : Who) (f : FieldId) (u : UnitId) (s : State) : Res := answer (reevePowerOff who f u s)

/-- REEVE_FENCE (R401). -/
def execReeveFence (who : Who) (f : FieldId) (u : UnitId) (s : State) : Res := answer (reeveFence who f u s)

/-- REEVE_UNFENCE (R401). -/
def execReeveUnfence (who : Who) (f : FieldId) (u : UnitId) (s : State) : Res := answer (reeveUnfence who f u s)

/-- REEVE_SELFTEST (R401). -/
def execReeveSelftest (who : Who) (f : FieldId) (u : UnitId) (s : State) : Res := answer (reeveSelftest who f u s)

/-- DOMAIN_ON_COMPLETE (R469). -/
def execDomainOnComplete (d : DomainId) (s : State) : Res := answer (domainOnComplete d s)

/-- SELFTEST_COMPLETE (R411). -/
def execSelftestComplete (u : UnitId) (pass : Bool) (s : State) : Res := answer (selftestComplete u pass s)

/-- VIEW_COMPARE (R409). -/
def execViewCompare (s : State) : Res := answer (s.every 0 1000000 viewCompare)

/-- FAIL_POWER_CHECK (R409). -/
def execFailPowerCheck (u : UnitId) (s : State) : Res := answer (failPowerCheck u s)

end Sys2Proof.Machine
end

