-- ==== Sys2Proof/Machine/Bins.lean ====
section
/-! DEFINITION. Operating bins (R447 to R452), the runtime replacement of channels and cores (R455, R456), and the ECC events
of a unit. -/

namespace Sys2Proof.Machine

/-- Clamp an integer into 0 to `hi`. -/
def clampNat (hi : Nat) (v : Int) : Nat := min hi v.toNat

/-! ### Replacement (R455, R456) -/

/-- A channel begins to be copied to a free spare of its stack. -/
def State.migrate (s : State) (ch : Nat) : State :=
  let used := Table.get 0 s.spareChannels (ch / 256)
  if used < 16 && !s.migrating.contains ch then
    { s with migrating := s.migrating ++ [ch], spareChannels := Table.set s.spareChannels (ch / 256) (used + 1) }
  else s

/-- A spare core: one with no hart ID that has not failed. -/
def State.spareCore (s : State) : Option CoreId :=
  (List.finRange 18).find? (fun c => !s.harts.contains c.val && (s.unit (.core c)).mgmt != .failed)

/-- R456: the failed core is held, and a spare comes up in HOLD with its hart ID and slice binding. -/
def State.replaceCore (s : State) (c spare : CoreId) : State :=
  let old : Csr := ⟨.slcCore, 0, c.val, 0⟩
  let bind := s.rdf old 6 0
  let s := (s.wrf old 7 7 1).modUnit (.core c) (fun x => { x with mgmt := .failed, lastCmd := some s.time })
  let s := { s with harts := s.harts.map (fun h => if h = c.val then spare.val else h) }
  let s := s.wr ⟨.slcCore, 0, spare.val, 0⟩ (BitVec.ofNat 64 (bind + 2 ^ 7))
  let s := (s.modUnit (.core spare) (fun x => { x with mgmt := .inService, lastCmd := some s.time })).powerOn (unitDomain (.core spare))
  (s.record 0x09 1 (unitCode (.core c)) (toBytes 1 3 ++ toBytes 1 c.val ++ toBytes 1 spare.val)).assertIrq 138

/-! ### Concentration (R449, R450) -/

/-- Events of the list that hold a key. -/
def binCount (es : List BinEvent) (key : Nat) : Nat := (es.filter (fun e => e.key = key)).length

/-- The two conditions of R449: n of a unit's `total` events. -/
def State.concentrates (s : State) (n total : Nat) : Bool :=
  let r : Csr := ⟨.chpRasBin, 0, 0, 0⟩
  s.rdf r 23 16 ≤ n && s.rdf r 30 24 * total ≤ 100 * n

/-- A BIN_EXCLUDE record: unit, key, event counts and the action: 1 migrate, 2 replace the core, 3 exclude, 4 fail. -/
def State.binRecord (s : State) (u : UnitId) (key n total action : Nat) : State :=
  s.record 0x06 1 (unitCode u) (toBytes 2 (unitCode u) ++ toBytes 4 key ++ toBytes 4 n ++ toBytes 4 total ++ toBytes 1 action)

/-- Exclude a unit in the bin of a key: TEMP, VOLT and ACLK. A ninth exclusion fails it instead (R451). -/
def State.exclude (s : State) (u : UnitId) (key n total : Nat) : State :=
  let bin := key % 2 ^ 16
  let mine := s.almanac.exclusions.filter (fun e => e.1 = u)
  if mine.any (fun e => e.2 = bin) then s
  else if 8 ≤ mine.length then (s.binRecord u key n total 4).failUnit u 2
  else
    let s := { s with almanac := { s.almanac with exclusions := s.almanac.exclusions ++ [(u, bin)] } }
    (s.bump ⟨.chpRasExclCnt, 0, 0, 0⟩).binRecord u key n total 3

/-- What Headland does once a key of a unit is concentrated (Table 17-5). -/
def State.binAction (s : State) (u : UnitId) (key n : Nat) (mine : List BinEvent) (channel : Option Nat) : State :=
  match u, channel with
  | .core c, _ =>
    match s.spareCore with
    | some d => (s.binRecord u key n mine.length 2).replaceCore c d
    | none => s.exclude u key n mine.length
  | .furrow _, some ch =>
    let k := (mine.filter (fun e => e.key = key && e.channel = some ch)).length
    if s.concentrates k mine.length && (s.migrating.contains ch || Table.get 0 s.spareChannels (ch / 256) < 16) then
      if s.migrating.contains ch then s else (s.binRecord u key n mine.length 1).migrate ch
    else s.exclude u key n mine.length
  | _, _ => s.exclude u key n mine.length

/-- An event of a unit joins its window, and its key may become concentrated (R449, R450). -/
def State.binEvent (s : State) (u : UnitId) (word : Nat) (channel : Option Nat) : State :=
  let win := s.rdf ⟨.chpRasBin, 0, 0, 0⟩ 15 0 * 1000000000
  let key := word % 2 ^ 24
  let es := (s.binEvents ++ [({ unit := u, time := s.time, key, channel } : BinEvent)]).filter (fun e => s.time ≤ e.time + win)
  let s := { s with binEvents := es }
  let mine := es.filter (fun e => e.unit = u)
  let n := binCount mine key
  if mine.all (fun e => binCount mine e.key ≤ n) && s.concentrates n mine.length then s.binAction u key n mine channel else s

/-! ### Samples and exclusions (R451) -/

/-- A unit is inside one of its excluded bins at the last sample of a Field. -/
def State.insideBin (s : State) (field : Nat) (u : UnitId) : Bool :=
  match Table.find s.binSample field with
  | none => false
  | some (temp, volt) =>
    s.almanac.exclusions.any (fun e => e.1 = u && e.2 = temp + volt * 2 ^ 7 + s.rdf ⟨.clkAclk, field, 0, 0⟩ 1 0 * 2 ^ 14)

/-- A unit inside an excluded bin is fenced, its view with it. -/
def State.enterBin (s : State) (u : UnitId) : State :=
  let s := s.modUnit u (fun x => { x with inBin := some s.time })
  if (s.unit u).mgmt = .inService then
    let s := s.modUnit u (fun x => { x with mgmt := .fenced, lastCmd := some s.time })
    ((if s.domainOn (unitDomain u) then s.fenceUnit u else s)).fenceRecord u 2
  else s

/-- BIN_SAMPLE: temperature and voltage of a Field, and the fences that follow. -/
def binSample (f : FieldId) (celsius : Int) (millivolt : Nat) (s : State) : State :=
  let p := (clampNat 39 ((celsius + 40) / 5), clampNat 100 (((millivolt : Int) - 500) / 5))
  let s := { s with binSample := Table.set s.binSample f.val p }
  let us := allUnits.filter (fun u => (match u with | .core _ => false | _ => true) && (unitFields u).contains f.val && s.insideBin f.val u)
  us.foldl (fun s u => s.enterBin u) s

/-- EXCLUSION_RELEASE: 100 ms outside every excluded bin, and the unit returns. -/
def exclusionRelease (u : UnitId) (s : State) : State :=
  match (s.unit u).inBin with
  | none => s
  | some t =>
    if s.time < t + 100000000 || (s.unit u).mgmt != .fenced then s
    else
      let s := s.modUnit u (fun x => { x with inBin := none, mgmt := .inService, lastCmd := some s.time })
      ((if s.domainOn (unitDomain u) then s.unfenceUnit u else s)).fenceRecord u 2

/-! ### ECC events (Table 17-2) -/

/-- An ECC event of a unit in a Field: its bin word, and the window it joins. -/
def State.eccEvent (s : State) (u : UnitId) (field : Nat) (channel : Option Nat) : Nat × State :=
  let (w, s) := s.binWord field 0xF 0
  (w, s.binEvent u w channel)

/-- One more corrected error of a structure for the hourly summary (R433). -/
def State.ceNote (s : State) (key : Nat) : State := { s with corrected := Table.set s.corrected key (Table.get 0 s.corrected key + 1) }

/-! ### Commands -/

/-- BIN_SAMPLE (R451). -/
def execBinSample (f : FieldId) (celsius : Int) (millivolt : Nat) (s : State) : Res :=
  answer (s.every (320 + f.val) 1000000 (binSample f celsius millivolt))

/-- EXCLUSION_RELEASE (R451). -/
def execExclusionRelease (u : UnitId) (s : State) : Res := answer (exclusionRelease u s)

end Sys2Proof.Machine
end

