-- ==== Sys2Proof/Machine/Scrub.lean ====
section
/-! DEFINITION. Work beneath the foreground and repair at runtime: scrubs, refresh, spare rows, channel migration (R438 to
R444, R455), trend and summary records (R433, R457). -/

namespace Sys2Proof.Machine

/-! ### Granary (R440 to R442, R455) -/

/-- Lines of a channel (R221). -/
def channelLines : Nat := 6291456

/-- Byte address of line i of a channel (Table 9-2 read backwards). -/
def channelLineAddr (ch i : Nat) : Nat :=
  let r := i / 64
  let n := frameAt (ch / 256) (ch / 16 % 16) r
  65536 * n + 64 * (i % 64 * 16 + ((ch % 16) ^^^ (r % 16)))

/-- Count in a Furrow register, which lies in the Furrow's domain (R494). -/
def State.furrowCount (s : State) (r : RegName) (f : Nat) : State := if s.domainOn f then s.bump ⟨r, f, 0, 0⟩ else s

/-- An uncorrectable Granary line: the poison codeword, and the descriptor of a kind-1 frame (Table 17-2). -/
def State.granaryLost (s : State) (a : Nat) : State :=
  let s := { s with mem := s.mem.writePoison a (fillBytes 64 0xFF) }
  let d := s.frame (a / 65536)
  if d.kind = 1 && d.pool != 0 then s.setFrame (a / 65536) { d with poisoned := true } else s

/-- Percent of a patrol pass: lines visited of all channels' lines (Table 17-10). -/
def State.scrubProgress (s : State) : Nat := 100 * (s.scrubbed.map (fun p => p.2)).sum / (1024 * channelLines)

/-- A pass ends when every channel's lines have been visited: a SCRUB record, and the next begins (R440). -/
def State.scrubPassEnd (s : State) : State :=
  if (List.range 1024).all (fun c => channelLines ≤ Table.get 0 s.scrubbed c) then
    let s := s.count ⟨.chpRasScrubStatus, 0, 0, 0⟩ 31 0 1
    let pass := s.rdf ⟨.chpRasScrubStatus, 0, 0, 0⟩ 31 0
    let s := s.record 0x13 0 0xFFFF (toBytes 8 pass ++ toBytes 8 s.scrubFixed ++ toBytes 8 s.scrubPoisoned)
    { s with scrubbed := [], scrubFixed := 0, scrubPoisoned := 0 }
  else s

/-- The codeword that Granary holds for a line: the poison codeword of a marked one (R435, R436). -/
def State.lineWord (s : State) (a : Nat) : List Nat :=
  if s.mem.marked a then poisonWord else granaryCode.encode (lineSymbols (s.mem.readBytes a 64))

/-- A word with errors in some of its symbols. -/
def withErrors (w : List Nat) (errors : List (Fin 72 × BitVec 8)) : List Nat :=
  errors.foldl (fun w e => w.set e.1.val ((w.getD e.1.val 0) ^^^ e.2.toNat)) w

/-- What the decoder makes of a word read: the poison codeword or a right one is left alone, some symbols are corrected, or it is
beyond correction (R435, R436). -/
inductive LineRead where
  | right
  | corrected (line : List Byte) (symbols : List Nat)
  | lost
deriving DecidableEq, Repr

/-- The channel controller's decoder. -/
def lineRead (w : List Nat) : LineRead :=
  if w = poisonWord then .right
  else
    match granaryCode.decode w with
    | none => .lost
    | some (v, places) => if places.isEmpty then .right else .corrected (symbolLine (v.take 64)) places

/-- A row is due to move to a spare row (R455). -/
def State.rowDue (s : State) (ch row : Nat) : State :=
  if s.rowsDue.contains (ch, row) then s else { s with rowsDue := s.rowsDue ++ [(ch, row)] }

/-- A corrected error joins the last hour's; the sixteenth of a row makes it due (R455). -/
def State.rowCorrected (s : State) (ch row : Nat) (symbols : List Nat) : State :=
  let l := (s.rowErrors ++ [({ channel := ch, row, symbols, time := s.time } : RowError)]).filter (fun e => s.time ≤ e.time + 3600000000000)
  let s := { s with rowErrors := l }
  if 16 ≤ (l.filter (fun e => e.channel = ch && e.row = row)).length then s.rowDue ch row else s

/-- A channel whose corrected errors of the last hour fall on one symbol in 64 or more rows has a failing pin (R455). -/
def State.failingPin (s : State) (ch : Nat) : Bool :=
  (List.range 72).any (fun i =>
    64 ≤ ((s.rowErrors.filter (fun e => e.channel = ch && e.symbols.contains i && s.time ≤ e.time + 3600000000000)).map
      (·.row)).eraseDups.length)

/-- PATROL_SCRUB: the next line of a channel, read with errors in some symbols. A channel whose lines are done waits for the others
(log entry 29); the lines of a row slot are the lines of a row (log entry 28). -/
def patrolScrub (channel : Fin 1024) (errors : List (Fin 72 × BitVec 8)) (s : State) : State :=
  let ch := channel.val
  let i := Table.get 0 s.scrubbed ch
  if !s.powered || s.minimal || channelLines ≤ i then s
  else
    let a := channelLineAddr ch i
    let f := ch / 16
    let u : UnitId := .furrow (Fin.ofNat 64 f)
    let s := { s with scrubbed := Table.set s.scrubbed ch (i + 1) }
    let s := match lineRead (withErrors (s.lineWord a) errors) with
      | .right => s
      | .corrected line symbols =>
        let s := ({ s with scrubFixed := s.scrubFixed + 1 }.gwrite a line false).rowCorrected ch (i / 64) symbols
        (((s.furrowCount .frwGrnCeCnt f).ceNote (64 + f)).eccEvent u (f / 16) (some ch)).2
      | .lost =>
        let s := { s with scrubPoisoned := s.scrubPoisoned + 1 }.rowDue ch (i / 64)
        let (w, s) := ((s.granaryLost a).furrowCount .frwGrnUeCnt f).eccEvent u (f / 16) (some ch)
        s.ueRecord (unitCode u) 0 a w
    s.scrubPassEnd

/-- GRANARY_REFRESH: every row of a bank is refreshed (R442). -/
def granaryRefresh (channel : Fin 1024) (rank : Fin 4) (bank : Nat) (s : State) : State :=
  let key := bankKey channel.val rank.val bank
  { s with refreshed := Table.set s.refreshed key s.time, ahead := Table.erase s.ahead key }

/-- ROW_ACTIVATION_THRESHOLD: the two rows on each side are refreshed ahead (R442). -/
def rowActivationThreshold (channel : Fin 1024) (rank : Fin 4) (bank row : Nat) (s : State) : State :=
  let key := bankKey channel.val rank.val bank
  let rows := (if 2 ≤ row then [row - 2] else []) ++ (if 1 ≤ row then [row - 1] else []) ++ [row + 1, row + 2]
  let old := (Table.get [] s.ahead key).filter (fun r => !rows.contains r)
  { s with ahead := Table.set s.ahead key (old ++ rows) }

/-- ROW_SPARE: a row that is due moves to a spare row of its bank, while one is left (R455). Its contents and marks stay. -/
def rowSpare (channel : Fin 1024) (rank : Fin 4) (bank row : Nat) (s : State) : State :=
  let key := bankKey channel.val rank.val bank
  let used := Table.get 0 s.spareRows key
  if s.rowsDue.contains (channel.val, row) && rank.val = row / 24576 && bank = Config.lineBank (64 * row) && used < 32 then
    let s := { s with spareRows := Table.set s.spareRows key (used + 1),
                      rowsDue := s.rowsDue.filter (· != (channel.val, row)),
                      rowErrors := s.rowErrors.filter (fun e => !(e.channel = channel.val && e.row = row)) }
    s.record 0x09 1 0xFFFF (toBytes 1 1 ++ toBytes 2 channel.val ++ toBytes 1 rank.val ++ toBytes 4 bank ++ toBytes 8 row ++ toBytes 4 used)
  else s

/-- CHANNEL_MIGRATION: the copy of a channel with a failing pin to a spare channel begins (R455). -/
def channelMigration (channel : Fin 1024) (s : State) : State := if s.failingPin channel.val then s.migrate channel.val else s

/-- CHANNEL_MIGRATION_SWITCH: the copy ends and the number names the spare (R221, R455). -/
def channelMigrationSwitch (channel : Fin 1024) (s : State) : State :=
  if s.migrating.contains channel.val then
    let s := { s with migrating := s.migrating.filter (· != channel.val) }
    s.record 0x09 1 0xFFFF (toBytes 1 2 ++ toBytes 2 channel.val ++ toBytes 2 (Table.get 0 s.spareChannels (channel.val / 256) - 1))
  else s

/-! ### SRAM (R434, R438, R439) -/

/-- An uncorrectable error of a Furrow's instruction memory or registers: MACHINE_CHECK of its program (Table 17-2). -/
def State.machineCheck (s : State) (f info : Nat) : State :=
  if (s.running f).isSome then s.raise f 0x0B 0 (BitVec.ofNat 64 info) else s

/-- A corrected error of a unit's SRAM. -/
def State.sramFixed (s : State) (u : UnitId) (field : Nat) : State :=
  match u with
  | .furrow n => (((s.furrowCount .frwRasCeCnt n.val).ceNote n.val).eccEvent u field none).2
  | _ => ((s.ceNote (128 + unitCode u)).eccEvent u field none).2

/-- An uncorrectable error of a unit's SRAM: the counter, the event and an ECC_UE record. -/
def State.sramLost (s : State) (u : UnitId) (field structure' addr : Nat) : State :=
  let s := match u with | .furrow n => s.furrowCount .frwRasUeCnt n.val | _ => s
  let (w, s) := s.eccEvent u field none
  s.ueRecord (unitCode u) structure' addr w

/-- R438: a duplicated word is repaired from its copy; another loses its entry, or reads zero from then on. -/
def State.sheafLost (s : State) (i word : Nat) : State :=
  if word = 0 || word = 1 || word = 4 || word = 5 then s.ceNote (1024 + i / 8192)
  else
    let e := s.entry i
    let (w, s) := s.binWord (i / 8192) 0xF 0
    let s := s.ueRecord 0xFFFF 5 (i * 2 ^ 8 + word * 8) w
    if ([.admitted, .prefill, .parked, .decode, .paused, .expired, .handoverIn] : List ReqState).contains e.state then s.loseEntry i
    else s.setEntry i (e.setWord word 0)

/-- An uncorrectable error of a line of the control caches: a clean line is refetched; a dirty one is poisoned, with a
MACHINE_CHECK record (Table 17-2). -/
def State.cacheLost (s : State) (unit line : Nat) (dirty : Bool) : State :=
  let s := { s with l2 := s.l2.map (fun p => (p.1, if unit = 0xFFFF || p.1 = unit - 0x300 then p.2.filter (fun x => x.line != line) else p.2)),
                    l3 := if unit = 0xFFFF then s.l3.filter (fun x => x.line != line) else s.l3 }
  if dirty then { s with mem := s.mem.markLines line 1 true }.record 0x05 2 unit (toBytes 8 (64 * line)) else s

/-- SRAM_SCRUB: one line of an SRAM array, while its domain is on. -/
def sramScrub (a : SramLine) (outcome : EccOutcome) (s : State) : State :=
  let on : Bool := match a with
    | .hull f _ => s.domainOn f.val
    | .operand k _ => s.domainOn (64 + k.val)
    | .glean f _ => s.domainOn f.val
    | .instruction f _ => s.domainOn f.val
    | .registers f => s.domainOn f.val
    | .sheaf _ _ => s.powered && !s.minimal
    | .coreCache c _ => s.domainOn (96 + c.val)
    | .sharedCache _ => s.powered && !s.minimal
  if !on then s
  else
    match outcome, a with
    | .clean, _ => s
    | .corrected, .hull f _ => s.sramFixed (.furrow f) (f.val / 16)
    | .corrected, .operand k _ => s.sramFixed (.thresher k) (k.val / 2)
    | .corrected, .glean f _ => s.sramFixed (.furrow f) (f.val / 16)
    | .corrected, .instruction f _ => s.sramFixed (.furrow f) (f.val / 16)
    | .corrected, .registers f => s.sramFixed (.furrow f) (f.val / 16)
    | .corrected, .sheaf e _ => s.ceNote (1024 + e.val / 8192)
    | .corrected, .coreCache c _ => s.ceNote (128 + unitCode (.core c))
    | .corrected, .sharedCache _ => s.ceNote 1028
    | .uncorrectable, .coreCache c l =>
      let dirty := (Table.get [] s.l2 c.val).any (fun x => x.line = l && x.dirty)
      let s := s.cacheLost (unitCode (.core c)) l dirty
      if dirty then s.coreFault c.val false (64 * l) else s
    | .uncorrectable, .sharedCache l => s.cacheLost 0xFFFF l (s.l3.any (fun x => x.line = l && x.dirty))
    | .uncorrectable, .hull f l =>
      (s.modHull f.val (fun m => if l < 49152 then m.markLines l 1 true else m)).sramLost (.furrow f) (f.val / 16) 1 (64 * l)
    | .uncorrectable, .operand k l =>
      (s.modArray k.val (fun x => if l < 131072 then { x with sram := x.sram.markLines l 1 true } else x)).sramLost (.thresher k)
        (k.val / 2) 2 (64 * l)
    | .uncorrectable, .glean f x =>
      let line := x / 64 * 64
      let bs := s.mem.readBytes line 64
      let mark := s.mem.marked line
      (s.modFurrow f.val (fun r =>
        { r with glean := r.glean.map (fun l => if l.addr = line then { l with data := bs, poison := mark, time := s.time } else l) })).sramFixed
          (.furrow f) (f.val / 16)
    | .uncorrectable, .instruction f b => (s.sramLost (.furrow f) (f.val / 16) 3 (64 * b.val)).machineCheck f.val b.val
    | .uncorrectable, .registers f => (s.sramLost (.furrow f) (f.val / 16) 4 0).machineCheck f.val 0
    | .uncorrectable, .sheaf e w => s.sheafLost e.val w.val

/-! ### Records of drift and of corrected errors (R433, R457) -/

/-- TREND_RECORD: feed power in the unit of PRT_FEED_PWR, heater drive in percent, symbol errors, by wavelength. A
warning is a PORT record. -/
def trendRecord (p : PortId) (feed heater errors : List Nat) (s : State) : State :=
  if !s.domainOn (72 + p.val) then s
  else
    let body := (List.range 9).flatMap (fun k => toBytes 2 (feed.getD k 0) ++ toBytes 2 (heater.getD k 0) ++ toBytes 4 (errors.getD k 0))
    let s := s.record 0x0B 0 (0x200 + p.val) body
    let warm (s : State) (k : Nat) : Bool :=
      90 < heater.getD k 0 ||
        (match Table.find s.trendFeed (9 * p.val + k) with
         | none => false
         | some w => 100 * feed.getD k 0 < 80 * w)
    let warn := (List.range 9).filter (warm s)
    let s := (List.range 9).foldl (fun s k =>
      if Table.has s.trendFeed (9 * p.val + k) then s
      else { s with trendFeed := Table.set s.trendFeed (9 * p.val + k) (feed.getD k 0) }) s
    if warn.isEmpty then s else s.record 0x0A 1 (0x200 + p.val) (warn.flatMap (fun k => toBytes 1 k))

/-- ECC_CE_SUMMARY: the hour's corrected errors, by structure and Furrow. -/
def eccCeSummary (s : State) : State :=
  let body := (s.corrected.flatMap (fun p => toBytes 2 p.1 ++ toBytes 4 p.2)).take 204
  { (s.record 0x04 0 0xFFFF body) with corrected := [] }

/-! ### Commands -/

/-- PATROL_SCRUB (R440). -/
def execPatrolScrub (channel : Fin 1024) (errors : List (Fin 72 × BitVec 8)) (s : State) : Res :=
  answer (patrolScrub channel errors s)

/-- GRANARY_REFRESH (R442). -/
def execGranaryRefresh (channel : Fin 1024) (rank : Fin 4) (bank : Nat) (s : State) : Res :=
  answer (granaryRefresh channel rank bank s)

/-- ROW_ACTIVATION_THRESHOLD (R442). -/
def execRowActivationThreshold (channel : Fin 1024) (rank : Fin 4) (bank row : Nat) (s : State) : Res :=
  answer (rowActivationThreshold channel rank bank row s)

/-- ROW_SPARE (R455). -/
def execRowSpare (channel : Fin 1024) (rank : Fin 4) (bank row : Nat) (s : State) : Res :=
  answer (rowSpare channel rank bank row s)

/-- CHANNEL_MIGRATION (R455). -/
def execChannelMigration (channel : Fin 1024) (s : State) : Res := answer (channelMigration channel s)

/-- CHANNEL_MIGRATION_SWITCH (R455). -/
def execChannelMigrationSwitch (channel : Fin 1024) (s : State) : Res := answer (channelMigrationSwitch channel s)

/-- SRAM_SCRUB (R439). -/
def execSramScrub (a : SramLine) (outcome : EccOutcome) (s : State) : Res := answer (sramScrub a outcome s)

/-- TREND_RECORD (R457). -/
def execTrendRecord (p : PortId) (feed heater errors : List Nat) (s : State) : Res :=
  answer (s.every (448 + p.val) (s.rdf ⟨.chpRasBin, 0, 0, 0⟩ 39 32 * 3600000000000) (trendRecord p feed heater errors))

/-- ECC_CE_SUMMARY (R433). -/
def execEccCeSummary (s : State) : Res := answer (s.every 384 3600000000000 eccCeSummary)

end Sys2Proof.Machine
end

