-- ==== Sys2Proof/Machine/Almanac.lean ====
section
/-! DEFINITION. The Almanac (R458 to R465): records, rings, commits and reads. -/

namespace Sys2Proof.Machine

/-- The 256 bytes of a record (Table 17-8). -/
def almRecord (seq node boots : Nat) (r : AlmRec) : List Byte :=
  let w := r.type % 256 + r.severity % 4 * 2 ^ 8 + bitVal (recProtected r.type) 10 + r.unit % 65536 * 2 ^ 16 + node % 2 ^ 14 * 2 ^ 32
  let body := (r.body.take 208) ++ fillBytes (208 - r.body.length) 0
  let bs := toBytes 8 seq ++ toBytes 8 r.time ++ toBytes 8 w ++ toBytes 8 (boots % 2 ^ 32) ++ body ++ toBytes 8 0
  bs ++ toBytes 4 (crc32 bs) ++ toBytes 4 (2 ^ 32 - 1 - seq % 2 ^ 32)

/-- A ring takes a record; when it is full the oldest goes (R459). -/
def ringPut (size : Nat) (ring : List (List Byte)) (r : List Byte) : List (List Byte) :=
  (if ring.length < size then ring else ring.drop (ring.length + 1 - size)) ++ [r]

/-- Commit a record: the next SEQ, the ring of its type (R458, R459). -/
def Almanac.commit (a : Almanac) (node : Nat) (r : AlmRec) : Almanac :=
  let bs := almRecord (a.seq + 1) node a.boots r
  let a := { a with seq := a.seq + 1 }
  if r.type = 0x0B then { a with trend := ringPut 2560 a.trend bs, trendHead := a.trendHead + 1 }
  else if recProtected r.type then { a with protect := ringPut 8192 a.protect bs, protHead := a.protHead + 1 }
  else { a with event := ringPut 49152 a.event bs, eventHead := a.eventHead + 1 }

/-- Where SEQ of a record stands. -/
def recSeq (bs : List Byte) : Nat := leAt bs 0 8

/-- The record a commit takes: LOST_RECORDS after any drop, else the head of the queue (R460). -/
def State.nextRecord (s : State) : Option (AlmRec × State) :=
  if s.almDrops.isEmpty then
    match s.almQueue with
    | [] => none
    | r :: t => some (r, { s with almQueue := t })
  else
    let r : AlmRec :=
      { type := 0x14, severity := 1, time := s.time, body := s.almDrops.flatMap (fun p => toBytes 4 p.1 ++ toBytes 4 p.2) }
    some (r, { s with almDrops := [] })

/-- Commit one record now: interrupt source 138, and EVENT on the sessions that ask for it (R460). -/
def State.commitRecord (s : State) (r : AlmRec) : State :=
  let s := { s with almanac := s.almanac.commit s.node r }
  let s := s.assertIrq 138
  let bs := almRecord s.almanac.seq s.node s.almanac.boots r
  (s.sessions.filter (fun p => p.2.events)).foldl (fun s p => s.hmpTell p.1 0x81 bs) s

/-- ALMANAC_COMMIT. -/
def almanacCommit (s : State) : State :=
  match s.nextRecord with
  | none => s
  | some (r, s) => s.hmpClear.commitRecord r

/-- A record whose CRC and NSEQ match; any other is torn (R461). -/
def intact (bs : List Byte) : Bool := leAt bs 0xF8 4 = crc32 (bs.take 0xF8) && leAt bs 0xFC 4 = 2 ^ 32 - 1 - recSeq bs % 2 ^ 32

/-- What a read of region 1 returns: counters, q, the active bank and the cold-boot count (R464). -/
def Almanac.stateRead (a : Almanac) : List Byte :=
  (List.range 16).flatMap (fun i => toBytes 4 (Table.get 0 a.rollback i)) ++ toBytes 4 a.leaf ++ toBytes 4 a.bank ++ toBytes 4 a.boots

/-- Types of the images of a bank (R458). -/
def bankTypes : List Nat := [1, 2, 5]

/-- The records of a region from a first one on, at most `count` (R464): by SEQ in the rings, else by index. -/
def Almanac.read (a : Almanac) (region first count : Nat) : List (List Byte) :=
  let ring (l : List (List Byte)) : List (List Byte) := (l.filter (fun bs => first ≤ recSeq bs)).take count
  let table (l : List (List Byte)) : List (List Byte) := (l.drop first).take count
  match region with
  | 0 => ((List.range 256).drop first).take count |>.map Config.identityRecord
  | 1 => table [a.stateRead]
  | 2 => table (a.repairs ++ a.exclusions.map (fun e => toBytes 2 (unitCode e.1) ++ toBytes 2 e.2))
  | 3 => ring a.trend
  | 4 => ring a.protect
  | 5 => ring a.event
  | 6 => table (bankTypes.map (fun t => (Table.get [] a.banks t).take 128))
  | _ => table (bankTypes.map (fun t => (Table.get [] a.banks (8 + t)).take 128))

/-- Read records, skipping and counting torn ones (R461). -/
def State.almFetch (s : State) (region first count : Nat) : List (List Byte) × State :=
  let rs := s.almanac.read region first count
  if region = 3 || region = 4 || region = 5 then
    let good := rs.filter intact
    (good, s.count ⟨.almTornCnt, 0, 0, 0⟩ 31 0 (rs.length - good.length))
  else (rs, s)

/-- Words of a record in ALM_READ_DATA, from word w on. -/
def State.almWords (s : State) (bs : List Byte) : State :=
  (List.range 32).foldl (fun s w => s.wr ⟨.almReadData, 0, w, 0⟩ (wordAt bs (8 * w))) s

/-- With no such record ALM_READ_DATA holds no stated value. -/
def State.almOpen (s : State) : State :=
  (List.range 32).foldl (fun s w =>
    let (u, s) := s.free
    s.wr ⟨.almReadData, 0, w, 0⟩ u) s

/-- A write of ALM_READ_CTL reads one record (R464). -/
def State.writeAlmRead (s : State) (v : Word) : State :=
  let s := s.wr ⟨.almReadCtl, 0, 0, 0⟩ v
  let region := fld v 2 0
  let (rs, s) := s.almFetch region (fld v 63 3) 1
  match rs with
  | bs :: _ =>
    if (region = 3 || region = 4 || region = 5) && recSeq bs != fld v 63 3 then s.almOpen else s.almWords bs
  | [] => s.almOpen

/-- A write of ALM_SW_CMD appends a SOFTWARE record (R465). -/
def State.writeAlmSw (s : State) (v : Word) : State :=
  s.record 0x40 (fld v 1 0) 0xFFFF ((List.range 24).flatMap (fun w => toBytes 8 (s.rd ⟨.almSwData, 0, w, 0⟩).toNat))

/-- Accesses of the Almanac registers that a bound core is not allowed (R393). -/
def mayCommand : Who → Bool
  | .bound _ => false
  | _ => true

/-- ALM_READ. -/
def almRead (who : Who) (v : Word) (s : State) : State := if mayCommand who then s.writeAlmRead v else s

/-- ALM_SW_APPEND. -/
def almSwAppend (who : Who) (v : Word) (s : State) : State := if mayCommand who then s.writeAlmSw v else s

/-- Everything but the Almanac is lost, and the records still queued with it (R461, R462). -/
def State.unpowered (s : State) : State :=
  { State.reset with pending := s.pending, freeCount := s.freeCount, nextId := s.nextId, drawn := s.drawn, almanac := s.almanac }

/-- POWER_LOSS. -/
def powerLoss (s : State) : State := s.unpowered

/-! ### Commands -/

/-- ALMANAC_COMMIT (R460). -/
def execAlmanacCommit (s : State) : Res := answer (almanacCommit s)

/-- ALM_READ (R464). -/
def execAlmRead (who : Who) (v : Word) (s : State) : Res := answer (almRead who v s)

/-- ALM_SW_APPEND (R465). -/
def execAlmSwAppend (who : Who) (v : Word) (s : State) : Res := answer (almSwAppend who v s)

/-- POWER_LOSS (R461). -/
def execPowerLoss (s : State) : Res := answer (powerLoss s)

end Sys2Proof.Machine
end

