-- ==== Sys2Proof/Machine/Tiles.lean ====
section
/-! DEFINITION. Running work on the arrays: starting a queued job, checksums and retries, gleaning, and a tile's end (R123 to
R132, R136 to R138, R445, R446). -/

namespace Sys2Proof.Machine

/-! ### Check events (R132, Table 5-6) -/

/-- A tile check event of array k: counters, the Almanac record (at most one per array per second) and the unit's bin. `diff`
and `limit` are FP32 codes, the limit 0 for integers. -/
def State.checkEvent (s : State) (k : Nat) (t : Tile) (load transient : Bool) (row source diff limit : Nat) : State :=
  let s := (s.bump ⟨.thrChkCnt, k, 0, 0⟩).bumpIf transient ⟨.thrChkTransCnt, k, 0, 0⟩
  let (w, s) := s.binWord (k / 2) t.a.fmt source
  let s := s.binEvent (arrayUnit k) w none
  let due := match (s.array k).checkRec with | none => true | some at' => at' + 1000000000 ≤ s.time
  if due then
    let id := k + t.furrow * 2 ^ 3 + t.slice * 2 ^ 9 + t.a.fmt * 2 ^ 15 + bitVal load 19 + bitVal transient 20 + row % 4096 * 2 ^ 21
    let mine := s.binEvents.filter (fun e => e.unit = arrayUnit k)
    let s := s.modArray k (fun a => { a with checkRec := some s.time })
    s.record 0x02 1 (unitCode (arrayUnit k))
      (toBytes 8 s.time ++ toBytes 8 id ++ toBytes 4 diff ++ toBytes 4 (if isIntFmt t.a.fmt then 0 else limit) ++ toBytes 8 w ++
        toBytes 4 (binCount mine (w % 2 ^ 24)) ++ toBytes 4 mine.length)
  else s

/-! ### Starting (R124, R126, R129) -/

/-- A queued job whose operands are there: an attention operation waits for its walk's latch (R73, R168). -/
def State.jobReady (s : State) (j : ArrayJob) : Bool :=
  match j.kind with
  | .part =>
    match s.op? j.furrow j.op with
    | none => false
    | some o => o.attn.walk = 0 || (match s.walk? (o.attn.walk - 1) with | none => true | some w => w.latched)
  | .ship => match s.walk? j.op with | none => false | some w => w.latched
  | _ => true

/-- The first job of each Furrow, and every ship's service. -/
def queueHeads : List ArrayJob → List Nat → List ArrayJob
  | [], _ => []
  | j :: t, seen =>
    if j.kind = .ship then j :: queueHeads t seen
    else if seen.contains j.furrow then queueHeads t seen
    else j :: queueHeads t (j.furrow :: seen)

/-- The job an array starts next: Furrows round-robin, beginning after the one served last, each in issue order. A job that
waits for a walk slot holds none of the others up (R75). -/
def State.nextJob (s : State) (k : Nat) : Option ArrayJob :=
  let a := s.array k
  let hs := queueHeads (a.queue.filter (fun j => s.jobReady j)) []
  ((List.range 16).map (fun i => (a.lastFurrow + 1 + i) % 16)).findSome? fun m => hs.find? (fun j => j.furrow % 16 = m)

/-- A comparison after a load (R129, R149): difference, limit, and whether it fails. -/
def State.loadFails (s : State) (t : Tile) (tol : Nat) (buf : StatBuf) : Nat × Nat × Bool :=
  let (d, l, bad) := loadCheck t tol buf
  let c := s.csumDiff t buf
  if bad || c = 0 then (d, l, bad) else (fp32.encode (FVal.ofInt (c : Int)), 0, true)

/-- The stationary operand comes into the active buffer: reused, or loaded, and loaded once more where the comparison fails.
The second failure answers its difference and limit. -/
def State.stationary (s : State) (k : Nat) (t : Tile) (tol : Nat) (faults : TileFaults) : Except (Nat × Nat) StatBuf :=
  let load : Except (Nat × Nat) StatBuf :=
    let a := s.loadStationary k t faults.load
    if !(s.loadFails t tol a).2.2 then .ok a
    else
      let b := s.loadStationary k t faults.loadAgain
      match s.loadFails t tol b with
      | (_, _, false) => .ok b
      | (d, l, true) => .error (d, l)
  match (s.array k).bufs.find? (fun b => b.key = t.key) with
  | some b => if t.reload then load else .ok b
  | none => load

/-- A tile starts: its codes, then its load, which two failed comparisons end (R119, R129, R149); the two loads are the cycles
that such a tile has taken (R128). The first latched number is the tile's code. -/
def State.tileBegin (s : State) (k : Nat) (j : ArrayJob) (o : AsyncOp) (faults : TileFaults) : State :=
  let t := tileOf j.furrow o
  let code := s.tileCode k t
  let s := s.modOp j.furrow o.id (fun o => { o with latch := [code], started := true })
  if code != 0 then s
  else
    let l := s.tileLatch k t
    let s := s.modArray k (fun a => { a with begun := l })
    match s.stationary k t l.tol faults with
    | .ok buf => s.modArray k (fun a => { a with bufs := (buf :: a.bufs.filter (fun b => b.key != t.key)).take 2 })
    | .error (diff, limit) =>
      let s := s.checkEvent k t true false 0 0 diff limit
      let s := s.modArray k (fun a => { a with bufs := a.bufs.filter (fun b => b.key != t.key) })
      ((s.jobEnd k t.slice (2 * t.loadCycles)).finish j.furrow o.id { code := 0x13, check := true }).applyOwners k

/-- TILE_START: an idle, available array starts its next job. -/
def tileStart (k : ArrayId) (faults : TileFaults) (s : State) : State :=
  let n := k.val
  if (s.array n).running.isSome || !s.arrayAvailable n then s
  else
    match s.nextJob n with
    | none => s
    | some j =>
      let s := s.modArray n (fun a => { a with running := some j, lastFurrow := j.furrow % 16, queue := a.queue.erase j })
      match j.kind, s.op? j.furrow j.op with
      | .tile, some o => s.tileBegin n j o faults
      | .part, some _ => s
      | .ship, _ => s
      | .merge, some _ => s
      | _, none => s.modArray n (fun a => { a with running := none })

/-! ### Gleaning (R445, R446) -/

/-- Spare columns with no valid repair entry that have not been withdrawn, ascending. -/
def State.freeSpares (s : State) (k : Nat) : List Nat :=
  let c0 := s.rd ⟨.thrRmapCol0, k, 0, 0⟩
  let c1 := s.rd ⟨.thrRmapCol1, k, 0, 0⟩
  let used (j : Nat) : Bool := if j < 4 then c0.getLsbD (11 * j + 10) else c1.getLsbD (11 * (j - 4) + 10)
  (List.range 7).filter (fun j => !used j && Table.get 0 (s.array k).spareMiss j < 3)

/-- The tile that runs is compared: one in N, on an array with a free spare (log entry 29). -/
def State.gleans (s : State) (k : Nat) : Bool :=
  (s.array k).tiles % 2 ^ (s.array k).begun.log2n = 0 && !(s.freeSpares k).isEmpty

/-- The places among the free spares whose output differs from that of the logical column they copy (R445, R446), with the
difference. `ideal` is what columns in order deliver, `j` the count of selected tiles. -/
def spareDiffs (fs : List SpareFault) (spares j i : Nat) (row : List Int) (ideal : List Int) : List (Nat × Int) :=
  (List.range (min spares 7)).filterMap fun p =>
    let n := (7 * j + p) % 512
    match row[n]?, ideal[n]? with
    | some u, some v =>
      let w := match fs.find? (fun c => c.row = i && c.spare = p) with | some c => c.output | none => v
      if u = w then none else some (p, u - w)
    | _, _ => none

/-! ### Ending (R123, R130, R131, R446) -/

/-- How the checks of a row came out: the row written, whether it fails for good; whether the row check and which spares
failed in the first pass, and the difference and limit of the event, if there is one. -/
structure RowEnd where
  out : RowOut
  fails : Bool := false
  checked : Bool := false
  spares : List Nat := []
  event : Option (Nat × Nat) := none

/-- Row i through its checks: streamed once more where one fails and RETRY allows it (R131, R446). -/
def State.rowEnd (s : State) (k : Nat) (x : TileIn) (faults : TileFaults) (gleaned : Bool) (i : Nat) : RowEnd :=
  let l := (s.array k).begun
  let r := s.tileRowAt k x faults.rows i
  if r.poison then { out := r }
  else
    let n := if gleaned then (s.freeSpares k).length else 0
    let ideal := if n = 0 then [] else (s.tileRowAt k { x with b := x.entered } [] i).own
    let diffs (fs : List SpareFault) (r : RowOut) : List (Nat × Int) := spareDiffs fs n (s.array k).gleaned i r.own ideal
    let d := diffs faults.glean r
    if !r.bad && d.isEmpty then { out := r }
    else
      let off : Int := match d with | [] => 0 | p :: _ => p.2
      let event := if r.bad then (r.diff, r.limit) else (fp32.encode (FVal.ofInt (off.natAbs : Int)), r.limit)
      let again := if l.retry then s.tileRowAt k x faults.rowsAgain i else r
      { out := again, fails := !l.retry || again.bad || !(diffs faults.gleanAgain again).isEmpty, checked := r.bad,
        spares := d.map Prod.fst, event := some event }

/-- What gleaning counts of a selected tile (R445, R446): the tile, each mismatch, and each spare that mismatched where the
logical result agreed with its checksum. -/
def State.gleanCount (s : State) (k : Nat) (rows : List RowEnd) : State :=
  let s := (s.modArray k (fun a => { a with gleaned := a.gleaned + 1 })).bump ⟨.thrGleanCnt, k, 0, 0⟩
  let s := s.count ⟨.thrGleanMisCnt, k, 0, 0⟩ 31 0 (rows.map (fun r => r.spares.length)).sum
  let free := s.freeSpares k
  let missed := ((rows.filter (fun r => !r.checked)).flatMap (fun r => r.spares)).eraseDups
  missed.foldl (fun s p =>
    let j := free.getD p 0
    s.modArray k (fun a => { a with spareMiss := Table.set a.spareMiss j (Table.get 0 a.spareMiss j + 1) })) s

/-- Everything a tile with no code against it does on array k: its status and the state. -/
def State.tileDo (s : State) (k : Nat) (t : Tile) (buf : StatBuf) (faults : TileFaults) : Done × State :=
  let (u, s) := s.free
  let x := s.tileIn k t buf u.toNat
  let gleaned := s.gleans k
  let ends := (List.range t.a.rows).map (s.rowEnd k x faults gleaned)
  let rows := ends.map (·.out)
  let s := s.modArray k (fun a => { a with tiles := a.tiles + 1 })
  let s := if gleaned then s.gleanCount k ends else s
  let s := ends.zipIdx.foldl (fun s p =>
    match p.1.event with
    | none => s
    | some (d, l) => s.checkEvent k t false (!p.1.fails) p.2 (if p.1.checked then 0 else 1) d l) s
  let s := (s.writeRows k t rows).rowStats t rows
  let s := (s.count ⟨.thrChkSkipCnt, k, 0, 0⟩ 31 0 (rows.filter (fun r => r.skip && !r.poison)).length)
  let s := (s.count ⟨.thrSatCnt, k, 0, 0⟩ 31 0 (rows.map (·.sat)).sum).count ⟨.thrSsatCnt, k, 0, 0⟩ 31 0 (rows.map (·.ssat)).sum
  let s := if t.stochastic then s.modArray k (fun a => { a with srCount := a.srCount + 1 }) else s
  let poison := rows.any (·.poison)
  let check := ends.any (·.fails)
  ({ code := if poison then 0x15 else if check then 0x14 else 0, poison, check }, s)

/-- TILE_COMPLETE: the running tile's last row is written after `cycles` of the array (R127, R128). -/
def tileComplete (k : ArrayId) (faults : TileFaults) (cycles : Nat) (s : State) : State :=
  let n := k.val
  match (s.array n).running with
  | none => s
  | some j =>
    match j.kind, s.op? j.furrow j.op with
    | .tile, some o =>
      let t := tileOf j.furrow o
      let code := o.latch.headD 0
      let (d, s) := match (s.array n).bufs.head? with
        | none => (Done.ofCode code, s)
        | some buf => if code = 0 then s.tileDo n t buf faults else (Done.ofCode code, s)
      (((s.jobEnd n o.slice cycles).finish j.furrow o.id d)).applyOwners n
    | .tile, none => s.jobEnd n 0 0
    | _, _ => s

/-! ### Commands -/

/-- TILE_START (R124). -/
def execTileStart (k : ArrayId) (faults : TileFaults) (s : State) : Res := answer (tileStart k faults s)

/-- TILE_COMPLETE (R127). -/
def execTileComplete (k : ArrayId) (faults : TileFaults) (cycles : Nat) (s : State) : Res :=
  answer (tileComplete k faults cycles s)

end Sys2Proof.Machine
end

