-- ==== Sys2Proof/Machine/Slices.lean ====
section
/-! DEFINITION. Slices and their states (R387 to R394), meters (R395 to R397), and Fallow mode (R412 to R415). -/

namespace Sys2Proof.Machine

/-! ### Slice states (R390, Table 15-3) -/

/-- SLC_CTL of a slice. -/
def slcCtl (sl : Nat) : Csr := ⟨.slcCtl, sl, 0, 0⟩

/-- A command that Table 15-3 does not give changes nothing and sets CMD_ERR; HMP answers it SLICE_STATE (R390, Table
15-12). -/
def State.sliceError (s : State) (who : Who) (sl : Nat) : State :=
  let s := s.wrf (slcCtl sl) 8 8 1
  if who = .hmp then { s with csrData := [0xB0] } else s

/-- A slice command's sender may give it: no bound core, and no core while MGMT_LOCK is set (R393, Table 15-13). -/
def State.sliceSender (s : State) (who : Who) (sl : Nat) : Bool :=
  match who with
  | .bound _ => false
  | .supervisor => !s.rdb (slcCtl sl) 9
  | _ => true

/-- A command that moves a slice from one state to another. -/
def State.sliceMove (s : State) (who : Who) (sl from' to' : Nat) : State :=
  if !s.sliceSender who sl then s
  else if s.sliceState sl = from' then s.wrf (slcCtl sl) 2 0 to' else s.sliceError who sl

/-- Counters of a slice, each a register of its own (R390, R395). -/
def sliceCounters (sl : Nat) (r : Csr) : Bool :=
  (([.slcMtr, .slcDemoteCnt, .slcDropCnt] : List RegName).contains r.reg && r.n = sl) || (r.reg = .prtPolCnt && r.j = sl)

/-- CREATE zeroes every counter of the slice (R390): those, and the OVERFLOW counts of its ring and its inbox. -/
def State.zeroCounters (s : State) (sl : Nat) : State :=
  ((s.resetRegs (sliceCounters sl)).wrf ⟨.shfRingCtl, 0, sl, 0⟩ 47 16 0).wrf ⟨.fabHoInboxCtl, 0, sl, 0⟩ 63 48 0

/-- CREATE. -/
def create (who : Who) (sl : SliceId) (s : State) : State :=
  let n := sl.val
  if s.sliceSender who n && s.sliceState n = 0 then (s.zeroCounters n).sliceMove who n 0 1
  else s.sliceMove who n 0 1

/-- START. -/
def start (who : Who) (sl : SliceId) (s : State) : State := s.sliceMove who sl.val 1 2

/-- DRAIN, which SLC_CTL_0 ignores (R389). -/
def drain (who : Who) (sl : SliceId) (s : State) : State := if sl.val = 0 then s else s.sliceMove who sl.val 2 3

/-- RESUME. -/
def resume (who : Who) (sl : SliceId) (s : State) : State := s.sliceMove who sl.val 3 2

/-! ### Teardown (R394) -/

/-- Step 1: ABORT to every queue of the slice's Furrows. -/
def State.abortSlice (s : State) (sl : Nat) : State :=
  (List.range 64).foldl (fun s f =>
    if s.bound f = some sl then (List.range 4).foldl (fun s q => s.abortQueue f q) s else s) s

/-- TEARDOWN, which SLC_CTL_0 ignores (R389). In-step entries record it (R60). -/
def teardown (who : Who) (sl : SliceId) (s : State) : State :=
  let n := sl.val
  if n = 0 || !s.sliceSender who n then s
  else if s.sliceState n = 1 || s.sliceState n = 2 || s.sliceState n = 3 then
    let s := (s.wrf (slcCtl n) 2 0 4).abortSlice n
    { s with sheaf := s.sheaf.map (fun p => (p.1, if p.2.slice = n && p.2.inStep then { p.2 with teardownRecorded := true } else p.2)) }
  else s.sliceError who n

/-- A program of the slice runs. -/
def State.sliceRuns (s : State) (sl : Nat) : Bool :=
  s.furrows.any (fun p => match p.2.prog with | none => false | some g => g.slice = sl)

/-- Entries of a slice that are not FREE, by index. -/
def State.sliceEntries (s : State) (sl : Nat) : List Nat :=
  (s.sheaf.filter (fun p => p.2.slice = sl && p.2.state != .free)).map (·.1)

/-- The member result with which the commit of R109 releases an in-step entry. -/
def teardownResult : MemberResult := ⟨2 ^ 18, 0, false, 0, [], []⟩

/-- Step 2: in-step entries are committed, then every entry goes to ABORTED and to FREE. -/
def State.clearEntries (s : State) (sl : Nat) : State :=
  let s := (s.sliceEntries sl).foldl (fun s i =>
    let e := s.entry i
    if e.inStep then (s.commitMember e.batchTag s.time i teardownResult).2 else s) s
  (s.sliceEntries sl).foldl (fun s i => (s.transition i .aborted rAbortSlice).transition i .free rFreed) s

/-- Step 3, and with it what still serves the slice: walks, deferred edits, copies, merge groups and streams. A request
whose service ends so is refused with NO_SLICE (Table 15-2). -/
def State.clearWork (s : State) (sl : Nat) : State :=
  let s := (s.walks.filter (fun w => w.slice = sl)).foldl (fun s w =>
    let s := s.shipStop w
    match w.req with
    | none => s
    | some m => s.refuse m 0x50) s
  let s := (s.groups.filter (fun g => g.2.slice = sl)).foldl (fun s g => s.wrf ⟨.fabMgStatus, 0, g.1, 0⟩ 0 0 0) s
  { s with
    deferred := s.deferred.map (fun p => (p.1, p.2.filter (fun d => d.slice != sl)))
    groups := s.groups.filter (fun g => g.2.slice != sl)
    furrows := s.furrows.map (fun p => (p.1, { p.2 with streams := p.2.streams.filter (fun x => x.slice != sl) }))
    exchanges := s.exchanges.filter (fun x => x.slice != sl)
    adoptions := s.adoptions.filter (fun p => p.2.slice != sl)
    pushes := s.pushes.filter (fun p => p.2.slice != sl)
    deltas := s.deltas.filter (fun d => d.slice != sl)
    rebuilds := s.rebuilds.filter (fun p => p.2.slice != sl)
    resolving := s.resolving.filter (fun p => p.1 != sl)
    demoting := s.demoting.filter (fun p => (s.frame p.1).slice != sl) }

/-- Registers that step 4 clears. -/
def sliceTables (s : State) (sl : Nat) (r : Csr) : Bool :=
  match r.reg with
  | .fabStt => r.j / 1024 = sl
  | .slcJob => r.n = sl
  | .shpCfg => r.j = sl
  | .prtPol => r.j = sl
  | .thrOpsOwn => s.rdf r 5 0 = sl
  | .fabHoldCtl => r.j = sl
  | .fabHoJnlCtl => r.j = sl
  | _ => false

/-- Step 4: tables, job ID, shapers, policers and ownership are cleared, the rings and the journal disabled. -/
def State.clearTables (s : State) (sl : Nat) : State :=
  let s := s.resetRegs (sliceTables s sl)
  let s := (s.wrf ⟨.fabHoInboxCtl, 0, sl, 0⟩ 3 0 0).wrf ⟨.shfRingCtl, 0, sl, 0⟩ 15 0 0
  { s with
    stt := s.stt.filter (fun p => p.1 / 1024 != sl)
    arrays := s.arrays.map (fun p => (p.1, { p.2 with heldOwn := p.2.heldOwn.filter (fun x => fld x.2 5 0 != sl) }))
    ports := s.ports.map (fun p => (p.1, { p.2 with shapers := Table.erase p.2.shapers sl, policers := Table.erase p.2.policers sl })) }

/-- Step 5: every frame of the slice is freed (R229). -/
def State.clearFrames (s : State) (sl : Nat) : State :=
  ((s.desc.filter (fun p => p.2.held && p.2.slice = sl)).map (·.1)).foldl (fun s n => s.freeFrame n) s

/-- Step 6 for codebooks: a record the slice owns is EMPTY. LIVE records are those that protect frames (R202). -/
def State.clearBooks (s : State) (sl : Nat) : State :=
  ((s.cbFrames.map (·.2)).eraseDups).foldl (fun s key =>
    match s.cbAddr (key / 16) (key % 16) with
    | none => s
    | some a =>
      let r := s.cbAt a
      if r.owner = sl then
        let s := s.setGword a ({ r with live := false, closed := false } : CbRec).word
        { s with cbFrames := s.cbFrames.filter (fun p => p.2 != key) }
      else s) s

/-- Step 6 for adapters: an entry the slice owns is EMPTY. -/
def State.clearAdapters (s : State) (sl : Nat) : State :=
  match s.adpSize with
  | none => s
  | some l =>
    (List.range (2 ^ l)).foldl (fun s i =>
      let a := s.adpEntry i
      let w := s.gword a
      if w.getLsbD 44 && fld w 50 45 = sl then s.gwrite a (fillBytes 128 0) false else s) s

/-! ### Meters (R395 to R397) -/

/-- The body of a METER_REPORT: slice, sequence, FINAL and nine counters (Table 15-9; log entry 30). -/
def meterReport (sl : Nat) (x : Snapshot) : List Byte :=
  toBytes 4 sl ++ toBytes 4 x.seq ++ toBytes 8 (if x.last then 1 else 0) ++ x.counts.flatMap (fun c => toBytes 8 c.toNat)

/-- A slice's counters are latched as snapshot `seq`; Headland keeps the last 64 and reports those of metered slices (R396,
R397). -/
def State.snapshot (s : State) (sl seq : Nat) (last : Bool) : State :=
  let counts := (List.range 9).map (fun i => s.rd ⟨.slcMtr, sl, i, 0⟩)
  let s := counts.zipIdx.foldl (fun (s : State) (p : Word × Nat) => s.wr ⟨.slcMtrSnap, sl, p.2, 0⟩ p.1) s
  let x : Snapshot := ⟨seq, last, counts⟩
  let kept := Table.get [] s.snapshots sl ++ [x]
  let s := { s with snapshots := Table.set s.snapshots sl (kept.drop (kept.length - 64)) }
  if 2 ≤ s.sliceState sl then
    (s.sessions.filter (fun p => p.2.reports)).foldl (fun (t : State) (p : Nat × Session) => t.hmpTell p.1 0x80 (meterReport sl x)) s
  else s

/-- The next snapshot's sequence number, in SLC_MTR_SEQ. -/
def State.nextSnapshot (s : State) : Nat × State :=
  let s := s.bump ⟨.slcMtrSeq, 0, 0, 0⟩
  (s.rdf ⟨.slcMtrSeq, 0, 0, 0⟩ 31 0, s)

/-- System time is a whole number of seconds, to within 10 ns, that has not been latched (R396). -/
def State.snapshotDue (s : State) : Bool := s.time % 1000000000 < 10 && s.snapped != some (s.time / 1000000000)

/-- METER_SNAPSHOT: every slice at one instant, once for each second. -/
def meterSnapshot (s : State) : State :=
  if !s.snapshotDue then s
  else
    let (seq, s) := { s.hmpClear with snapped := some (s.time / 1000000000) }.nextSnapshot
    (List.range 64).foldl (fun s sl => s.snapshot sl seq false) s

/-- Step 7: the final snapshot and its record (R394). -/
def State.finalSnapshot (s : State) (sl : Nat) : State :=
  let (seq, s) := s.hmpClear.nextSnapshot
  let s := s.snapshot sl seq true
  s.record 0x0F 0 0xFFFF (toBytes 8 sl ++ (List.range 9).flatMap (fun i => toBytes 8 (s.rd ⟨.slcMtr, sl, i, 0⟩).toNat))

/-- TEARDOWN_COMPLETE: steps 2 to 7 of R394, once no program of the slice runs; the slice is FREE. -/
def teardownComplete (sl : SliceId) (s : State) : State :=
  let n := sl.val
  if s.sliceState n != 4 || s.sliceRuns n then s
  else
    let s := (((s.clearEntries n).clearWork n).clearTables n).clearFrames n
    let s := ((s.clearBooks n).clearAdapters n).finalSnapshot n
    s.wrf (slcCtl n) 2 0 0

/-! ### Bindings (R391) -/

/-- A binding write that comes at a wrong time. -/
def State.bindRefused (s : State) : State := s.bump ⟨.slcBindRefusedCnt, 0, 0, 0⟩

/-- FRW_SLICE_WRITE: Hull is zeroed, Glean invalidated and the statistics cleared before the binding takes effect. -/
def frwSliceWrite (who : Who) (f : FurrowId) (v : Word) (s : State) : State :=
  let n := f.val
  if !mayCommand who then s
  else if (s.furrow n).prog.isSome || (List.range 4).any (fun q => s.rdb (cq .frwCqCtl n q) 4) then s.bindRefused
  else
    let s := s.modFurrow n (fun r => { r with hull := {}, glean := [] })
    let s := (List.range 4).foldl (fun s j => s.statClear n j) s
    s.wrf ⟨.frwSlice, n, 0, 0⟩ 6 0 (fld v 6 0)

/-- SLC_CORE_WRITE: the binding changes only while HOLD is set, after the core's L2 has been written back and invalidated. HOLD is the core's fence (Table 15-10). -/
def slcCoreWrite (who : Who) (c : CoreId) (v : Word) (s : State) : State :=
  let r : Csr := ⟨.slcCore, 0, c.val, 0⟩
  if !mayCommand who then s
  else if fld v 6 0 != s.rdf r 6 0 && !s.rdb r 7 then s.bindRefused
  else
    let s := if fld v 6 0 = s.rdf r 6 0 then s else s.flushL2 c.val
    (s.wrf r 7 0 (fld v 7 0)).modUnit (.core c) (fun x => { x with fenced := v.getLsbD 7 })

/-! ### Fallow mode (R412 to R415) -/

/-- HB_PERIOD in ns. -/
def State.heartbeatPeriod (s : State) : Nat := s.rdf ⟨.chpHbCtl, 0, 0, 0⟩ 15 0 * 1000000

/-- HEARTBEAT: the period starts again, and source 139 is released (R400, R412). -/
def heartbeat (who : Who) (_v : Word) (s : State) : State :=
  if mayCommand who then { s with beatAt := s.time, beatSince := true }.releaseIrq 139 else s

/-- HEARTBEAT_HALF_LAPSE, once software has been started (R412). -/
def heartbeatHalfLapse (s : State) : State :=
  if s.hartFrom.isSome && s.beatAt + s.heartbeatPeriod / 2 ≤ s.time then s.assertIrq 139 else s

/-- The active cores have all stopped with a machine check (R413). -/
def State.coresStopped (s : State) : Bool :=
  !s.harts.isEmpty && s.harts.all (fun c => (s.unit (.core (Fin.ofNat 18 c))).failed)

/-- The number of a cause in a FALLOW record, 0 for an exit. -/
def fallowCode : FallowCause → Nat
  | .heartbeat => 1 | .machineChecks => 2 | .command => 3

/-- Entry to Fallow mode: FALLOW, the tails latched, a record (R413, R414). -/
def State.enterFallow (s : State) (c : FallowCause) : State :=
  if s.fallow then s
  else
    let tails := (List.range 256).foldl (fun t i => Table.set t i (s.rdf (cq .frwCqTail (i / 4) (i % 4)) 11 0)) []
    let s := { s with fallowTails := tails, beatSince := false }.wrf ⟨.chpFallow, 0, 0, 0⟩ 0 0 1
    s.record 0x12 2 0xFFFF (toBytes 1 (fallowCode c))

/-- A cause of Fallow mode is present (R413). -/
def State.fallowDue (s : State) (c : FallowCause) : Bool :=
  match c with
  | .heartbeat => s.hartFrom.isSome && s.beatAt + s.heartbeatPeriod ≤ s.time
  | .machineChecks => s.coresStopped
  | .command => true

/-- FALLOW_ENTER. -/
def fallowEnter (cause : FallowCause) (s : State) : State := if s.fallowDue cause then s.enterFallow cause else s

/-- HEARTBEAT_EXPIRY. -/
def heartbeatExpiry (s : State) : State := fallowEnter .heartbeat s

/-- FALLOW_EXIT: supervisor software's write of EXIT, after a heartbeat (R415). -/
def fallowExit (who : Who) (s : State) : State :=
  if who = .supervisor && s.fallow && s.beatSince then
    { s with fallowTails := [] }.wrf ⟨.chpFallow, 0, 0, 0⟩ 0 0 0 |>.record 0x12 0 0xFFFF (toBytes 1 0)
  else s

/-- CORE_MACHINE_CHECK: the core has stopped; a record with its cause, a unit-fault message, and Fallow mode once every
active core has stopped (R402, R413, Table 17-2, Table 17-9). -/
def coreMachineCheck (c : CoreId) (cause : Word) (s : State) : State :=
  let u : UnitId := .core c
  if !s.domainOn (unitDomain u) then s
  else
    let s := s.modUnit u (fun x => { x with failed := true })
    let s := s.record 0x05 2 (unitCode u) (toBytes 8 cause.toNat)
    let s := s.post ((unitFields u).headD 0) (2 + unitCode u * 2 ^ 8 + 1 * 2 ^ 24)
    fallowEnter .machineChecks s

/-! ### Commands -/

/-- CREATE (R390). -/
def execCreate (who : Who) (sl : SliceId) (s : State) : Res := answer (create who sl s)

/-- START (R390). -/
def execStart (who : Who) (sl : SliceId) (s : State) : Res := answer (start who sl s)

/-- DRAIN (R390). -/
def execDrain (who : Who) (sl : SliceId) (s : State) : Res := answer (drain who sl s)

/-- RESUME (R390). -/
def execResume (who : Who) (sl : SliceId) (s : State) : Res := answer (resume who sl s)

/-- TEARDOWN (R394). -/
def execTeardown (who : Who) (sl : SliceId) (s : State) : Res := answer (teardown who sl s)

/-- METER_SNAPSHOT (R396). -/
def execMeterSnapshot (s : State) : Res := answer (meterSnapshot s)

/-- TEARDOWN_COMPLETE (R394). -/
def execTeardownComplete (sl : SliceId) (s : State) : Res := answer (teardownComplete sl s)

/-- FRW_SLICE_WRITE (R391). -/
def execFrwSliceWrite (who : Who) (f : FurrowId) (v : Word) (s : State) : Res := answer (frwSliceWrite who f v s)

/-- SLC_CORE_WRITE (R391). -/
def execSlcCoreWrite (who : Who) (c : CoreId) (v : Word) (s : State) : Res := answer (slcCoreWrite who c v s)

/-- HEARTBEAT (R412). -/
def execHeartbeat (who : Who) (v : Word) (s : State) : Res := answer (heartbeat who v s)

/-- HEARTBEAT_HALF_LAPSE (R412). -/
def execHeartbeatHalfLapse (s : State) : Res := answer (heartbeatHalfLapse s)

/-- FALLOW_ENTER (R413). -/
def execFallowEnter (cause : FallowCause) (s : State) : Res := answer (fallowEnter cause s)

/-- HEARTBEAT_EXPIRY (R413). -/
def execHeartbeatExpiry (s : State) : Res := answer (heartbeatExpiry s)

/-- FALLOW_EXIT (R415). -/
def execFallowExit (who : Who) (s : State) : Res := answer (fallowExit who s)

/-- CORE_MACHINE_CHECK (R434). -/
def execCoreMachineCheck (c : CoreId) (cause : Word) (s : State) : Res := answer (coreMachineCheck c cause s)

end Sys2Proof.Machine
end

