-- ==== Sys2Proof/Machine/Security.lean ====
section
/-! DEFINITION. Security (chapter 16): signed images, anti-rollback, measurements, the mailbox, attestation and the protected
operations of management (R416 to R432). -/

namespace Sys2Proof.Machine

/-! ### Images (R418 to R421) -/

/-- An image as it lies in memory: header, payload and signature block (Tables 16-1 and 16-2). -/
structure Image where
  header : List Byte
  payload : List Byte
  ecdsa : List Byte
  hssLen : Nat
  hss : List Byte
  ecKey : List Byte
  hssKey : List Byte
deriving DecidableEq, Repr

/-- Padding to a multiple of 64 bytes. -/
def padded (n : Nat) : Nat := ceilDiv n 64 * 64

/-- LENGTH limit of a type (Table 16-3). -/
def imageLimit : Nat → Nat
  | 1 => 0x400000
  | 2 => 0x400000
  | 3 => 0x10000000
  | 4 => 0x40000
  | _ => 0x10000

/-- TYPE is the second byte of word 0x04 of the header: HDR_VERSION is the first (Table 16-1). -/
def headerType (h : List Byte) : Nat := leAt h 5 1
/-- COUNTER. -/
def Image.counter (i : Image) : Nat := bits (leAt i.header 4 4) 19 16
/-- COMMIT. -/
def Image.commit (i : Image) : Bool := (leAt i.header 4 4).testBit 20
/-- SIGNER: OWNER. -/
def Image.byOwner (i : Image) : Bool := (leAt i.header 4 4).testBit 21
/-- SVN. -/
def Image.svn (i : Image) : Nat := leAt i.header 8 4
/-- VERSION. -/
def Image.version (i : Image) : Nat := leAt i.header 0x10 8
/-- LOAD. -/
def Image.load (i : Image) : Nat := leAt i.header 0x20 8
/-- Where an image is entered: ENTRY is an offset within the payload. -/
def Image.entry (i : Image) : Nat := i.load + leAt i.header 0x58 8
/-- DIGEST. -/
def Image.digest (i : Image) : BitVec 384 := BitVec.ofNat 384 (leAt i.header 0x28 48)

/-- The parts of an image of which `read offset n` gives bytes. -/
def imageOf (read : Nat → Nat → List Byte) : Image :=
  let h := read 0 128
  let n := min (leAt h 0x18 4) (imageLimit (headerType h))
  let s := 128 + padded n
  let l := leAt (read (s + 0x60) 4) 0 4
  let l' := min l 5076
  { header := h, payload := read 128 n, ecdsa := read s 96, hssLen := l, hss := read (s + 0x64) l',
    ecKey := read (s + 0x64 + l') 97, hssKey := read (s + 0x64 + l' + 97) 60 }

/-- An image in Granary. -/
def State.imageAt (s : State) (a : Nat) : Image := imageOf (fun o n => s.mem.readBytes (a + o) n)

/-- The image of a type in a bank of the Almanac. -/
def State.imageIn (s : State) (bank type : Nat) : Image :=
  let bs := Table.get [] s.almanac.banks (8 * bank + type)
  imageOf (fun o n => let x := (bs.drop o).take n; x ++ fillBytes (n - x.length) 0)

/-- SHA-384 of a public key, as a slot holds it. -/
def keyDigest (k : List Byte) : BitVec 384 := Config.sha384 k

/-- The two digests of a signer slot, none while it is empty (R418). -/
def State.slot (s : State) (owner : Bool) : Option (BitVec 384 × BitVec 384) :=
  if owner then s.almanac.owner else some (Config.vendorEcdsa, Config.vendorHss)

/-- Keys that a slot names. -/
def slotKeys (slot : Option (BitVec 384 × BitVec 384)) (ec hss : List Byte) : Bool :=
  match slot with
  | none => false
  | some (a, b) => keyDigest ec == a && keyDigest hss == b

/-- An entry of a configuration image: offset and value (R422). -/
def configEntries (payload : List Byte) : List (Nat × Word) :=
  (List.range (payload.length / 16)).map (fun i => (leAt payload (16 * i) 8, wordAt payload (16 * i + 8)))

/-- A management setting's offset and permitted value (Table 16-10). -/
def mgmtSetting (off : Nat) (v : Word) : Bool :=
  match off with
  | 0x400800 => fld v 37 32 ≤ 32 && fld v 39 38 = 0 && fld v 63 41 = 0
  | 0x400808 => fld v 63 32 = 0
  | 0x400810 => true
  | 0x400818 => true
  | 0x400820 => fld v 7 0 ≤ 128 && fld v 63 9 = 0
  | 0x400828 => true
  | 0x400830 => true
  | 0x400838 => fld v 63 16 = 0
  | _ => false

/-- A configuration's payload is well formed: whole entries that name registers or management settings (R422, R423). -/
def configOk (payload : List Byte) : Bool :=
  payload.length % 16 = 0 && (configEntries payload).all (fun e => (Csr.ofOffset e.1).isSome || mgmtSetting e.1 e.2)

/-- Check 1 of Table 16-3, for an image that must be of type `want`; a signature block of another HSS length is of no
format (log entry 31). -/
def Image.format (i : Image) (want : Nat) : Bool :=
  let w := leAt i.header 4 4
  leAt i.header 0 4 = 0x4D495954 && leAt i.header 4 1 = 1 && headerType i.header = want && bits w 31 22 = 0 &&
    leAt i.header 0x0C 4 = 0 && leAt i.header 0x1C 4 = 0 && leAt i.header 0x60 32 = 0 &&
    leAt i.header 0x18 4 ≤ imageLimit want && (i.hssLen = 2512 || i.hssLen = 5076) &&
    (want != 5 || configOk i.payload)

/-- The checks of Table 16-3 in order: the first failure's code, 0 when the image is accepted (R420). -/
def State.verify (s : State) (want : Nat) (i : Image) : Nat :=
  let msg := i.header ++ i.payload
  let signer := if want = 1 then !i.byOwner else i.byOwner || s.almanac.owner.isNone
  if !i.format want then 0xC0
  else if !signer || !slotKeys (s.slot i.byOwner) i.ecKey i.hssKey then 0xC1
  else if Config.sha384 i.payload != i.digest then 0xC2
  else if !Config.ecdsaVerify i.ecKey msg i.ecdsa then 0xC3
  else if !Config.hssVerify i.hssKey msg i.hss then 0xC4
  else if i.svn < Table.get 0 s.almanac.rollback i.counter then 0xC5
  else 0

/-- An update of the STATE region: the next generation (R463). -/
def State.stateUpdate (s : State) (f : Almanac → Almanac) : State :=
  { s with almanac := { f s.almanac with generation := s.almanac.generation + 1 } }

/-- Anti-rollback counter i is v (R421). -/
def State.setRollback (s : State) (i v : Nat) : State :=
  (s.stateUpdate (fun a => { a with rollback := Table.set a.rollback i v })).wrf ⟨.secArb, 0, i, 0⟩ 31 0 v

/-- An accepted image that carries COMMIT raises its counter; a rejected one leaves an IMAGE record (R420, R421). -/
def State.judge (s : State) (code : Nat) (i : Image) : State :=
  if code = 0 then
    if i.commit && Table.get 0 s.almanac.rollback i.counter < i.svn then s.setRollback i.counter i.svn else s
  else s.record 0x0D 2 0xFFFF (toBytes 1 code ++ i.header)

/-! ### Measurements (R425, R426) -/

/-- The bytes of M_i. -/
def State.measurement (s : State) (i : Nat) : List Byte :=
  (List.range 6).flatMap (fun w => toBytes 8 (s.rd ⟨.secMeas, 0, i, w⟩).toNat)

/-- Set M_i. -/
def State.setMeasurement (s : State) (i : Nat) (d : BitVec 384) : State :=
  let bs := toBytes 48 d.toNat
  (List.range 6).foldl (fun s w => s.wr ⟨.secMeas, 0, i, w⟩ (wordAt bs (8 * w))) s

/-- Measure a digest into M_i. -/
def State.extend (s : State) (i : Nat) (d : BitVec 384) : State :=
  s.setMeasurement i (Config.sha384 (s.measurement i ++ toBytes 48 d.toNat))

/-- A digest measured once: whether M_i takes it, and the list of at most 64 after it (R426). -/
def digestNew (l : List (BitVec 384)) (d : BitVec 384) : Bool × List (BitVec 384) :=
  if l.contains d then (false, l) else (true, if l.length < 64 then l ++ [d] else l)

/-! ### The configuration lock (R226, R424) -/

/-- Frames from the one at a base on; a base of 0 names none. -/
def baseFrames (base : Word) (n : Nat) : List Nat := if base = 0 then [] else (List.range n).map (· + base.toNat / 65536)

/-- The system frames of R226. -/
def State.systemFrames (s : State) : List Nat :=
  let l := s.rdf ⟨.hskDirCtl, 0, 0, 0⟩ 4 0
  List.range 1536 ++
    (baseFrames (s.rd ⟨.hskTagBase, 0, 0, 0⟩) 768 ++ baseFrames (s.rd ⟨.shfGeoBase, 0, 0, 0⟩) 512 ++
      (if l = 0 then [] else baseFrames (s.rd ⟨.hskDirBase, 0, 0, 0⟩) (ceilDiv (256 * 2 ^ l) 65536))).filter (1536 ≤ ·)

/-- Stage CONFIG is set: system frames leave the pool, and M7 takes the lock value (R226, R425). -/
def State.setConfigLock (s : State) : State :=
  let s := s.wrf ⟨.secLock, 0, 0, 0⟩ 1 1 1
  let fs := s.systemFrames.eraseDups
  let s := fs.foldl (fun s n => s.setFrame n { s.frame n with pool := 3 }) s
  let s := { s with sysFrames := fs.length - 1536 }
  s.extend 7 (Config.sha384 (toBytes 8 (s.rd ⟨.secLock, 0, 0, 0⟩).toNat))

/-- LOCK_DEADLINE_EXPIRY (R424). -/
def lockDeadlineExpiry (s : State) : State :=
  match s.hartFrom with
  | none => s
  | some t =>
    if s.locked || s.time < t + s.rdf ⟨.secLockCtl, 0, 0, 0⟩ 15 0 * 1000000 then s
    else s.setConfigLock.record 0x0E 1 0xFFFF (toBytes 1 2)

/-! ### What the mailbox's commands do (R425 to R428) -/

/-- Frames that hold a byte range of the loader or the operating system belong to the control slice, pinned and of kind 3 (R389). -/
def State.controlFrames (s : State) (a n : Nat) : State :=
  ((List.range ((a + n + 65535) / 65536 - a / 65536)).map (· + a / 65536)).foldl (fun s i =>
    if frameNameable i then s.setFrame i { s.frame i with kind := 3, pool := 1, slice := 0, pin := true, age := 0 } else s) s

/-- VERIFY_OS. While CONFIG is not set the loader asks it, and the frames at the image's LOAD become the control slice's (R389,
stage 6 of Table 16-4; log entry 34). -/
def State.doVerifyOs (s : State) (a : Nat) : Nat × State :=
  let i := s.imageAt a
  let code := s.verify 3 i
  let s := s.judge code i
  if code != 0 then (code, s)
  else
    let (new, l) := digestNew s.osDigests i.digest
    let s := if new then s.extend 5 i.digest else s
    let s := if s.locked then s else s.controlFrames i.load i.payload.length
    (0, { s with osDigests := l })

/-- A Furrow that a Sower image may be loaded into (R427). -/
def State.loadable (s : State) (f : Nat) : Bool :=
  (s.furrow f).prog.isNone && (List.range 4).all (fun q => !s.rdb (cq .frwCqCtl f q) 4)

/-- The bundles of a payload. -/
def bundlesOf (bs : List Byte) : Table (BitVec 512) :=
  (List.range (ceilDiv bs.length 64)).map (fun i => (i, BitVec.ofNat 512 (leAt (bs ++ fillBytes 64 0) (64 * i) 64)))

/-- SOWER_LOAD: nothing is loaded unless every Furrow named is idle. A Furrow without power holds nothing (log entry 31). -/
def State.doSowerLoad (s : State) (a : Nat) : Nat × State :=
  let i := s.imageAt (s.gword a).toNat
  let mask := (s.gword (a + 8)).toNat
  let fs := (List.range 64).filter (fun f => mask.testBit f)
  let code := s.verify 4 i
  let s := s.judge code i
  if code != 0 then (code, s)
  else if fs.any (fun f => !s.loadable f) then (0x87, s)
  else
    let img := bundlesOf i.payload
    let s := (fs.filter (fun f => s.domainOn f)).foldl (fun s f =>
      s.modFurrow f (fun r => { r with imem := img, imageLen := img.length })) s
    let (new, l) := digestNew s.sowerDigests i.digest
    let s := if new then s.extend 6 i.digest else s
    (0, { s with sowerDigests := l })

/-- LOCK_CONFIG: OK and nothing more when CONFIG is set already (R426). -/
def State.doLockConfig (s : State) : Nat × State := if s.locked then (0, s) else (0, s.setConfigLock)

/-- MEASURE. -/
def State.doMeasure (s : State) (a : Nat) : Nat × State :=
  (0, s.extend 7 (BitVec.ofNat 384 (leAt (s.mem.readBytes a 48) 0 48)))

/-- A mailbox command's code and effect; QUOTE is an attestation request. A reserved CMD is BAD_PARAM (log entry 31). -/
def State.mboxDo (s : State) (cmd : Nat) (arg : Word) : Nat × State :=
  match cmd with
  | 1 => s.doVerifyOs arg.toNat
  | 2 => s.doSowerLoad arg.toNat
  | 3 => s.doLockConfig
  | 5 => s.doMeasure arg.toNat
  | _ => (0x86, s)

/-- A mailbox command has ended: CODE and DONE, BUSY clear. -/
def State.mboxDone (s : State) (code : Nat) : State :=
  let r : Csr := ⟨.secMboxStatus, 0, 0, 0⟩
  s.wrf r 9 0 (code % 256 + 2 ^ 9)

/-! ### Authorisation (R432) -/

/-- A management session. -/
def State.session? (s : State) (c : Nat) : Option Session := Table.find s.sessions c

/-- Change a session. -/
def State.modSession (s : State) (c : Nat) (f : Session → Session) : State :=
  match s.session? c with
  | none => s
  | some x => { s with sessions := Table.set s.sessions c (f x) }

/-- A body split into what the operation takes and the authorisation that ends it: ECDSA and HSS signatures and the two
public keys, by either length of the HSS signature. -/
def splitAuth (body : List Byte) : Option (List Byte × List Byte × List Byte × List Byte × List Byte) :=
  [2512, 5076].findSome? fun l =>
    let n := 0x64 + l + 157
    let at' := body.length - n
    if n ≤ body.length && leAt body (at' + 0x60) 4 = l then
      some (body.take at', (body.drop at').take 96, (body.drop (at' + 0x64)).take l, (body.drop (at' + 0x64 + l)).take 97,
        (body.drop (at' + 0x64 + l + 97)).take 60)
    else none

/-- The slot that authorises an operation (Table 16-8): OWNER, or VENDOR for a type 1 image and while OWNER is empty for
OWNER_KEY_SET. -/
def State.authSlot (s : State) (type : Nat) (params : List Byte) : Option (BitVec 384 × BitVec 384) :=
  if type = 0x11 && leAt params 0 4 = 1 then s.slot false
  else if type = 0x14 && s.almanac.owner.isNone then s.slot false
  else s.slot true

/-- The operation's parameters, when the authorisation verifies over serial number, nonce and parameters. -/
def State.authorised (s : State) (type : Nat) (nonce : BitVec 384) (body : List Byte) : Option (List Byte) :=
  match splitAuth body with
  | none => none
  | some (params, ec, hss, ecKey, hssKey) =>
    let digest := Config.sha384 (toBytes 8 (s.rd ⟨.chpSerial, 0, 0, 0⟩).toNat ++ toBytes 48 nonce.toNat ++ params)
    let msg := toBytes 48 digest.toNat
    if slotKeys (s.authSlot type params) ecKey hssKey && Config.ecdsaVerify ecKey msg ec && Config.hssVerify hssKey msg hss then
      some params
    else none

/-! ### Protected operations (Table 16-8) -/

/-- The inactive bank. -/
def State.spareBank (s : State) : Nat := 1 - s.almanac.bank % 2

/-- Most bytes an image of a type takes, signature block included. -/
def imageRoom (type : Nat) : Nat := 128 + padded (imageLimit type) + 0x64 + 5076 + 157

/-- Bytes written over a list at an offset, zeros before them. -/
def overlay (old : List Byte) (off : Nat) (new : List Byte) : List Byte :=
  let old' := old ++ fillBytes (off + new.length - old.length) 0
  old'.take off ++ new ++ old'.drop (off + new.length)

/-- IMAGE_PUT: type, offset and data, 4 bytes each before the data (log entry 31), into the inactive bank. -/
def State.doImagePut (s : State) (p : List Byte) : Nat × State :=
  let type := leAt p 0 4
  let off := leAt p 4 4
  let data := p.drop 8
  if p.length < 8 then (2, s)
  else if !bankTypes.contains type || 0x100000 < data.length || imageRoom type < off + data.length then (3, s)
  else
    let k := 8 * s.spareBank + type
    (0, { s with almanac := { s.almanac with banks := Table.set s.almanac.banks k (overlay (Table.get [] s.almanac.banks k) off data) } })

/-- The code of the first image of a bank that fails R420, all three being verified. -/
def State.verifyBank (s : State) (bank : Nat) : Nat × State :=
  bankTypes.foldl (fun (r : Nat × State) type =>
    let i := r.2.imageIn bank type
    let code := r.2.verify type i
    (if r.1 = 0 then code else r.1, r.2.judge code i)) (0, s)

/-- IMAGE_ACTIVATE. -/
def State.doImageActivate (s : State) (p : List Byte) : Nat × State :=
  let bank := leAt p 0 4
  if p.length != 4 then (2, s)
  else if 1 < bank then (3, s)
  else
    let (code, s) := s.verifyBank bank
    if code = 0 then (0, s.stateUpdate (fun a => { a with bank })) else (code, s)

/-- ROLLBACK_COMMIT (R421). -/
def State.doRollback (s : State) (p : List Byte) : Nat × State :=
  let i := leAt p 0 4
  let v := leAt p 4 4
  if p.length != 8 then (2, s)
  else if 16 ≤ i || v < Table.get 0 s.almanac.rollback i then (3, s)
  else (0, s.setRollback i v)

/-- OWNER_KEY_SET: the two public keys. -/
def State.doOwnerKey (s : State) (p : List Byte) : Nat × State :=
  if p.length != 157 then (2, s)
  else (0, s.stateUpdate (fun a => { a with owner := some (keyDigest (p.take 97), keyDigest (p.drop 97)) }))

/-- MGMT_KEY_SET; a seal that does not open is FAILED (log entry 31). -/
def State.doMgmtKey (s : State) (c : Nat) (p : List Byte) : Nat × State :=
  match s.session? c with
  | none => (7, s)
  | some x =>
    match Config.unsealKey x.secret p with
    | none => (7, s)
    | some k => (0, s.stateUpdate (fun a => { a with key := k }))

/-- ZEROISE. -/
def State.doZeroise (s : State) (p : List Byte) : Nat × State :=
  if p.length != 0 then (2, s)
  else
    (0, s.stateUpdate (fun a =>
      { a with owner := none, key := Config.factoryManagementKey, banks := a.banks.filter (fun b => b.1 % 8 != 2 && b.1 % 8 != 5) }))

/-- A protected operation's status and effect. -/
def State.protectedDo (s : State) (c type : Nat) (p : List Byte) : Nat × State :=
  match type with
  | 0x11 => s.doImagePut p
  | 0x12 => s.doImageActivate p
  | 0x13 => s.doRollback p
  | 0x14 => s.doOwnerKey p
  | 0x15 => s.doMgmtKey c p
  | _ => s.doZeroise p

/-- A protected operation runs with the nonce it took as it arrived; NO_CHALLENGE and DENIED have no effect; an authorised one is
recorded and extends M7 (R425, R432). -/
def State.protectedRun (s : State) (c : Sender) (type : Nat) (body : List Byte) (nonce : Option (BitVec 384)) : State :=
  match s.session? c.val with
  | none => s
  | some _ =>
    match nonce with
    | none => s.hmpReply c type 0xC9 []
    | some nonce =>
      match s.authorised type nonce body with
      | none => s.hmpReply c type 0xC8 []
      | some p =>
        let (code, s) := s.protectedDo c.val type p
        let s := (s.extend 7 (Config.sha384 body)).record 0x0E 0 0xFFFF (toBytes 1 4 ++ toBytes 1 type ++ toBytes 2 code)
        s.hmpReply c type code []

/-! ### One operation at a time (R428, R430, R432) -/

/-- An operation that takes no time runs. -/
def State.secRun (s : State) (o : SecOp) : State :=
  match o with
  | .hmp c type body nonce => s.protectedRun c type body nonce
  | .mbox cmd arg =>
    let (code, s) := s.mboxDo cmd arg
    s.mboxDone code
  | .report _ _ _ => s

/-- Whether an operation is an attestation request. -/
def SecOp.isReport : SecOp → Bool
  | .report _ _ _ => true
  | _ => false

/-- Waiting operations run, up to the next request for a report. -/
def State.secDrain (s : State) : (fuel : Nat) → State
  | 0 => s
  | n + 1 =>
    match s.secQueue with
    | [] => s
    | o :: t => if o.isReport then s else ({ s with secQueue := t }.secRun o).secDrain n

/-- An operation arrives: it runs once those before it have. -/
def State.secSubmit (s : State) (o : SecOp) : State :=
  let q := s.secQueue ++ [o]
  { s with secQueue := q }.secDrain q.length

/-- A write of SEC_MBOX_CMD by a supervisor core: OVERRUN while BUSY, else the command (R428). -/
def State.mailbox (s : State) (who : Who) (cmd : Nat) : State :=
  let st : Csr := ⟨.secMboxStatus, 0, 0, 0⟩
  let arg := s.rd ⟨.secMboxArg, 0, 0, 0⟩
  if who != .supervisor then s
  else if s.rdb st 8 then s.wrf st 10 10 1
  else
    let s := (s.wrf st 8 8 1).hmpClear
    if cmd = 4 then s.secSubmit (.report none (arg.toNat + 48) (s.mem.readBytes arg.toNat 48))
    else s.secSubmit (.mbox cmd arg)

/-- VERIFY_OS. -/
def verifyOs (who : Who) (s : State) : State := s.mailbox who 1
/-- SOWER_LOAD. -/
def sowerLoad (who : Who) (s : State) : State := s.mailbox who 2
/-- LOCK_CONFIG. -/
def lockConfig (who : Who) (s : State) : State := s.mailbox who 3
/-- QUOTE. -/
def quote (who : Who) (s : State) : State := s.mailbox who 4
/-- MEASURE. -/
def measure (who : Who) (s : State) : State := s.mailbox who 5

/-! ### Attestation (R429 to R431) -/

/-- The body of a report formed with leaf index q (Table 16-7). -/
def State.reportBody (s : State) (mailbox : Bool) (nonce : List Byte) (q : Nat) : List Byte :=
  let owner := match s.almanac.owner with
    | none => 0
    | some (a, b) => (Config.sha384 (toBytes 48 a.toNat ++ toBytes 48 b.toNat)).toNat
  toBytes 4 1 ++ toBytes 4 (if mailbox then 1 else 0) ++ nonce ++ toBytes 8 (s.rd ⟨.chpSerial, 0, 0, 0⟩).toNat ++
    toBytes 8 (s.node + s.almanac.boots % 2 ^ 32 * 2 ^ 32) ++ toBytes 8 s.time ++
    (List.range 8).flatMap s.measurement ++ (List.range 16).flatMap (fun i => toBytes 4 (Table.get 0 s.almanac.rollback i)) ++
    toBytes 8 (s.rdf ⟨.secLock, 0, 0, 0⟩ 1 0 + s.rdf ⟨.secStatus, 0, 0, 0⟩ 2 0 * 2 ^ 32) ++ toBytes 8 (q % 2 ^ 32) ++
    toBytes 48 owner ++ fillBytes 48 0

/-! ### The identity keys (R416) -/

/-- HMAC with SHA-384, as RFC 2104 gives it. -/
def hmac (key msg : List Byte) : List Byte :=
  let k := key ++ fillBytes (128 - key.length) 0
  let inner := toBytes 48 (Config.sha384 (k.map (· ^^^ 0x36) ++ msg)).toNat
  toBytes 48 (Config.sha384 (k.map (· ^^^ 0x5C) ++ inner)).toNat

/-- Block i, from 1, of the output of HKDF-SHA-384 with an empty salt, as RFC 5869 gives it. -/
def hkdfBlock (seed info : List Byte) : (i : Nat) → List Byte
  | 0 => []
  | i + 1 => hmac (hmac (fillBytes 48 0) seed) (hkdfBlock seed info i ++ info ++ toBytes 1 (i + 1))

/-- The bytes of a name. -/
def asciiBytes (x : String) : List Byte := x.toList.map (fun c => BitVec.ofNat 8 c.toNat)

/-- The order of the group of P-384. -/
def p384Order : Nat :=
  39402006196394479212279040100143613805079739270465446667946905279627659399113263569398956308152294913554433653942643

/-- The device seed of cold boot n, as bytes. -/
def deviceSeed (n : Nat) : List Byte := toBytes 32 (Config.pufSeed n).toNat

/-- The check value of the seed matches (R417). -/
def pufMatches (n : Nat) : Bool := Config.sha384 (deviceSeed n) == Config.pufCheck

/-- The identity ECDSA key of cold boot n: the first 48 bytes of output that are a private scalar. An output has 255 blocks. -/
def identityScalar (n : Nat) : Nat :=
  (((List.range 255).map (fun i => fromBytes (hkdfBlock (deviceSeed n) (asciiBytes "TY9-ID-ECDSA") (i + 1)).reverse)).find?
    (fun k => 0 < k && k < p384Order)).getD 0

/-- Seed and identifier of the identity HSS key: 48 bytes of output (log entry 4). -/
def identityHss (n : Nat) : List Byte := hkdfBlock (deviceSeed n) (asciiBytes "TY9-ID-HSS") 1

/-- A report or its refusal reaches who asked for it. -/
def State.reportTo (s : State) (session : Option Sender) (addr code : Nat) (report : List Byte) : State :=
  match session with
  | some c => if (s.session? c.val).isSome then s.hmpReply c 0x10 code report else s
  | none => (s.gwrite addr report false).mboxDone code

/-- ATTESTATION_REPORT: q + 1 is committed, then both signatures made; a bottom tree not generated yet is waited for. -/
def attestationReport (s : State) : State :=
  match s.secQueue with
  | .report session addr nonce :: t =>
    let q := s.almanac.leaf
    let s := s.hmpClear
    if s.rdb ⟨.secStatus, 0, 0, 0⟩ 0 then ({ s with secQueue := t }.reportTo session addr 0xC7 []).secDrain t.length
    else if 1048576 ≤ q then ({ s with secQueue := t }.reportTo session addr 0xC6 []).secDrain t.length
    else if s.trees ≤ q / 1024 then s
    else
      let s := { s with secQueue := t }.stateUpdate (fun a => { a with leaf := q + 1 })
      let body := s.reportBody session.isNone nonce q
      (s.reportTo session addr 0 (body ++ Config.ecdsaSign (identityScalar s.almanac.boots) body ++ Config.hssSign (identityHss s.almanac.boots) q body)).secDrain t.length
  | _ => s

/-- HSS_TREE_GENERATE: the next bottom tree, from bottom leaf 512 of the present one on, or the one a request waits for. -/
def hssTreeGenerate (s : State) : State :=
  let q := s.almanac.leaf
  if s.trees < 1024 && (s.trees ≤ q / 1024 || (s.trees = q / 1024 + 1 && 512 ≤ q % 1024)) then { s with trees := s.trees + 1 } else s

/-! ### Challenges (R432) -/

/-- CHALLENGE_LAPSE. -/
def challengeLapse (c : SessionId) (s : State) : State :=
  match s.session? c.val with
  | none => s
  | some x =>
    match x.challenge with
    | none => s
    | some (_, t) => if t + 60000000000 ≤ s.time then s.modSession c.val (fun x => { x with challenge := none }) else s

/-! ### Commands -/

/-- LOCK_DEADLINE_EXPIRY (R424). -/
def execLockDeadlineExpiry (s : State) : Res := answer (lockDeadlineExpiry s)

/-- VERIFY_OS (R428). -/
def execVerifyOs (who : Who) (s : State) : Res := answer (verifyOs who s)

/-- SOWER_LOAD (R427). -/
def execSowerLoad (who : Who) (s : State) : Res := answer (sowerLoad who s)

/-- LOCK_CONFIG (R424). -/
def execLockConfig (who : Who) (s : State) : Res := answer (lockConfig who s)

/-- QUOTE (R429). -/
def execQuote (who : Who) (s : State) : Res := answer (quote who s)

/-- MEASURE (R425). -/
def execMeasure (who : Who) (s : State) : Res := answer (measure who s)

/-- ATTESTATION_REPORT (R430). -/
def execAttestationReport (s : State) : Res := answer (attestationReport s)

/-- HSS_TREE_GENERATE (R430). -/
def execHssTreeGenerate (s : State) : Res := answer (hssTreeGenerate s)

/-- CHALLENGE_LAPSE (R432). -/
def execChallengeLapse (c : SessionId) (s : State) : Res := answer (challengeLapse c s)

end Sys2Proof.Machine
end

