-- ==== Sys2Proof/Machine/Power.lean ====
section
/-! DEFINITION. Power and clocks (chapter 18): the regulator bus (R466, R467), Tilth's estimates and limiters (R470 to R475),
clock states (R476 to R478), and minimal-power mode (R482). -/

namespace Sys2Proof.Machine

/-! ### Minimal-power mode (R482) -/

/-- Registers of the always-on blocks (Table 19-1). -/
def alwaysOn (r : Csr) : Bool := r.offset < 0x1000000

/-- Every rail but VDD_AON, VDD_PH and VDD_ALM goes off, and what they hold is lost. -/
def State.railsOff (s : State) : State :=
  { State.reset with
    pending := s.pending
    powered := s.powered
    time := s.time
    timeHold := s.timeHold
    steeredAt := s.steeredAt
    paced := s.paced
    freeCount := s.freeCount
    nextId := s.nextId
    csr := s.csr.filter (fun p => alwaysOn p.1)
    measLatch := s.measLatch
    units := s.units
    almQueue := s.almQueue
    almDrops := s.almDrops
    almanac := s.almanac
    sessions := s.sessions
    hmpSent := s.hmpSent
    snapped := s.snapped
    snapshots := s.snapshots
    handshakeFails := s.handshakeFails
    handshakeRec := s.handshakeRec
    osDigests := s.osDigests
    sowerDigests := s.sowerDigests
    secQueue := s.secQueue
    trees := s.trees
    drawn := s.drawn
    recovery := s.recovery
    mgmtNet := s.mgmtNet
    versions := s.versions
    minimal := true
    rails := [1, 4, 6]
    powerRec := s.powerRec }

/-- Entry to minimal-power mode: the record first. -/
def State.minimalPower (s : State) (cause : Nat) : State :=
  if s.minimal then s else (s.powerRecord 9 0 0xFF cause).railsOff

/-- MINIMAL_POWER_ENTRY. -/
def minimalPowerEntry (cause : Nat) (s : State) : State := s.minimalPower cause

/-- POWER_UP_STEP_OVERRUN (R481). -/
def powerUpStepOverrun (step : Nat) (s : State) : State := (s.powerRecord 10 step 0xFF 0).minimalPower 10

/-! ### The regulator bus (R467) -/

/-- Rails whose regulators the device cannot do without: VDD_CORE, VDDQ_G and VPP_G. -/
def vitalRail (r : Nat) : Bool := r = 0 || r = 2 || r = 3

/-- PMBUS_TRANSACTION: it succeeds when the first attempt or one of its three retries does. -/
def pmbusTransaction (rail : Fin 8) (first : Bool) (retries : List Bool) (s : State) : State :=
  let r := rail.val
  if first || (retries.take 3).any id then { s with railBad := Table.erase s.railBad r }
  else
    let s := (s.bump ⟨.tltPmbErrCnt, 0, 0, 0⟩).powerRecord 8 r 0xFF 0
    let since := (Table.find s.railBad r).getD s.time
    let s := { s with railBad := Table.set s.railBad r since }
    if vitalRail r && since + 100000000 ≤ s.time then s.minimalPower 8 else s

/-- SMBALERT: a fault in STATUS_WORD (log entry 32). -/
def smbalert (rail : Fin 8) (status : Word) (s : State) : State :=
  let r := rail.val
  if fld status 15 0 = 0 then s
  else
    let s := s.powerRecord 7 r 0xFF (fld status 15 0)
    if vitalRail r then s.minimalPower 7 else s

/-! ### Estimates (R471) -/

/-- A calibrated estimate. -/
def State.calibrated (s : State) (x : Nat) : Nat := x * s.calibration / 1000

/-- TILTH_ESTIMATE: mW of the 118 domains, then of what is never switched, then VDD_CORE's current in mA; mW of the slices. The
last ms is kept. -/
def tilthEstimate (domains slices : List Nat) (s : State) : State :=
  let ds := (List.range 120).map (fun d => s.calibrated (domains.getD d 0))
  let ss := (List.range 64).map (fun i => s.calibrated (slices.getD i 0))
  let s := { s with estimates := ((ds, ss) :: s.estimates).take 100 }
  let pkg := (ds.take 119).sum / 1000
  let s := s.wr ⟨.tltEst, 0, 0, 0⟩ (BitVec.ofNat 64 (min 65535 pkg + min 65535 (ds.getD 119 0 / 1000) * 2 ^ 16))
  ss.zipIdx.foldl (fun s p => s.wr ⟨.tltSliceEst, 0, p.2, 0⟩ (BitVec.ofNat 64 (min 65535 (p.1 / 1000)))) s

/-- Nominal mV of a rail (Table 18-1). -/
def State.railMillivolt (s : State) : Nat → Nat
  | 0 => if s.rdb ⟨.clkVcore, 0, 0, 0⟩ 0 then 700 else 750
  | 1 => 750
  | 2 => 1100
  | 4 => 900
  | _ => 1800

/-- The latest package estimate in mW. -/
def State.packageNow (s : State) : Nat := match s.estimates with | [] => 0 | e :: _ => (e.1.take 119).sum

/-- TILTH_CALIBRATE: the currents that the regulators read, in mA by rail, set the correction of the estimates (log entry
32). -/
def tilthCalibrate (milliamp : List Nat) (s : State) : State :=
  let real := ((List.range 7).map (fun r => milliamp.getD r 0 * s.railMillivolt r / 1000)).sum
  let now := s.packageNow
  if now = 0 || real = 0 then s else { s with calibration := max 1 (s.calibration * real / now) }

/-- Mean over the last ms of a part of the estimates. -/
def State.meanOf (s : State) (f : List Nat × List Nat → Nat) : Nat :=
  if s.estimates.isEmpty then 0 else (s.estimates.map f).sum / s.estimates.length

/-! ### Clock states (R476, R477) -/

/-- The ACLK state of a Field. -/
def State.aclk (s : State) (f : Nat) : Nat := s.rdf ⟨.clkAclk, f, 0, 0⟩ 1 0

/-- The state Tilth wants for a Field: the limiters' and no faster than MAX (log entry 32). -/
def State.aclkWanted (s : State) (f : Nat) : Nat :=
  min 2 (max (s.rdf ⟨.clkAclk, f, 0, 0⟩ 3 2) (max (s.pkgSlow.count f) (Table.get 0 s.heatSlow f)))

/-- Fields take the states wanted of them; state 0 only at 0.75 V. -/
def State.setClocks (s : State) : State :=
  let s := (List.range 4).foldl (fun s f =>
    let w := if s.rdb ⟨.clkVcore, 0, 0, 0⟩ 0 then max 1 (s.aclkWanted f) else s.aclkWanted f
    if w = s.aclk f then s else (s.wrf ⟨.clkAclk, f, 0, 0⟩ 1 0 w).powerRecord 3 0 f w) s
  if (List.range 4).all (fun f => s.aclk f != 0) then { s with slowSince := s.slowSince.or (some s.time) } else { s with slowSince := none }

/-- VCORE_SETTING_CHANGE: 0.70 V once every Field has been slow for 10 ms and LOW_EN is set; 0.75 V before a Field returns to
state 0. -/
def vcoreSettingChange (s : State) : State :=
  let r : Csr := ⟨.clkVcore, 0, 0, 0⟩
  if s.rdb r 0 then
    if !s.rdb r 1 || (List.range 4).any (fun f => s.aclkWanted f = 0) then
      ((s.wrf r 0 0 0).powerRecord 4 0 0xFF 750).setClocks
    else s
  else
    match s.slowSince with
    | none => s
    | some t => if s.rdb r 1 && t + 10000000 ≤ s.time then (s.wrf r 0 0 1).powerRecord 4 0 0xFF 700 else s

/-! ### Limiters (R472, Table 18-4) -/

/-- Whether a limiter's condition has been clear for 10 ms, with the table of since when: `key` names the limiter. -/
def State.cooled (s : State) (key : Nat) (below : Bool) : Bool × State :=
  if !below then (false, { s with coolSince := Table.erase s.coolSince key })
  else
    match Table.find s.coolSince key with
    | none => (false, { s with coolSince := Table.set s.coolSince key s.time })
    | some t => (t + 10000000 ≤ s.time, s)

/-- One step of a duty: down by 4 to `least` above the cap, up by 4 to 64 after 10 ms below 90 % of it; a cap of 0 is none. -/
def State.dutyStep (s : State) (key duty least cap mean : Nat) : Nat × State :=
  if cap != 0 && cap < mean then (max least (duty - 4), (s.cooled key false).2)
  else
    let (ok, s) := s.cooled key (cap = 0 || 10 * mean < 9 * cap)
    (if ok then min 64 (duty + 4) else duty, s)

/-- Duty of a domain. -/
def State.domainDuty (s : State) (d : Nat) : Nat := Table.get 64 s.domDuty d
/-- Duty of a slice. -/
def State.dutyOfSlice (s : State) (sl : Nat) : Nat := Table.get 64 s.sliceDuty sl

/-- The domain limiter, for Furrows and Threshers. -/
def State.limitDomains (s : State) : State :=
  (List.range 72).foldl (fun s d =>
    let (n, s) := s.dutyStep d (s.domainDuty d) 8 (10 * s.rdf ⟨.tltDomCap, 0, d, 0⟩ 15 0) (s.meanOf (fun e => e.1.getD d 0))
    { s with domDuty := if n = 64 then Table.erase s.domDuty d else Table.set s.domDuty d n }) s

/-- The slice limiter. -/
def State.limitSlices (s : State) : State :=
  (List.range 64).foldl (fun s i =>
    let (n, s) := s.dutyStep (128 + i) (s.dutyOfSlice i) 8 (1000 * s.rdf ⟨.tltSliceCap, 0, i, 0⟩ 15 0) (s.meanOf (fun e => e.2.getD i 0))
    { s with sliceDuty := if n = 64 then Table.erase s.sliceDuty i else Table.set s.sliceDuty i n }) s

/-- mW of a Field's Furrows and Threshers over the last ms. -/
def State.fieldPower (s : State) (f : Nat) : Nat :=
  s.meanOf (fun e => ((List.range 16).map (fun i => e.1.getD (16 * f + i) 0)).sum + ((List.range 2).map (fun i => e.1.getD (64 + 2 * f + i) 0)).sum)

/-- The Field of a list that draws most power, the lowest among equals. -/
def State.hottestField (s : State) : List Nat → Option Nat
  | [] => none
  | f :: t =>
    match s.hottestField t with
    | none => some f
    | some g => if s.fieldPower f < s.fieldPower g then some g else some f

/-- The package limiter: duty down to 32, then the hottest Field's clock once per ms; back in reverse order. -/
def State.limitPackage (s : State) : State :=
  let r : Csr := ⟨.tltPkgCap, 0, 0, 0⟩
  let cap := if s.rdb r 16 then 1000 * s.rdf r 15 0 else 0
  let mean := s.meanOf (fun e => (e.1.take 119).sum)
  let step := s.pkgStepAt + 1000000 ≤ s.time
  if cap != 0 && cap < mean then
    let s := (s.cooled 192 false).2
    if 32 < s.pkgDuty then { s with pkgDuty := s.pkgDuty - 4 }
    else
      match s.hottestField ((List.range 4).filter (fun f => s.aclkWanted f < 2)) with
      | some f => if step then { s with pkgSlow := List.replicate (s.aclkWanted f + 1 - s.pkgSlow.count f) f ++ s.pkgSlow, pkgStepAt := s.time } else s
      | none => s
  else
    let (ok, s) := s.cooled 192 (cap = 0 || 10 * mean < 9 * cap)
    if !ok then s
    else
      match s.pkgSlow with
      | [] => { s with pkgDuty := min 64 (s.pkgDuty + 4) }
      | _ :: rest => if step then { s with pkgSlow := rest, pkgStepAt := s.time } else s

/-- Limiters engaged, by the bits of TLT_LIMIT. -/
def State.engaged (s : State) : Nat :=
  bitVal (!s.domDuty.isEmpty) 0 + bitVal (!s.sliceDuty.isEmpty) 1 + bitVal (s.pkgDuty < 64 || !s.pkgSlow.isEmpty) 2 +
    bitVal (s.heatSlow.any (fun p => 0 < p.2)) 3

/-- TLT_LIMIT and TLT_DUTY follow the limiters; a limiter that engages or releases leaves a record (Table 18-8). -/
def State.showLimits (s : State) : State :=
  let r : Csr := ⟨.tltLimit, 0, 0, 0⟩
  let old := s.rdf r 3 0
  let new := s.engaged
  let s := s.wrf r 3 0 new
  let s := (List.range 4).foldl (fun s k =>
    if old.testBit k = new.testBit k then s else s.powerRecord (if new.testBit k then 1 else 2) k 0xFF (s.packageNow / 1000)) s
  (List.range 64).foldl (fun s n =>
    let d := match s.bound n with
      | none => s.domainDuty n
      | some i => min (s.domainDuty n) (s.dutyOfSlice i)
    s.wr ⟨.tltDuty, 0, n, 0⟩ (BitVec.ofNat 64 d)) s

/-- TILTH_EVALUATE. -/
def tilthEvaluate (s : State) : State := s.limitDomains.limitSlices.limitPackage.setClocks.showLimits

/-- DROOP_DETECT: the halt changes timing only (R473). -/
def droopDetect (f : FieldId) (s : State) : State := s.bump ⟨.tltDroopCnt, 0, f.val, 0⟩

/-- The thermal limiter of one Field: one state lower above TJ_HIGH, one higher after 10 ms below TJ_HIGH − 5. -/
def State.limitHeat (s : State) (f : Nat) (t : Int) : State :=
  let high : Int := s.rdf ⟨.tltTherm, 0, 0, 0⟩ 7 0
  let now := Table.get 0 s.heatSlow f
  if high < t then
    let s := (s.cooled (200 + f) false).2
    let s := if now = 0 then s.powerRecord 5 3 f t.toNat else s
    { s with heatSlow := Table.set s.heatSlow f (min 2 (now + 1)) }
  else
    let (ok, s) := s.cooled (200 + f) (t < high - 5)
    if ok && now != 0 then
      { s with heatSlow := Table.set s.heatSlow f (now - 1), coolSince := Table.set s.coolSince (200 + f) s.time }
    else s

/-- THERMAL_SAMPLE: sensors by Field, then any others; three samples in a row at TJ_TRIP enter minimal-power mode (R474). -/
def thermalSample (celsius : List Int) (s : State) : State :=
  let r : Csr := ⟨.tltTherm, 0, 0, 0⟩
  let hot := celsius.foldl (fun (m x : Int) => max m x) 0
  let s := s.wrf r 23 16 (min 255 hot.toNat)
  let s := (celsius.take 4).zipIdx.foldl (fun (s : State) (p : Int × Nat) => s.limitHeat p.2 p.1) s
  let s := s.setClocks.showLimits
  let s := { s with trips := if (s.rdf r 15 8 : Int) ≤ hot then s.trips + 1 else 0 }
  if 3 ≤ s.trips then (s.powerRecord 6 3 0xFF hot.toNat).minimalPower 6 else s

/-- CCLK_STATE_WRITE (R478). -/
def cclkStateWrite (who : Who) (c : CoreId) (v : Word) (s : State) : State :=
  if mayCommand who then s.wrf ⟨.clkCclk, 0, c.val, 0⟩ 1 0 (fld v 1 0) else s

/-! ### Commands -/

/-- MINIMAL_POWER_ENTRY (R482). -/
def execMinimalPowerEntry (cause : Nat) (s : State) : Res := answer (minimalPowerEntry cause s)

/-- POWER_UP_STEP_OVERRUN (R481). -/
def execPowerUpStepOverrun (step : Nat) (s : State) : Res := answer (powerUpStepOverrun step s)

/-- PMBUS_TRANSACTION (R467). -/
def execPmbusTransaction (rail : Fin 8) (first : Bool) (retries : List Bool) (s : State) : Res :=
  answer (pmbusTransaction rail first retries s)

/-- SMBALERT (R467). -/
def execSmbalert (rail : Fin 8) (status : Word) (s : State) : Res := answer (smbalert rail status s)

/-- TILTH_ESTIMATE (R471). -/
def execTilthEstimate (domains : List Nat) (slices : List Nat) (s : State) : Res :=
  answer (s.every 128 10000 (tilthEstimate domains slices))

/-- TILTH_CALIBRATE (R471). -/
def execTilthCalibrate (milliamp : List Nat) (s : State) : Res := answer (s.every 192 10000000 (tilthCalibrate milliamp))

/-- VCORE_SETTING_CHANGE (R477). -/
def execVcoreSettingChange (s : State) : Res := answer (vcoreSettingChange s)

/-- TILTH_EVALUATE (R472). -/
def execTilthEvaluate (s : State) : Res := answer (s.every 64 100000 tilthEvaluate)

/-- DROOP_DETECT (R473). -/
def execDroopDetect (f : FieldId) (s : State) : Res := answer (droopDetect f s)

/-- THERMAL_SAMPLE (R474). -/
def execThermalSample (celsius : List Int) (s : State) : Res := answer (s.every 256 1000000 (thermalSample celsius))

/-- CCLK_STATE_WRITE (R478). -/
def execCclkStateWrite (who : Who) (c : CoreId) (v : Word) (s : State) : Res := answer (cclkStateWrite who c v s)

end Sys2Proof.Machine
end

