-- ==== Sys2Proof/Machine/Csr.lean ====
section
/-! DEFINITION. Accesses to the control space (chapter 19): which access reaches a register (R393, R489 to R494), what a read
returns, and what a write does (R10, R511), register by register where a rule gives a write an effect of its own. -/

namespace Sys2Proof.Machine

/-! ### Accesses -/

/-- The unit whose domain holds a register, if that domain is switched (R494). -/
def csrUnit (r : Csr) : Option UnitId :=
  let u : Option UnitId := match r.reg.spec.blk with
    | .furrow => some (.furrow (Fin.ofNat 64 r.n))
    | .array => some (.thresher (Fin.ofNat 8 r.n))
    | .port => some (.port (Fin.ofNat 24 r.n))
    | _ => none
  u.filter (fun u => regSwitched u r)

/-- A register lies in a domain that is off. -/
def State.csrOff (s : State) (r : Csr) : Bool :=
  match csrUnit r with
  | none => false
  | some u => !s.domainOn (unitDomain u)

/-- An access to a reserved offset or to a register without power is counted and recorded (R491, R494). -/
def State.strayAccess (s : State) (off : Nat) (write : Bool) : State :=
  (s.wr ⟨.chpCsrErr, 0, 0, 0⟩ (BitVec.ofNat 64 (off % 2 ^ 27 + bitVal write 27 + 2 ^ 28))).bump ⟨.chpCsrErrCnt, 0, 0, 0⟩

/-- Command-queue registers, the ones a bound core may write. -/
def queueReg (r : Csr) : Bool := ([.frwCqBase, .frwCqCtl, .frwCqHead, .frwCqTail] : List RegName).contains r.reg

/-- What a bound core reaches: queues of its slice's Furrows, and its slice's meters for reading (R393). -/
def State.reaches (s : State) (who : Who) (r : Csr) (write : Bool) : Bool :=
  match who with
  | .bound sl => (queueReg r && s.bound r.n = some sl.val) || (!write && (r.reg = .slcMtr || r.reg = .slcMtrSnap) && r.n = sl.val)
  | _ => true

/-! ### Reads -/

/-- Bits by index. -/
def onBits (f : Nat → Bool) (n : Nat) : Nat := ((List.range n).map (fun i => bitVal (f i) i)).sum

/-- What an array's status shows (Table 5-7). -/
def State.arrayStatus (s : State) (k : Nat) : Nat :=
  let rows := s.rdf ⟨.thrRmapRow, k, 0, 0⟩ 26 24
  let col (r : RegName) (e : Nat) : Bool := s.rdb ⟨r, k, 0, 0⟩ (11 * e + 10)
  let repaired := rows != 0 || (List.range 4).any (col .thrRmapCol0) || (List.range 3).any (col .thrRmapCol1)
  bitVal (s.arrayAvailable k) 0 + bitVal repaired 1 + bitVal (s.unit (arrayUnit k)).failed 2 + bitVal (s.fenced (arrayUnit k)) 3 +
    bitVal (s.domainOn (64 + k)) 4 + min 63 (s.array k).load * 2 ^ 5

/-- The value of a register now: some show what the state holds elsewhere. -/
def State.shown (s : State) (r : Csr) : Word :=
  match r.reg with
  | .chpBootCnt => BitVec.ofNat 64 (s.almanac.boots % 2 ^ 32)
  | .chpRasScrubStatus => setFld (s.rd r) 38 32 s.scrubProgress
  | .clkTime => BitVec.ofNat 64 s.time
  | .clkDomStatus => BitVec.ofNat 64 (onBits (fun i => s.domainOn (64 * r.j + i)) 64)
  | .almSeq => BitVec.ofNat 64 s.almanac.seq
  | .almProtHead => BitVec.ofNat 64 s.almanac.protHead
  | .almEventHead => BitVec.ofNat 64 s.almanac.eventHead
  | .slcPoolFree => BitVec.ofNat 64 (s.freeFrames + s.reserve * 2 ^ 32)
  | .shpLevel => BitVec.ofNat 64 (unsigned 32 ((s.shaper r.n r.j).level / 1000))
  | .thrStatus => BitVec.ofNat 64 (s.arrayStatus r.n)
  | .fldWinStatus => BitVec.ofNat 64 (bitVal (s.winnowUp r.n) 0 + min 127 (s.winnowAt r.n).queue.length * 2)
  | .fldSieveStatus => BitVec.ofNat 64 (bitVal (s.sieveUp r.n) 0 + min 63 (s.sieveAt r.n).queue.length * 2)
  | _ => s.rd r

/-- A read of FLD_REEVE_MSG_f's low word removes the oldest message and latches it; with an empty ring it is all zero (R402,
R490). -/
def State.popMessage (s : State) (f : Nat) : Word × State :=
  let q := Table.get [] s.reeveMsgs f
  let m := q.headD 0
  let s := { s with reeveMsgs := Table.set s.reeveMsgs f (q.drop 1), msgLatch := Table.set s.msgLatch f m }
  let s := s.wrf ⟨.fldReeveStatus, f, 0, 0⟩ 8 0 (q.length - 1)
  (BitVec.ofNat 64 m.toNat, s)

/-- Word w of M_i as a read returns it: word 0 latches all six (R490). -/
def State.readMeasurement (s : State) (i w : Nat) : Word × State :=
  let s := if w = 0 then { s with measLatch := Table.set s.measLatch i (BitVec.ofNat 384 (leAt (s.measurement i) 0 48)) } else s
  (BitVec.ofNat 64 ((Table.get (0 : BitVec 384) s.measLatch i).toNat / 2 ^ (64 * w)), s)

/-- What a read of a register that is there returns, and its effect: RC fields are cleared (R10). -/
def State.readHere (s : State) (r : Csr) : Word × State :=
  match r.reg with
  | .fldReeveMsg => s.popMessage r.n
  | .fldReeveMsgHi => (BitVec.ofNat 64 ((Table.get (0 : BitVec 128) s.msgLatch r.n).toNat / 2 ^ 64), s)
  | .secMeas => s.readMeasurement r.j r.l
  | _ =>
    let v := s.shown r
    let p := r.reg.spec
    (v &&& p.readMask, if p.hasAcc .rc then s.wr r (p.afterRead (s.rd r)) else s)

/-- A read by a sender; none where a core takes an access fault and nothing changes (R393). -/
def State.csrRead (s : State) (who : Who) (r : Csr) : Option Word × State :=
  if !s.reaches who r false then (none, s)
  else if !r.inRange || s.csrOff r then (some 0, s.strayAccess r.offset false)
  else
    let (v, s) := s.readHere r
    (some v, s)

/-- A core's read: what it gets stands in `csrData`. -/
def State.coreRead (s : State) (who : Who) (r : Csr) : State :=
  match s.csrRead who r with
  | (none, s) => s
  | (some v, s) => { s with csrData := [v] }

/-! ### Writes without an effect of their own -/

/-- The lock stage of a register's RWL fields has been set (R424, R495). -/
def State.lockedReg (s : State) (r : Csr) : Bool :=
  match r.reg with
  | .thrRmapRow => s.repairLocked
  | .thrRmapCol0 => s.repairLocked
  | .thrRmapCol1 => s.repairLocked
  | _ => s.locked

/-- A write of plain fields: ignored as a whole for a value that is not permitted (R511); once their lock is set RWL fields
stand and every write of them is recorded (R10). DEDUCED: a write after the lock that holds a value R511 does not permit is
ignored without a record, since no action of it takes place (log entry 33). -/
def State.writePlain (s : State) (r : Csr) (v : Word) : State :=
  let p := r.reg.spec
  if !p.permits v then s
  else
    let s := if s.lockedReg r && p.hasAcc .rwl then s.configRefused r v else s
    s.wr r (p.afterWrite (!s.lockedReg r) (s.rd r) v)

/-! ### Writes with an effect -/

/-- CHP_NODE_ID: the first write sets VALID, which lets ports start (R497). -/
def State.writeNodeId (s : State) (v : Word) : State :=
  let r : Csr := ⟨.chpNodeId, 0, 0, 0⟩
  if s.locked then s.configRefused r v
  else
    let s := (s.wrf r 13 0 (fld v 13 0)).wrf r 14 14 1
    (List.range 24).foldl (fun s p => s.portStart p 1) s

/-- Whether two ranges share an index; an empty one shares none. -/
def rangesMeet (a n b m : Nat) : Bool := 0 < n && 0 < m && a < b + m && b < a + n

/-- SHF_PART_s: refused for an overlap, for a range past the table, or while an entry of the enabled partition is not FREE
(R44). -/
def State.writePartition (s : State) (sl : Nat) (v : Word) : State :=
  let r : Csr := ⟨.shfPart, 0, sl, 0⟩
  let (base, n, en) := (fld v 14 0, fld v 31 16, v.getLsbD 32)
  let new : Word := BitVec.ofNat 64 (base + n * 2 ^ 16 + bitVal en 32)
  let others := (List.range 64).filter (fun i => i != sl)
  let clash := en && others.any fun i =>
    match s.partition i with
    | none => false
    | some (b, m) => rangesMeet base n b m
  let busy := match s.partition sl with
    | none => false
    | some (b, m) => new != s.rd r && s.sheaf.any (fun p => b ≤ p.1 && p.1 < b + m && p.2.state != .free)
  if clash || 32768 < n || 32768 < base + n || busy then (s.bump ⟨.shfIllegalCnt, 0, 0, 0⟩).configRefused r v else s.wr r new

/-- HEAD and TAIL of a ring go to 0 (R43). -/
def State.ringRestart (s : State) (sl : Nat) : State :=
  (s.wr ⟨.shfRingHead, 0, sl, 0⟩ 0).wr ⟨.shfRingTail, 0, sl, 0⟩ 0

/-- SHF_RING_BASE_s. DESIGN CHOICE: the spec says no more of a BASE that is not aligned to 64 KiB; it is stored as written and the
ring restarts (log entry 33). -/
def State.writeRingBase (s : State) (sl : Nat) (v : Word) : State := (s.writePlain ⟨.shfRingBase, 0, sl, 0⟩ v).ringRestart sl

/-- SHF_RING_CTL_s: a change of SIZE restarts the ring. -/
def State.writeRingCtl (s : State) (sl : Nat) (v : Word) : State :=
  let r : Csr := ⟨.shfRingCtl, 0, sl, 0⟩
  let old := s.rdf r 15 0
  let s := s.writePlain r v
  if s.rdf r 15 0 = old then s else s.ringRestart sl

/-- SHF_RING_HEAD_s: ignored at or above SIZE (R43). -/
def State.writeRingHead (s : State) (sl : Nat) (v : Word) : State :=
  if s.rdf ⟨.shfRingCtl, 0, sl, 0⟩ 15 0 ≤ fld v 14 0 then s else s.writePlain ⟨.shfRingHead, 0, sl, 0⟩ v

/-- A queue forgets the descriptor it has prefetched. -/
def State.dropPrefetch (s : State) (f q : Nat) : State := s.modFurrow f (fun r => { r with prefetch := Table.erase r.prefetch q })

/-- FRW_CQ_BASE_q: ignored while EN is set and BASE would change (R94). -/
def State.writeQueueBase (s : State) (f q : Nat) (v : Word) : State :=
  let r := cq .frwCqBase f q
  if s.rdb (cq .frwCqCtl f q) 4 && s.rd r != v then s else (s.wr r v).dropPrefetch f q

/-- FRW_CQ_CTL_q: ignored while EN is set and LOG2SIZE would change (R94); ABORT ends the running program (R107); a 1 clears
STOPPED, which restarts the queue, and TAIL_ERR. -/
def State.writeQueueCtl (s : State) (f q : Nat) (v : Word) : State :=
  let r := cq .frwCqCtl f q
  let resized := fld v 3 0 != s.rdf r 3 0
  if s.rdb r 4 && resized then s
  else if !r.reg.spec.permits v then s
  else
    let s := s.writePlain r v
    let s := if resized then s.dropPrefetch f q else s
    if v.getLsbD 6 then s.abortQueue f q else s

/-- FRW_QST_CTL_j: CLR clears the set (R158). -/
def State.writeQstCtl (s : State) (f j : Nat) (v : Word) : State :=
  let s := s.writePlain ⟨.frwQstCtl, f, j, 0⟩ v
  if v.getLsbD 8 then s.statClear f j else s

/-- The bits that word w of an entry of the Slice Translation Table keeps: reserved bits read zero (R8, Table 11-9). -/
def sttMask (w : Nat) : Word :=
  match w with
  | 0 => 0x7FFFFFFFFFFFFFF
  | 3 => 0xFFFF3FFF
  | _ => 0xFFFFFFFFFFFFFFFF

/-- Word w of entry e of a slice's Slice Translation Table. -/
def sttReg (sl e w : Nat) : Csr := ⟨.fabStt, 0, 1024 * sl + e, w⟩

/-- A commit of an entry is refused (R287). -/
def State.sttRefused (s : State) (sl e : Nat) (w : Word) : Bool :=
  let (unit, n) := (fld w 27 0, fld w 50 28)
  let target := s.rd (sttReg sl e 1)
  let job := s.rd (sttReg sl e 2)
  let src := s.rd (sttReg sl e 3)
  let others := s.stt.filter (fun p => p.1 / 1024 = sl && p.1 != 1024 * sl + e && p.2.1.getLsbD 51)
  others.any (fun p => rangesMeet unit n (fld p.2.1 27 0) (fld p.2.1 50 28)) || 0xF000000 < unit + n || fld job 63 32 = 0 ||
    fld src 29 16 < fld src 13 0 ||
    (match fld src 31 30 with
     | 0 => target.toNat % 65536 != 0 || frameCount * 65536 < target.toNat + n * 65536
     | 1 => false
     | 2 => 0x300000 < fld target 53 32 + n * 65536
     | _ => true)

/-- FAB_STT_s_e_0 commits the entry's four words, or is refused and counted, whatever VALID it gives. A write with a COUNT that
is not permitted is ignored (R511). -/
def State.commitStt (s : State) (sl e : Nat) (v : Word) : State :=
  let w := v &&& sttMask 0
  let n := fld w 50 28
  if n < 1 || 6291456 < n then s
  else if s.sttRefused sl e w then s.bump ⟨.fabSttRefusedCnt, 0, 0, 0⟩
  else
    let s := s.wr (sttReg sl e 0) w
    { s with stt := Table.set s.stt (1024 * sl + e) (w, s.rd (sttReg sl e 1), s.rd (sttReg sl e 2), s.rd (sttReg sl e 3)) }

/-- FAB_TIMEOUT and FAB_HO_LEASE: a value that would break the lease relation is refused (R29). -/
def State.writeLeasePair (s : State) (r : Csr) (v : Word) : State :=
  let timeout := if r.reg = .fabTimeout then fld v 6 0 else s.rdf ⟨.fabTimeout, 0, 0, 0⟩ 6 0
  let lease := if r.reg = .fabHoLease then fld v 15 0 else s.rdf ⟨.fabHoLease, 0, 0, 0⟩ 15 0
  if !r.reg.spec.permits v then s
  else if lease < 4 * timeout then s.configRefused r v
  else s.writePlain r v

/-- THR_OPS_OWN_k_b: a write that changes SLICE or clears VALID waits while a tile touches the block (R138). -/
def State.writeOwner (s : State) (k b : Nat) (v : Word) : State :=
  let v := v &&& 0x7F
  let r : Csr := ⟨.thrOpsOwn, k, b, 0⟩
  if s.tileTouches k b && (fld v 5 0 != s.rdf r 5 0 || !v.getLsbD 6) then s.modArray k (fun a => { a with heldOwn := a.heldOwn.filter (fun p => p.1 != b) ++ [(b, v)] })
  else s.wr r v

/-- PRT_CTL_p: EN and RETRAIN act at once (Table 12-7). -/
def State.writePortCtl (s : State) (p : PortId) (v : Word) : State :=
  let r : Csr := ⟨.prtCtl, p.val, 0, 0⟩
  let was := s.rdb r 0
  let s := s.writePlain r v
  let s := if v.getLsbD 0 && !was then s.portStart p.val 1 else if !v.getLsbD 0 && was then s.portOff p.val 0 else s
  if v.getLsbD 4 then portRetrain p s else s

/-- The unit of a 16-bit unit ID (R401). -/
def unitOfCode (n : Nat) : Option UnitId :=
  let i := n % 256
  match n / 256 with
  | 0 => if i < 64 then some (.furrow (Fin.ofNat 64 i)) else none
  | 1 => if i < 8 then some (.thresher (Fin.ofNat 8 i)) else none
  | 2 => if i < 24 then some (.port (Fin.ofNat 24 i)) else none
  | 3 => if i < 18 then some (.core (Fin.ofNat 18 i)) else none
  | 4 => if i < 2 then some (.sievePair (Fin.ofNat 2 i)) else none
  | 5 => if i < 2 then some (.winnowPair (Fin.ofNat 2 i)) else none
  | _ => none

/-- FLD_REEVE_CMD_f: a command of a supervisor core to the Reeve; a unit ID that names no unit is BAD_PARAM (R401). -/
def State.writeReeveCmd (s : State) (who : Who) (f : Nat) (v : Word) : State :=
  match unitOfCode (fld v 23 8) with
  | some u => s.reeveBy who f (fld v 7 0) u
  | none => if who = .supervisor then s.reeveAnswer f { code := fld v 7 0, unit := .furrow 0, core := true } 0x86 else s

/-- SLC_CTL_s: MGMT_LOCK through HMP alone, CMD_ERR, then CMD (Table 15-13). -/
def State.writeSliceCtl (s : State) (who : Who) (sl : SliceId) (v : Word) : State :=
  let r := slcCtl sl.val
  let s := if v.getLsbD 8 then s.wrf r 8 8 0 else s
  let s := if who = .hmp then s.wrf r 9 9 (fld v 9 9) else s
  match fld v 6 4 with
  | 0 => s
  | 1 => create who sl s
  | 2 => start who sl s
  | 3 => Sys2Proof.Machine.drain who sl s
  | 4 => resume who sl s
  | 5 => teardown who sl s
  | _ => if s.sliceSender who sl.val then s.sliceError who sl.val else s

/-- Registers of caps: in Fallow mode cores do not write them (R475). -/
def capReg (r : Csr) : Bool := ([.tltPkgCap, .tltSliceCap, .tltDomCap] : List RegName).contains r.reg

/-- The effect of a write on a register that is there and that the sender reaches; a reset that CLK_RST_CTL asks for is the
caller's (registerWrite). -/
def State.writeHere (s : State) (who : Who) (r : Csr) (v : Word) : State :=
  let sl : SliceId := Fin.ofNat 64 r.n
  match r.reg with
  | .chpNodeId => s.writeNodeId v
  | .chpHeartbeat => heartbeat who v s
  | .chpFallow => if v.getLsbD 1 then fallowExit who s else s
  | .almReadCtl => s.writeAlmRead v
  | .almSwCmd => s.writeAlmSw v
  | .secMboxCmd => s.mailbox who (fld v 7 0)
  | .frwCqBase => s.writeQueueBase r.n r.j v
  | .frwCqCtl => s.writeQueueCtl r.n r.j v
  | .frwCqTail => s.writeTail r.n r.j v
  | .frwSlice => frwSliceWrite who (Fin.ofNat 64 r.n) v s
  | .frwGlnReg => s.writeGlnReg r.n r.j v
  | .frwQstCtl => s.writeQstCtl r.n r.j v
  | .fldReeveCmd => s.writeReeveCmd who r.n v
  | .thrOpsOwn => s.writeOwner r.n r.j v
  | .prtCtl => s.writePortCtl (Fin.ofNat 24 r.n) v
  | .shpCfg => s.writeShaper r.n r.j v
  | .prtPol => s.writePolicer r.n r.j v
  | .fabTimeout => s.writeLeasePair r v
  | .fabHoLease => s.writeLeasePair r v
  | .fabStt => if r.l = 0 then s.commitStt (r.j / 1024) (r.j % 1024) v else s.wr r (v &&& sttMask r.l)
  | .shfPart => s.writePartition r.j v
  | .shfRingBase => s.writeRingBase r.j v
  | .shfRingCtl => s.writeRingCtl r.j v
  | .shfRingHead => s.writeRingHead r.j v
  | .slcCore => slcCoreWrite who (Fin.ofNat 18 r.j) v s
  | .slcCtl => s.writeSliceCtl who sl v
  | .slcSrKey => s.wr r v
  | .slcFrameMin => s.writeFrameMin r.n v
  | .clkRstCtl => s
  | _ => if capReg r && s.fallow && who = .supervisor then s else s.writePlain r v

/-- A write by a sender. -/
def State.csrWrite (s : State) (who : Who) (r : Csr) (v : Word) : State :=
  if !s.reaches who r true then s
  else if !r.inRange || s.csrOff r then s.strayAccess r.offset true
  else s.writeHere who r v

/-! ### Rows of single registers -/

/-- RC_REGISTER_READ, and of any register. -/
def rcRegisterRead (who : Who) (r : Csr) (s : State) : State := s.coreRead who r

/-- REEVE_MSG_READ. -/
def reeveMsgRead (who : Who) (f : FieldId) (high : Bool) (s : State) : State :=
  s.coreRead who ⟨if high then .fldReeveMsgHi else .fldReeveMsg, f.val, 0, 0⟩

/-- SEC_MEAS_READ. -/
def secMeasRead (who : Who) (m : Fin 8) (w : Fin 6) (s : State) : State := s.coreRead who ⟨.secMeas, 0, m.val, w.val⟩

/-- CHP_NODE_ID_WRITE. -/
def chpNodeIdWrite (who : Who) (v : Word) (s : State) : State := s.csrWrite who ⟨.chpNodeId, 0, 0, 0⟩ v
/-- SHF_PART_WRITE. -/
def shfPartWrite (who : Who) (sl : SliceId) (v : Word) (s : State) : State := s.csrWrite who ⟨.shfPart, 0, sl.val, 0⟩ v
/-- SHF_RING_CONFIG_WRITE. -/
def shfRingConfigWrite (who : Who) (sl : SliceId) (base : Bool) (v : Word) (s : State) : State :=
  s.csrWrite who ⟨if base then .shfRingBase else .shfRingCtl, 0, sl.val, 0⟩ v
/-- SHF_RING_HEAD_WRITE. -/
def shfRingHeadWrite (who : Who) (sl : SliceId) (v : Word) (s : State) : State := s.csrWrite who ⟨.shfRingHead, 0, sl.val, 0⟩ v
/-- FRW_CQ_TAIL_WRITE. -/
def frwCqTailWrite (who : Who) (f : FurrowId) (q : QueueId) (v : Word) (s : State) : State := s.csrWrite who (cq .frwCqTail f.val q.val) v
/-- A write of FRW_CQ_CTL_q that sets one bit and leaves LOG2SIZE and EN as they are. -/
def State.queueBit (s : State) (who : Who) (f q i : Nat) : State :=
  let r := cq .frwCqCtl f q
  s.csrWrite who r (BitVec.ofNat 64 (s.rdf r 4 0 + 2 ^ i))
/-- FRW_CQ_ABORT. -/
def frwCqAbort (who : Who) (f : FurrowId) (q : QueueId) (s : State) : State := s.queueBit who f.val q.val 6
/-- FRW_CQ_RESTART. -/
def frwCqRestart (who : Who) (f : FurrowId) (q : QueueId) (s : State) : State := s.queueBit who f.val q.val 5
/-- FRW_QST_CLR_WRITE: a write of FRW_QST_CTL_j with CLR set. -/
def frwQstClrWrite (who : Who) (f : FurrowId) (j : Fin 4) (v : Word) (s : State) : State :=
  s.csrWrite who ⟨.frwQstCtl, f.val, j.val, 0⟩ (v ||| 0x100)
/-- FAB_STT_WORD0_WRITE. -/
def fabSttWord0Write (who : Who) (sl : SliceId) (e : Fin 1024) (v : Word) (s : State) : State := s.csrWrite who (sttReg sl.val e.val 0) v
/-- FAB_TIMEOUT_WRITE. -/
def fabTimeoutWrite (who : Who) (v : Word) (s : State) : State := s.csrWrite who ⟨.fabTimeout, 0, 0, 0⟩ v
/-- FAB_HO_LEASE_WRITE. -/
def fabHoLeaseWrite (who : Who) (v : Word) (s : State) : State := s.csrWrite who ⟨.fabHoLease, 0, 0, 0⟩ v
/-- SLC_FRAME_MIN_WRITE. -/
def slcFrameMinWrite (who : Who) (sl : SliceId) (v : Word) (s : State) : State := s.csrWrite who ⟨.slcFrameMin, sl.val, 0, 0⟩ v
/-- FRW_GLN_REG_WRITE. -/
def frwGlnRegWrite (who : Who) (f : FurrowId) (j : Fin 16) (v : Word) (s : State) : State := s.csrWrite who ⟨.frwGlnReg, f.val, j.val, 0⟩ v
/-- SHP_CFG_WRITE. -/
def shpCfgWrite (who : Who) (p : PortId) (sl : SliceId) (v : Word) (s : State) : State := s.csrWrite who ⟨.shpCfg, p.val, sl.val, 0⟩ v
/-- PRT_POL_WRITE. -/
def prtPolWrite (who : Who) (p : PortId) (sl : SliceId) (v : Word) (s : State) : State := s.csrWrite who ⟨.prtPol, p.val, sl.val, 0⟩ v

/-! ### Commands -/

/-- RC_REGISTER_READ (R10). -/
def execRcRegisterRead (who : Who) (r : Csr) (s : State) : Res := answer (rcRegisterRead who r s)

/-- REEVE_MSG_READ (R490). -/
def execReeveMsgRead (who : Who) (f : FieldId) (high : Bool) (s : State) : Res := answer (reeveMsgRead who f high s)

/-- SEC_MEAS_READ (R490). -/
def execSecMeasRead (who : Who) (m : Fin 8) (w : Fin 6) (s : State) : Res := answer (secMeasRead who m w s)

/-- CHP_NODE_ID_WRITE (R497). -/
def execChpNodeIdWrite (who : Who) (v : Word) (s : State) : Res := answer (chpNodeIdWrite who v s)

/-- SHF_PART_WRITE (R44). -/
def execShfPartWrite (who : Who) (sl : SliceId) (v : Word) (s : State) : Res := answer (shfPartWrite who sl v s)

/-- SHF_RING_CONFIG_WRITE (R43). -/
def execShfRingConfigWrite (who : Who) (sl : SliceId) (base : Bool) (v : Word) (s : State) : Res :=
  answer (shfRingConfigWrite who sl base v s)

/-- SHF_RING_HEAD_WRITE (R43). -/
def execShfRingHeadWrite (who : Who) (sl : SliceId) (v : Word) (s : State) : Res :=
  answer (shfRingHeadWrite who sl v s)

/-- FRW_CQ_TAIL_WRITE (R94). -/
def execFrwCqTailWrite (who : Who) (f : FurrowId) (q : QueueId) (v : Word) (s : State) : Res :=
  answer (frwCqTailWrite who f q v s)

/-- FRW_CQ_ABORT (R107). -/
def execFrwCqAbort (who : Who) (f : FurrowId) (q : QueueId) (s : State) : Res := answer (frwCqAbort who f q s)

/-- FRW_CQ_RESTART (R94). -/
def execFrwCqRestart (who : Who) (f : FurrowId) (q : QueueId) (s : State) : Res := answer (frwCqRestart who f q s)

/-- FRW_QST_CLR_WRITE (R158). -/
def execFrwQstClrWrite (who : Who) (f : FurrowId) (j : Fin 4) (v : Word) (s : State) : Res :=
  answer (frwQstClrWrite who f j v s)

/-- FAB_STT_WORD0_WRITE (R287). -/
def execFabSttWord0Write (who : Who) (sl : SliceId) (e : Fin 1024) (v : Word) (s : State) : Res :=
  answer (fabSttWord0Write who sl e v s)

/-- FAB_TIMEOUT_WRITE (R297). -/
def execFabTimeoutWrite (who : Who) (v : Word) (s : State) : Res := answer (fabTimeoutWrite who v s)

/-- FAB_HO_LEASE_WRITE (R29). -/
def execFabHoLeaseWrite (who : Who) (v : Word) (s : State) : Res := answer (fabHoLeaseWrite who v s)

/-- SLC_FRAME_MIN_WRITE (R232). -/
def execSlcFrameMinWrite (who : Who) (sl : SliceId) (v : Word) (s : State) : Res :=
  answer (slcFrameMinWrite who sl v s)

/-- FRW_GLN_REG_WRITE (R243). -/
def execFrwGlnRegWrite (who : Who) (f : FurrowId) (j : Fin 16) (v : Word) (s : State) : Res :=
  answer (frwGlnRegWrite who f j v s)

/-- SHP_CFG_WRITE (R332). -/
def execShpCfgWrite (who : Who) (p : PortId) (sl : SliceId) (v : Word) (s : State) : Res :=
  answer (shpCfgWrite who p sl v s)

/-- PRT_POL_WRITE (R333). -/
def execPrtPolWrite (who : Who) (p : PortId) (sl : SliceId) (v : Word) (s : State) : Res :=
  answer (prtPolWrite who p sl v s)

end Sys2Proof.Machine
end

