-- ==== Sys2Proof/Machine/Reset.lean ====
section
/-! DEFINITION. Resets (R399, R415, R416, R422 to R424, R454, R480 to R486): the cold power-up sequence with the boot chain,
the warm reset, and the reset of the control cluster. -/

namespace Sys2Proof.Machine

/-- A RESET record and CAUSE: type 1 WARM, 2 COLD, 3 CLUSTER (R483). -/
def State.resetRecord (s : State) (type cause : Nat) (saved : Bool) : State :=
  (s.wrf ⟨.clkRstCtl, 0, 0, 0⟩ 15 8 cause).record 0x11 0 0xFFFF (toBytes 1 type ++ toBytes 1 cause ++ toBytes 1 (bitVal saved 0))

/-! ### Images of a boot (R422, R423) -/

/-- The bank from which an image of a type boots: the active one, else the other, each rejected one recorded. -/
def State.bootImage (s : State) (type : Nat) : Option Image × State :=
  let a := s.almanac.bank % 2
  let i := s.imageIn a type
  let code := s.verify type i
  let s := s.judge code i
  if code = 0 then (some i, s)
  else
    let k := s.imageIn (1 - a) type
    let code := s.verify type k
    let s := s.judge code k
    if code = 0 then (some k, s.wrf ⟨.secStatus, 0, 0, 0⟩ 2 2 1) else (none, s)

/-- An image boots: it is measured into M_i and kept. -/
def State.boots (s : State) (type m : Nat) (i : Image) : State :=
  let s := s.extend m i.digest
  { s with bootImages := Table.set s.bootImages type (i.payload, i.load, i.entry), versions := Table.set s.versions type i.version }

/-- Stage 4: the configuration's register list, and its management settings (R422, R423). -/
def State.applyConfig (s : State) : State :=
  (configEntries (Table.get (([] : List Byte), 0, 0) s.bootImages 5).1).foldl (fun s e =>
    match Csr.ofOffset e.1 with
    | some r => s.csrWrite .config r e.2
    | none => { s with mgmtNet := Table.set s.mgmtNet ((e.1 - 0x400800) / 8) e.2 }) s

/-- A hart starts: its core leaves HOLD and begins as told (R399). -/
def State.startHart (s : State) (h : Nat) (x : Hart) : State :=
  match s.harts[h]? with
  | none => s
  | some c =>
    let s := (s.wrf ⟨.slcCore, 0, c, 0⟩ 7 7 0).modUnit (.core (Fin.ofNat 18 c)) (fun x => { x with fenced := false })
    { s with started := Table.set s.started h x }

/-- Hart 0 runs alone, in machine mode, from the loader's entry point, and the heartbeat begins (R399, R424). -/
def State.releaseHart (s : State) (entry : Nat) : State :=
  if s.harts.isEmpty then s
  else { s.startHart 0 { mode := .machine, entry, args := none } with hartFrom := some s.time, beatAt := s.time }

/-- Stage 5: the loader is copied to LOAD, the control slice is ACTIVE, and hart 0 is released. -/
def State.runLoader (s : State) : State :=
  let (payload, a, entry) := Table.get (([] : List Byte), 0, 0) s.bootImages 2
  let s := (s.controlFrames a payload.length).gwrite a payload false
  (s.wrf (slcCtl 0) 2 0 2).releaseHart entry

/-! ### Self-test and repair (R133, R398, R454) -/

/-- A unit is failed from the start. -/
def State.failAtBoot (s : State) (u : UnitId) : State := s.modUnit u (fun x => { x with failed := true, mgmt := .failed })

/-- Self-test of cold boot `n`: repair maps, the repair set in the REPAIR region, units beyond repair, the active cores (R398,
R454) with the spare ones off until they are needed (R456; log entry 6), M3 and the lock stage REPAIR. -/
def State.selfTest (s : State) (n : Nat) : State :=
  let s := (List.range 8).foldl (fun s k =>
    let m := repairMap n k
    let s := ((s.wr ⟨.thrRmapRow, k, 0, 0⟩ m.1).wr ⟨.thrRmapCol0, k, 0, 0⟩ m.2.1).wr ⟨.thrRmapCol1, k, 0, 0⟩ m.2.2
    if s.beyondRepair k then s.failAtBoot (.thresher (Fin.ofNat 8 k)) else s) s
  let s := (List.range 64).foldl (fun s f =>
    if Config.repairFails n f then { s with domains := s.domains.filter (· != f) }.failAtBoot (.furrow (Fin.ofNat 64 f)) else s) s
  let bad := (List.range 18).filter (fun c => Config.repairFails n (0x300 + c))
  let s := bad.foldl (fun s c => s.failAtBoot (.core (Fin.ofNat 18 c))) s
  let good := (List.range 18).filter (fun c => !bad.contains c)
  let s := { s with harts := good.take 16 }
  let s := (good.drop 16).foldl (fun s c =>
    { s with domains := s.domains.filter (· != 96 + c) }.modUnit (.core (Fin.ofNat 18 c)) (fun x => { x with mgmt := .off })) s
  let s := (List.finRange 18).foldl (fun s c => s.modUnit (.core c) (fun x => { x with fenced := true })) s
  let set := repairSet n
  let s := { s with almanac := { s.almanac with repairs := (set :: s.almanac.repairs).take 4 } }
  let s := if 1 < n && sparesUsed (n - 1) < sparesUsed n then
      s.record 0x08 1 0xFFFF (toBytes 48 (Config.sha384 set).toNat ++ toBytes 4 (sparesUsed n))
    else s
  (s.extend 3 (Config.sha384 set)).wrf ⟨.secLock, 0, 0, 0⟩ 0 0 1

/-! ### Cold boot (R416, R422, R481, Table 16-4, Table 18-7) -/

/-- Stage 1: the cold-boot count, the identity, what registers show of the Almanac, and M0. -/
def State.bootStage1 (s : State) : State :=
  let s := s.stateUpdate (fun a => { a with boots := a.boots + 1 })
  let n := s.almanac.boots
  let s := (List.range 16).foldl (fun s i => s.wr ⟨.secArb, 0, i, 0⟩ (BitVec.ofNat 64 (Table.get 0 s.almanac.rollback i))) s
  let s := s.wrf ⟨.secStatus, 0, 0, 0⟩ 1 1 (s.almanac.bank % 2)
  let s := if pufMatches n then s else (s.wrf ⟨.secStatus, 0, 0, 0⟩ 0 0 1).record 0x0E 2 0xFFFF (toBytes 1 3)
  let s := { s with
    trees := s.almanac.leaf / 1024 + 1
    ports := (List.range 24).map (fun p => (p, { incarnation := 4096 * n % 65536 })) }
  s.extend 0 Config.romDigest

/-- Steps 6 to 9: rails, PLLs and domains. -/
def State.powerUp (s : State) : State :=
  { s with powered := true, rails := List.range 7, domains := List.range 118 }.wrf ⟨.clkPllStatus, 0, 0, 0⟩ 2 0 7

/-- The stages from 2 on; recovery where both images of a type are rejected. -/
def State.bootChain (s : State) : State :=
  match s.bootImage 1 with
  | (none, s) => { s with recovery := true }
  | (some firmware, s) =>
    let s := ((s.boots 1 1 firmware).powerUp).selfTest s.almanac.boots
    match s.bootImage 5 with
    | (none, s) => { s with recovery := true }
    | (some config, s) =>
      let s := (s.boots 5 2 config).applyConfig
      match s.bootImage 2 with
      | (none, s) => { s with recovery := true }
      | (some loader, s) => (s.boots 2 4 loader).runLoader

/-- COLD_RESET: only the Almanac is kept; the sequence runs from its first step. -/
def coldReset (cause : Nat) (s : State) : State := (s.unpowered.bootStage1.resetRecord 2 cause false).bootChain

/-! ### Warm reset (R59, R484, R485, Tables 18-9 and 18-10) -/

/-- The save area is as R485 asks: 129 contiguous pinned kind-3 frames of slice 0 from BASE on. -/
def State.saveArea (s : State) : Option Nat :=
  let b := (s.rd ⟨.clkRstSaveBase, 0, 0, 0⟩).toNat
  let n := b / 65536
  let ok (i : Nat) : Bool := let d := s.frame i; d.kind = 3 && d.pin && d.held && d.slice = 0
  if b != 0 && b % 65536 = 0 && (List.range 129).all (fun i => frameNameable (n + i) && ok (n + i)) then some b else none

/-- The four stores and their CRCs are written to the save area. -/
def State.saveStores (s : State) (a : Nat) : State :=
  let m := s.mem.clear a (129 * 65536)
  let m := s.sheaf.foldl (fun (m : Memory) (p : Nat × SheafEntry) => m.writeBytes (a + 256 * p.1) p.2.image) m
  let m := (List.range 4).foldl (fun (m : Memory) f =>
    m.writeNat (a + 128 * 65536 + 16 * f) 4 (crc32 (m.readBytes (a + f * 0x200000) 0x200000))) m
  { s with mem := m }

/-- Every byte of a set of addresses is zero. -/
def Memory.zeroWhere (m : Memory) (p : Nat → Bool) : Memory := { m with cells := m.cells.filter (fun c => !p c.1) }

/-- The references of every geometry record are 0 (R485). -/
def State.clearGeoRefs (s : State) : State :=
  if s.geoBase = 0 then s
  else
    let b := s.geoBase
    { s with mem := s.mem.zeroWhere (fun a => decide (b ≤ a) && decide (a < b + 32 * 2 ^ 20) && decide (4 ≤ (a - b) % 32) && decide ((a - b) % 32 < 8)) }

/-- REFS of every slot of the adapter directory are 0 (R485). -/
def State.clearAdpRefs (s : State) : State :=
  match s.adpSize with
  | none => s
  | some l =>
    (List.range (4 * 2 ^ l)).foldl (fun s i =>
      let a := s.adpEntry (i / 4) + 0x18 + 16 * (i % 4)
      let w := s.gword a
      if fld w 49 26 = 0 then s else s.setGword a (setFld w 49 26 0)) s

/-- Records of every journal that are in use. -/
def State.openRecords (s : State) : List (Nat × Nat) :=
  (List.range 64).flatMap fun sl =>
    match s.jnlSize sl with
    | none => []
    | some l => ((List.range (2 ^ l)).filter (fun j => (s.jnlAt sl j).phase != 0)).map (fun j => (sl, j))

/-- What stands when the stores cannot be restored (R485). -/
def State.loseStores (s : State) : State :=
  let s := (s.openRecords.foldl (fun s p => s.freeJnl p.1 p.2) s).clearGeoRefs.clearAdpRefs
  { s with sheaf := [] }

/-- R59 for an entry: nothing of the step in progress is committed; a recorded loss or teardown applies. -/
def State.warmEntry (s : State) (i : Nat) : State :=
  let e := s.entry i
  let s := s.setEntry i
    { e with inStep := false, tail := 0, vcommit := none, changePending := false, pendingState := none, heldWrites := [],
             lossRecorded := false, teardownRecorded := false }
  if e.lossRecorded then s.transition i .lost rStateLost
  else if e.teardownRecorded then s.transition i .aborted rAbortSlice
  else s

/-- Deferred edits in issue order. -/
def editInsert (e : DeferredEdit) : List DeferredEdit → List DeferredEdit
  | [] => [e]
  | d :: t => if e.id < d.id then e :: d :: t else d :: editInsert e t

/-- Every walk ends, and the edits that waited are applied in issue order (R59). -/
def State.warmTables (s : State) : State :=
  let s := s.walks.foldl (fun s w => s.walkEnd w.id) s
  let s := s.holdBooks (s.furrows.flatMap (fun p => p.2.ops.flatMap (fun o => o.books))) false
  let edits := s.deferredEdits.foldr editInsert []
  let s := { s with deferred := [], desc := s.desc.map (fun p => (p.1, { p.2 with walks := 0 })) }
  edits.foldl (fun s e => s.applyEdit e.opc e.sel e.handle e.param) s

/-- Registers that Table 18-9 lists as lost: those of queues and exceptions, what ports show and count, merge groups. -/
def warmLost (r : Csr) : Bool :=
  queueReg r || r.reg = .fabMgStatus ||
    ([.frwExcStatus, .frwExcPc, .frwExcInfo, .prtStatus, .prtStatusTime, .prtLaneMap, .prtLaneStatus, .prtTimeDelay, .prtTimeOff,
      .prtPvStatus, .prtFecCorrCnt, .prtFecUncorrCnt, .prtCrcCnt, .prtLinkErrCnt, .prtReplayCnt, .prtRemapCnt, .prtRetrainCnt,
      .prtFeedPwr, .prtCredit, .prtPvCnt, .prtPolCnt] : List RegName).contains r.reg

/-- Writes of operand-SRAM ownership that waited for a tile are applied: no tile is left (R138). -/
def State.ownersApplied (s : State) : State :=
  s.arrays.foldl (fun s p => p.2.heldOwn.foldl (fun s w => s.wr ⟨.thrOpsOwn, p.1, w.1, 0⟩ w.2) s) s

/-- Step 4 for everything but tables and entries: what Table 18-9 lists as lost is lost. -/
def State.warmUnits (s : State) : State :=
  let s := (s.deltas.filter (fun d => d.made)).foldl (fun s d => s.freeFrame d.frame) s
  let s := s.ownersApplied.resetRegs warmLost
  { s with
    furrows := s.furrows.map (fun p =>
      (p.1, { nextOp := p.2.nextOp, srCount := p.2.srCount, imem := p.2.imem, imageLen := p.2.imageLen }))
    arrays := s.arrays.map (fun p =>
      (p.1, { gleaned := p.2.gleaned, tiles := p.2.tiles, spareMiss := p.2.spareMiss, srCount := p.2.srCount, checkRec := p.2.checkRec }))
    winnow := []
    sieve := []
    scrubbed := []
    scrubFixed := 0
    scrubPoisoned := 0
    ahead := []
    fabOps := []
    closedTags := []
    tx := s.tx.map (fun p => (p.1, { p.2 with resync := true }))
    rx := s.rx.map (fun p => (p.1, { p.2 with held := [], holeSince := none, loads := [], opened := none }))
    arrived := []
    answers := []
    groups := []
    abortFilter := []
    reasm := []
    jobs := []
    exchanges := []
    adoptions := []
    pushes := []
    deltas := []
    rebuilds := []
    desc := s.desc.map (fun p => (p.1, if p.2.pool = 2 then { p.2 with pool := 1 } else p.2))
    demoting := []
    evicting := false
    fallowTails := []
    irqs := s.irqs.filter (fun i => 68 < i && i != 137)
    ports := (List.range 24).map (fun p =>
      let x := s.port p
      (p, { incarnation := (x.incarnation + 1) % 65536, coefficients := x.coefficients, shapers := x.shapers, policers := x.policers, warmed := true })) }

/-- Cores are reset: each unbound and in HOLD, none stopped by a machine check (R399); their caches and their interrupt
controller are lost. -/
def State.resetCores (s : State) : State :=
  ((List.finRange 18).foldl (fun s c =>
    (s.wr ⟨.slcCore, 0, c.val, 0⟩ 0x80).modUnit (.core c) (fun x =>
      { x with fenced := true, failed := x.failed && decide (x.mgmt = .failed) })) s).dropCluster

/-- Fallow mode ends with a reset (R415). -/
def State.leaveFallow (s : State) : State :=
  if s.fallow then (s.wrf ⟨.chpFallow, 0, 0, 0⟩ 0 0 0).record 0x12 0 0xFFFF (toBytes 1 0) else s

/-- Ports pass through OFF, reason POWER_OFF, and those that may train again (R484). -/
def State.restartPorts (s : State) : State :=
  (List.range 24).foldl (fun s p => (s.portGo p 0 0x0D).portStart p 1) s

/-- The steps of a warm reset of a device that runs. -/
def State.warm (s : State) (cause : Nat) : State :=
  let area := s.saveArea
  let s := match area with
    | none => s
    | some a => s.saveStores a
  let s := s.warmTables
  let s := (s.sheaf.map (·.1)).foldl (fun s i => s.warmEntry i) s
  let s := s.warmUnits.resetCores.leaveFallow
  let s := if area.isNone then s.loseStores else s
  let r : Csr := ⟨.clkRstStatus, 0, 0, 0⟩
  let s := (s.wrf r 0 0 (bitVal area.isSome 0)).count r 63 32 1
  let s := { s with resolving := s.openRecords }
  let s := s.wrf r 1 1 (bitVal (!s.resolving.isEmpty) 0)
  (((s.resetRecord 1 cause area.isSome).restartPorts).applyConfig).runLoader

/-- WARM_RESET, of a device that has booted and is not in minimal-power mode. -/
def warmReset (cause : Nat) (s : State) : State := if s.powered && !s.minimal && !s.recovery then s.warm cause else s

/-! ### Cluster reset (R415) -/

/-- The handover interrupts of slices with an UNRESOLVED record are raised again (Table 18-11). -/
def State.raiseHandovers (s : State) : State :=
  (s.openRecords.filter (fun p => (s.jnlAt p.1 p.2).phase = 11)).foldl (fun s p => s.assertIrq (73 + p.1)) s

/-- CLUSTER_RESET: every core is held, the control cluster alone is reset, and the chain of R399 runs from the loader on.
Bindings stand (R493). -/
def clusterReset (cause : Nat) (s : State) : State :=
  if s.powered && !s.minimal && !s.recovery then
    let s := ((List.finRange 18).foldl (fun s c =>
      (s.wrf ⟨.slcCore, 0, c.val, 0⟩ 7 7 1).modUnit (.core c) (fun x =>
        { x with fenced := true, failed := x.failed && decide (x.mgmt = .failed) })) s).dropCluster
    ((s.resetRecord 3 cause false).raiseHandovers).runLoader
  else s

/-! ### Rows of CLK_RST_CTL -/

/-- A write of any register. CMD of CLK_RST_CTL asks for a reset (Table 18-9, Table 18-13): 1 only from a supervisor core, 2 from
whoever reaches the register. -/
def registerWrite (who : Who) (r : Csr) (v : Word) (s : State) : State :=
  if r.reg = .clkRstCtl && r.inRange && s.reaches who r true then
    match fld v 1 0 with
    | 1 => if who = .supervisor then warmReset 6 s else s
    | 2 => clusterReset 8 s
    | _ => s
  else s.csrWrite who r v

/-! ### Commands -/

/-- COLD_RESET (R481). -/
def execColdReset (cause : Nat) (s : State) : Res := answer (coldReset cause s)

/-- WARM_RESET (R484). -/
def execWarmReset (cause : Nat) (s : State) : Res := answer (warmReset cause s)

/-- CLUSTER_RESET (R415). -/
def execClusterReset (cause : Nat) (s : State) : Res := answer (clusterReset cause s)

/-- REGISTER_WRITE (R10). -/
def execRegisterWrite (who : Who) (r : Csr) (v : Word) (s : State) : Res := answer (registerWrite who r v s)

end Sys2Proof.Machine
end

