-- ==== Sys2Proof/Machine/Hmp.lean ====
section
/-! DEFINITION. The management port (R397, R403 to R411, R432, R464, R475, R490, R492): sessions, and the commands of the HMP
message set. Where Table 15-9 names a body's fields without offsets, they stand in its order, little-endian, 4 bytes each and 8
for addresses, values and request IDs (log entry 35). -/

namespace Sys2Proof.Machine

/-- Headland runs: the device has booted, or waits in recovery. -/
def State.headlandUp (s : State) : Bool := s.powered || s.recovery

/-- Commands that Headland serves now (R422, R482); others are answered BUSY. -/
def State.serves (s : State) (type : Nat) : Bool :=
  (!s.recovery || ([0x01, 0x04, 0x1F, 0x11, 0x12, 0x0C] : List Nat).contains type) &&
    (!s.minimal || ([0x01, 0x04, 0x0E, 0x1F, 0x0C] : List Nat).contains type)

/-- An operation of a session. -/
def SecOp.ofSession (o : SecOp) (c : Nat) : Bool :=
  match o with
  | .report x _ _ => x.any (fun x => x.val = c)
  | .hmp x _ _ _ => x.val = c
  | .mbox _ _ => false

/-- Commands of a session that have not been answered yet. -/
def State.outstanding (s : State) (c : Nat) : Nat :=
  (s.secQueue.filter (fun o => o.ofSession c)).length + (s.units.filter (fun p => p.2.reconFor.any (fun x => x.val = c))).length

/-- Headland takes a command of a session: one it serves now, with fewer than 16 outstanding (R407; log entry 35). -/
def State.takes (s : State) (c type : Nat) : Bool := s.serves type && s.outstanding c < 16

/-- A command of a session that gives a status, a body and an effect, and its answer. -/
def State.hmpCommand (s : State) (c : Sender) (type : Nat) (f : State → Nat × List Byte × State) : State :=
  if (s.session? c.val).isNone then s
  else
    let s := s.hmpClear
    if !s.takes c.val type then s.hmpReply c type 5 []
    else
      let (status, body, s) := f s
      s.hmpReply c type status body

/-- A body of another length is BAD_LENGTH and has no effect (R407). -/
def needs (n : Nat) (body : List Byte) (f : State → Nat × List Byte × State) (s : State) : Nat × List Byte × State :=
  if body.length = n then f s else (2, [], s)

/-! ### Information -/

/-- HELLO (R416). -/
def hello (c : Sender) (body : List Byte) (s : State) : State :=
  s.hmpCommand c 0x01 (needs 0 body (fun s =>
    (0, toBytes 8 (s.rd ⟨.chpId, 0, 0, 0⟩).toNat ++ toBytes 8 (s.rd ⟨.chpSerial, 0, 0, 0⟩).toNat ++ toBytes 8 s.node ++
      toBytes 8 s.almanac.boots ++ bankTypes.flatMap (fun t => toBytes 8 (Table.get 0 s.versions t)) ++ Config.identityKeys, s)))

/-- One register read of a sequence. -/
def State.hmpRead (s : State) (off : Nat) : Word × State :=
  match Csr.ofOffset off with
  | none => (0, s.strayAccess off false)
  | some r =>
    let (v, s) := s.csrRead .hmp r
    (v.getD 0, s)

/-- CSR_READ: an offset of the window that is unaligned is BAD_PARAM (R490). -/
def csrRead (c : Sender) (body : List Byte) (s : State) : State :=
  s.hmpCommand c 0x02 (needs 12 body (fun s =>
    let off := leAt body 0 8
    let n := leAt body 8 4
    if off % 8 != 0 || n < 1 || 64 < n || 0x6000000 < off + 8 * n then (3, [], s)
    else
      let r := (List.range n).foldl (fun (r : List Byte × State) i =>
        let (v, s) := r.2.hmpRead (off + 8 * i)
        (r.1 ++ toBytes 8 v.toNat, s)) ([], s)
      (0, r.1, r.2)))

/-- What a read-modify-write writes: bits outside the mask keep their value, and W1C bits outside it are left alone (log
entry 33). -/
def State.masked (s : State) (r : Csr) (v m : Word) : Word :=
  let p := r.reg.spec
  ((s.shown r &&& p.readMask &&& ~~~ (p.maskOf (fun a => a = .w1c))) &&& ~~~ m) ||| (v &&& m)

/-- CSR_WRITE; an RWL field after its lock is LOCKED (Table 15-9). -/
def csrWrite (c : Sender) (body : List Byte) (s : State) : State :=
  s.hmpCommand c 0x03 (needs 24 body (fun s =>
    let off := leAt body 0 8
    let v := wordAt body 8
    let m := wordAt body 16
    if off % 8 != 0 || 0x6000000 ≤ off then (3, [], s)
    else
      match Csr.ofOffset off with
      | none => (0, [], s.strayAccess off true)
      | some r =>
        let locked := s.lockedReg r && (r.reg.spec.maskOf (fun a => a = .rwl) &&& m) != 0
        (if locked then 4 else 0, [], registerWrite .hmp r (s.masked r v m) s)))

/-- ALMANAC_READ (R464). -/
def almanacRead (c : Sender) (body : List Byte) (s : State) : State :=
  s.hmpCommand c 0x04 (needs 16 body (fun s =>
    let region := leAt body 0 4
    let n := leAt body 12 4
    if 7 < region || n < 1 || 256 < n then (3, [], s)
    else
      let (rs, s) := s.almFetch region (leAt body 4 8) n
      (0, rs.flatten, s)))

/-! ### Units (R408 to R411) -/

/-- UNIT_STATUS: both views, whether they agree, and the unit's exclusions (Table 15-9, R452). -/
def unitStatus (c : Sender) (body : List Byte) (s : State) : State :=
  s.hmpCommand c 0x06 (needs 4 body (fun s =>
    match unitOfCode (leAt body 0 4) with
    | none => (3, [], s)
    | some u => (0, toBytes 4 (s.unit u).mgmt.code ++ toBytes 4 (s.pathView u).code ++ toBytes 4 (bitVal (s.agrees u) 0) ++
        (s.almanac.exclusions.filter (fun e => e.1 = u)).flatMap (fun e => toBytes 4 e.2), s)))

/-- A command of Headland's own to a unit's Reeve. -/
def State.headlandTells (s : State) (u : UnitId) (code : Nat) : State := s.reeveBy .hmp ((unitFields u).headD 0) code u

/-- The management view is set with the Reeve commands that lead there (R410). -/
def State.setView (s : State) (u : UnitId) (view : Nat) : State :=
  let on := s.domainOn (unitDomain u)
  match view with
  | 0 => (if on then s else s.headlandTells u 2).headlandTells u 5
  | 1 => if on then s.headlandTells u 4 else s.headlandTells u 2
  | _ => if on then s.headlandTells u 3 else s.modUnit u (fun x => { x with mgmt := .off, lastCmd := some s.time })

/-- UNIT_SET: IN_SERVICE, FENCED or OFF; a FAILED unit is FAILED, one being reconciled BUSY (R411). -/
def unitSet (c : Sender) (body : List Byte) (s : State) : State :=
  s.hmpCommand c 0x07 (needs 8 body (fun s =>
    match unitOfCode (leAt body 0 4) with
    | none => (3, [], s)
    | some u =>
      if 2 < leAt body 4 4 then (3, [], s)
      else if (s.unit u).recon != 0 then (5, [], s)
      else if (s.unit u).mgmt = .failed then (7, [], s)
      else (0, [], s.setView u (leAt body 4 4))))

/-- UNIT_RECONCILE: answered when the reconciliation ends (R411); of a unit that is not FAILED it is BAD_PARAM. -/
def unitReconcile (c : Sender) (body : List Byte) (s : State) : State :=
  let refuse (status : Nat) : State := s.hmpCommand c 0x08 (fun s => (status, [], s))
  if body.length != 4 then refuse 2
  else
    match unitOfCode (leAt body 0 4) with
    | none => refuse 3
    | some u =>
      if (s.session? c.val).isNone || !s.takes c.val 0x08 then refuse 5
      else if (s.unit u).recon != 0 then refuse 5
      else if (s.unit u).mgmt != .failed then refuse 3
      else s.hmpClear.reconcile u (some c)

/-! ### Meters, journals and power -/

/-- METER_READ: snapshots that are kept, from a sequence number on (R397). -/
def meterRead (c : Sender) (body : List Byte) (s : State) : State :=
  s.hmpCommand c 0x09 (needs 12 body (fun s =>
    let sl := leAt body 0 4
    if 64 ≤ sl then (3, [], s)
    else
      let xs := ((Table.get [] s.snapshots sl).filter (fun x => leAt body 4 4 ≤ x.seq)).take (leAt body 8 4)
      (0, xs.flatMap (meterReport sl), s)))

/-- JOURNAL_READ: words 0x08 and 0x20 of the matching record (R350). -/
def journalRead (c : Sender) (body : List Byte) (s : State) : State :=
  s.hmpCommand c 0x0A (needs 12 body (fun s =>
    let sl := leAt body 0 4
    if 64 ≤ sl then (3, [], s)
    else
      match s.jnlFind sl (fun r => r.phase != 0 && r.request == wordAt body 4) with
      | none => (8, [], s)
      | some j =>
        let a := s.jnlAddr sl j
        (0, toBytes 8 (s.gword (a + 8)).toNat ++ toBytes 8 (s.gword (a + 0x20)).toNat, s)))

/-- The slice entries of a POWER_CAP (Table 18-5). -/
def State.setSliceCaps (s : State) (body : List Byte) (n : Nat) : State :=
  (List.range n).foldl (fun s j =>
    let w := leAt body (4 + 4 * j) 4
    s.wrf ⟨.tltSliceCap, 0, w % 64, 0⟩ 15 0 (bits w 31 16)) s

/-- POWER_CAP (R475, R482): MINIMAL enters minimal-power mode. -/
def powerCap (c : Sender) (body : List Byte) (s : State) : State :=
  s.hmpCommand c 0x0B (fun s =>
    let w := leAt body 0 4
    let n := bits w 31 24
    if body.length < 4 then (2, [], s)
    else if w.testBit 16 then (0, [], s.minimalPower 9)
    else if 64 < n then (3, [], s)
    else if body.length != 4 + 4 * n then (2, [], s)
    else if bits w 15 0 < 300 || 820 < bits w 15 0 then (3, [], s)
    else (0, [], (s.wrf ⟨.tltPkgCap, 0, 0, 0⟩ 15 0 (bits w 15 0)).setSliceCaps body n))

/-! ### Sessions (R403, R404) -/

/-- SESSION_CFG: bit 0 REPORTS, bit 1 EVENTS. -/
def sessionCfg (c : Sender) (body : List Byte) (s : State) : State :=
  s.hmpCommand c 0x0E (needs 4 body (fun s =>
    let w := leAt body 0 4
    (0, [], s.modSession c.val (fun x => { x with reports := w.testBit 0, events := w.testBit 1 }))))

/-- The TCP port Headland listens on (R403, Table 16-10). -/
def State.tcpPort (s : State) : Nat :=
  let w := Table.get 0 s.mgmtNet 7
  if fld w 15 0 = 0 then 7346 else fld w 15 0

/-- A handshake that opens a session (R404): the offered mode, group and suite, nothing beyond them, the PSK identity of this node
and the present management key. -/
def State.admits (s : State) (h : Handshake) : Bool :=
  h.pskDhe && h.p384 && h.aes256 && !h.beyond && h.key = s.almanac.key &&
    h.identity = toBytes 8 (s.rd ⟨.chpSerial, 0, 0, 0⟩).toNat ++ toBytes 2 s.node

/-- SESSION_OPEN: a handshake under the present management key opens a session in a free place; a fifth connection, or one to
another port, is refused at TCP; a failure is counted, and recorded at most once a minute. -/
def sessionOpen (port : Nat) (h : Handshake) (s : State) : State :=
  if !s.headlandUp || port != s.tcpPort then s
  else
    match firstBelow 4 (fun c => !Table.has s.sessions c) with
    | none => s
    | some c =>
      if s.admits h then
        { s with sessions := Table.set s.sessions c { key := s.almanac.key, secret := Config.sessionSecret s.almanac.key s.drawn },
                 drawn := s.drawn + 1 }
      else
        let s := { s with handshakeFails := s.handshakeFails + 1 }
        let due := match s.handshakeRec with
          | none => true
          | some t => t + 60000000000 ≤ s.time
        if due then { s with handshakeRec := some s.time }.record 0x0E 1 0xFFFF (toBytes 1 1 ++ toBytes 7 s.handshakeFails) else s

/-- SESSION_CLOSE: what waits for the session's answers is dropped. -/
def sessionClose (c : SessionId) (s : State) : State :=
  let q := s.secQueue.filter (fun o => !o.ofSession c.val)
  let s := { s with
    sessions := Table.erase s.sessions c.val
    secQueue := q
    units := s.units.map (fun (p : UnitId × UnitState) => (p.1, if p.2.reconFor.any (fun (x : Sender) => x.val = c.val) then { p.2 with reconFor := none } else p.2)) }
  s.secDrain q.length

/-- The TYPE values of commands (Table 15-9, Table 16-8). -/
def hmpType (t : Nat) : Bool := (1 ≤ t && t ≤ 0x0E) || (0x10 ≤ t && t ≤ 0x16) || t = 0x1F

/-- HMP_BAD_MESSAGE: a reserved TYPE or another VERSION is BAD_TYPE, a LENGTH out of range BAD_LENGTH; nothing else happens
(R406, R407). -/
def hmpBadMessage (c : Sender) (type version length : Nat) (s : State) : State :=
  if (s.session? c.val).isNone then s
  else if !hmpType type || version != 1 then s.hmpClear.hmpReply c type 1 []
  else if (if type = 0x11 then 1048640 else 65536) < length then s.hmpClear.hmpReply c type 2 []
  else s

/-- PTP_MESSAGE: an offset steers system time while no port has UPSTREAM set (R405). -/
def ptpMessage (offset : Option Int) (s : State) : State :=
  match offset with
  | none => s
  | some d => if s.headlandUp && (List.range 24).all (fun p => !s.rdb ⟨.prtTime, p, 0, 0⟩ 1) then s.steer d else s

/-! ### Protected operations (R432) -/

/-- CHALLENGE: a fresh nonce replaces the session's challenge. -/
def challenge (c : Sender) (body : List Byte) (s : State) : State :=
  s.hmpCommand c 0x1F (needs 0 body (fun s =>
    let n := Config.randomNonce s.drawn
    let s := { s with drawn := s.drawn + 1 }
    (0, toBytes 48 n.toNat, s.modSession c.val (fun x => { x with challenge := some (n, s.time) }))))

/-- An operation of chapter 16 that takes its turn, if Headland serves it and its length is in range. -/
def State.hmpSubmit (s : State) (c : Sender) (type : Nat) (lengthOk : Bool) (o : SecOp) : State :=
  if (s.session? c.val).isNone then s
  else
    let s := s.hmpClear
    if !s.takes c.val type then s.hmpReply c type 5 []
    else if !lengthOk then s.hmpReply c type 2 []
    else s.secSubmit o

/-- ATTEST. -/
def attest (c : Sender) (body : List Byte) (s : State) : State :=
  s.hmpSubmit c 0x10 (body.length = 48) (.report (some c) 0 body)

/-- The challenge a session holds that has not lapsed: 60 s after its issue it has (R432). -/
def State.liveChallenge (s : State) (c : Nat) : Option (BitVec 384) :=
  (s.session? c).bind fun x => x.challenge.bind fun p => if s.time < p.2 + 60000000000 then some p.1 else none

/-- A protected command of a session: it consumes the challenge that is live as it arrives. -/
def State.protectedCommand (s : State) (c : Sender) (type : Nat) (body : List Byte) : State :=
  let fits := body.length ≤ if type = 0x11 then 1048640 else 65536
  let o : SecOp := .hmp c type body (s.liveChallenge c.val)
  if s.takes c.val type && fits then (s.modSession c.val (fun x => { x with challenge := none })).hmpSubmit c type fits o
  else s.hmpSubmit c type fits o

/-- IMAGE_PUT. -/
def imagePut (c : Sender) (body : List Byte) (s : State) : State := s.protectedCommand c 0x11 body
/-- IMAGE_ACTIVATE. -/
def imageActivate (c : Sender) (body : List Byte) (s : State) : State := s.protectedCommand c 0x12 body
/-- ROLLBACK_COMMIT. -/
def rollbackCommit (c : Sender) (body : List Byte) (s : State) : State := s.protectedCommand c 0x13 body
/-- OWNER_KEY_SET. -/
def ownerKeySet (c : Sender) (body : List Byte) (s : State) : State := s.protectedCommand c 0x14 body
/-- MGMT_KEY_SET. -/
def mgmtKeySet (c : Sender) (body : List Byte) (s : State) : State := s.protectedCommand c 0x15 body
/-- ZEROISE. -/
def zeroise (c : Sender) (body : List Byte) (s : State) : State := s.protectedCommand c 0x16 body

/-! ### Commands -/

/-- HELLO (R407). -/
def execHello (c : Sender) (body : List Byte) (s : State) : Res := answer (hello c body s)

/-- CSR_READ (R407). -/
def execCsrRead (c : Sender) (body : List Byte) (s : State) : Res := answer (csrRead c body s)

/-- CSR_WRITE (R492). -/
def execCsrWrite (c : Sender) (body : List Byte) (s : State) : Res := answer (csrWrite c body s)

/-- ALMANAC_READ (R464). -/
def execAlmanacRead (c : Sender) (body : List Byte) (s : State) : Res := answer (almanacRead c body s)

/-- UNIT_STATUS (R407). -/
def execUnitStatus (c : Sender) (body : List Byte) (s : State) : Res := answer (unitStatus c body s)

/-- UNIT_SET (R410). -/
def execUnitSet (c : Sender) (body : List Byte) (s : State) : Res := answer (unitSet c body s)

/-- UNIT_RECONCILE (R411). -/
def execUnitReconcile (c : Sender) (body : List Byte) (s : State) : Res := answer (unitReconcile c body s)

/-- METER_READ (R397). -/
def execMeterRead (c : Sender) (body : List Byte) (s : State) : Res := answer (meterRead c body s)

/-- JOURNAL_READ (R350). -/
def execJournalRead (c : Sender) (body : List Byte) (s : State) : Res := answer (journalRead c body s)

/-- POWER_CAP (R475). -/
def execPowerCap (c : Sender) (body : List Byte) (s : State) : Res := answer (powerCap c body s)

/-- SESSION_CFG (R407). -/
def execSessionCfg (c : Sender) (body : List Byte) (s : State) : Res := answer (sessionCfg c body s)

/-- SESSION_OPEN (R404). -/
def execSessionOpen (port : Nat) (h : Handshake) (s : State) : Res := answer (sessionOpen port h s)

/-- SESSION_CLOSE (R403). -/
def execSessionClose (c : SessionId) (s : State) : Res := answer (sessionClose c s)

/-- HMP_BAD_MESSAGE (R407). -/
def execHmpBadMessage (c : Sender) (type version length : Nat) (s : State) : Res :=
  answer (hmpBadMessage c type version length s)

/-- PTP_MESSAGE (R405). -/
def execPtpMessage (offset : Option Int) (s : State) : Res := answer (ptpMessage offset s)

/-- CHALLENGE (R432). -/
def execChallenge (c : Sender) (body : List Byte) (s : State) : Res := answer (challenge c body s)

/-- ATTEST (R429). -/
def execAttest (c : Sender) (body : List Byte) (s : State) : Res := answer (attest c body s)

/-- IMAGE_PUT (R432). -/
def execImagePut (c : Sender) (body : List Byte) (s : State) : Res := answer (imagePut c body s)

/-- IMAGE_ACTIVATE (R432). -/
def execImageActivate (c : Sender) (body : List Byte) (s : State) : Res := answer (imageActivate c body s)

/-- ROLLBACK_COMMIT (R421). -/
def execRollbackCommit (c : Sender) (body : List Byte) (s : State) : Res := answer (rollbackCommit c body s)

/-- OWNER_KEY_SET (R432). -/
def execOwnerKeySet (c : Sender) (body : List Byte) (s : State) : Res := answer (ownerKeySet c body s)

/-- MGMT_KEY_SET (R432). -/
def execMgmtKeySet (c : Sender) (body : List Byte) (s : State) : Res := answer (mgmtKeySet c body s)

/-- ZEROISE (R432). -/
def execZeroise (c : Sender) (body : List Byte) (s : State) : Res := answer (zeroise c body s)

end Sys2Proof.Machine
end

