-- ==== Sys2Proof/Machine/Vector.lean ====
section
/-! DEFINITION. The vector instructions of S2 (R377, Table 14-9) and the vector conversions (R155). -/

namespace Sys2Proof.Machine

/-- Lane type of MOD[2:0]: lane width and lane count (R377). -/
def laneShape (t : Nat) : Nat × Nat :=
  match t with
  | 0 => (32, 64)
  | 1 => (16, 128)
  | 2 => (16, 128)
  | 3 => (32, 64)
  | _ => (8, 256)

/-- The floating-point format of a lane type, none for integer lanes. -/
def laneFmt (t : Nat) : Option FFmt :=
  match t with
  | 0 => some fp32
  | 1 => some bf16
  | 2 => some fp16
  | _ => none

/-- The lanes of a vector of `n` lanes of `w` bits, lane 0 lowest. -/
def lanes (w n : Nat) (v : VecWord) : List Nat := (List.range n).map (fun i => bits v.toNat (w * i + w - 1) (w * i))

/-- A number from lanes of `w` bits. -/
def joinLanes (w : Nat) : List Nat → Nat
  | [] => 0
  | x :: t => x % 2 ^ w + 2 ^ w * joinLanes w t

/-- A vector from lanes of `w` bits. -/
def ofLanes (w : Nat) (l : List Nat) : VecWord := BitVec.ofNat 2048 (joinLanes w l)

/-- A lane operation: the exact operation on floating-point lanes, rounded once, or the wrapping one on integers. -/
def laneOp (t : Nat) (fp : FVal → FVal → FVal) (int : Nat → Int → Int → Int) (a b : Nat) : Nat :=
  let w := (laneShape t).1
  match laneFmt t with
  | some f => f.encode (fp (f.decode a) (f.decode b))
  | none => unsigned w (int w (signed w a) (signed w b))

/-- Lane-wise operation of two vectors. -/
def vecBin (t : Nat) (fp : FVal → FVal → FVal) (int : Nat → Int → Int → Int) (a b : VecWord) : VecWord :=
  let (w, n) := laneShape t
  ofLanes w (List.zipWith (laneOp t fp int) (lanes w n a) (lanes w n b))

/-- Types 5 to 7 are reserved (R377). -/
def badType (o : Slot) : Bool := 5 ≤ o.mod.toNat % 8

/-- vX = vY op vZ with a lane type. -/
def vecOp (opc : Nat) (fp : FVal → FVal → FVal) (int : Nat → Int → Int → Int) : SlotOp :=
  { enc := { opc, x := .v, y := .v, z := .v, dx := true, mods := 7, reserved := badType }
    run := fun c s =>
      s.setV c.f c.o.x.val (vecBin (c.mod % 8) fp int (c.r.vr c.o.y.val) (c.r.vr c.o.z.val)) }

/-- vX = vY op vZ bit by bit. -/
def vecLogic (opc : Nat) (fn : VecWord → VecWord → VecWord) : SlotOp :=
  { enc := { opc, x := .v, y := .v, z := .v, dx := true }
    run := fun c s => s.setV c.f c.o.x.val (fn (c.r.vr c.o.y.val) (c.r.vr c.o.z.val)) }

/-- The Hull address of VLD or VST: register plus sign-extended IMM (log entry 11). -/
def vecAddr (base : Word) (c : Ctx) : Word := base + c.simm

/-- The checks of VLD and VST: a multiple of 64, and 256 bytes of Hull. -/
def ckVec (a : Word) : List (Nat × Word) :=
  chk (a.toNat % 64 == 0) 0x08 a ++ chk (a.toNat + 256 ≤ 0x300000) 0x05 a

/-- A synchronous read met a poison mark, or CVT.DQ a void exponent (R437, R155). -/
def State.poisonRead (s : State) (f : Nat) : State := s.wrf ⟨.frwRasStatus, f, 0, 0⟩ 0 0 1

/-- VLD: a marked line loads 0xFF in every byte and sets POISON_READ (R437). -/
def opVld : SlotOp :=
  { enc := { opc := 0x41, fmt := .i, x := .v, y := .g, dx := true, imm := true }
    checks := fun c _ => ckVec (vecAddr c.y c)
    reads := fun c _ => [((vecAddr c.y c).toNat, 256)]
    run := fun c s =>
      let a := (vecAddr c.y c).toNat
      let m := s.hull c.f
      let s := s.setV c.f c.o.x.val (BitVec.ofNat 2048 (m.readNat a 256))
      if m.anyPoison a 256 then s.poisonRead c.f else s }

/-- VST. -/
def opVst : SlotOp :=
  { enc := { opc := 0x42, fmt := .i, x := .g, y := .v, imm := true }
    checks := fun c _ => ckVec (vecAddr c.x c)
    run := fun c s => s.modHull c.f (fun m => m.writeNat (vecAddr c.x c).toNat 256 (c.r.vr c.o.y.val).toNat) }

/-- VBCAST. -/
def opVbcast : SlotOp :=
  { enc := { opc := 0x43, x := .v, y := .g, dx := true, mods := 7, reserved := badType }
    run := fun c s =>
      let (w, n) := laneShape (c.mod % 8)
      s.setV c.f c.o.x.val (ofLanes w (List.replicate n (c.y.toNat % 2 ^ w))) }

/-- VEXT: 32-bit lane IMM, 0 to 63, zero-extended. -/
def opVext : SlotOp :=
  { enc := { opc := 0x44, fmt := .i, x := .g, y := .v, dx := true, imm := true, reserved := fun o => 64 ≤ o.imm.toNat }
    run := fun c s =>
      let i := c.o.imm.toNat
      s.setG c.f c.o.x.val (BitVec.ofNat 64 (bits (c.r.vr c.o.y.val).toNat (32 * i + 31) (32 * i))) }

/-- VADD. -/
def opVadd : SlotOp := vecOp 0x48 FVal.add (fun _ a b => a + b)
/-- VSUB. -/
def opVsub : SlotOp := vecOp 0x49 (fun a b => FVal.add a (FVal.neg b)) (fun _ a b => a - b)
/-- VMUL. -/
def opVmul : SlotOp := vecOp 0x4A FVal.mul (fun _ a b => a * b)
/-- VMAX: maximumNumber, or the signed maximum. -/
def opVmax : SlotOp := vecOp 0x4C FVal.maxNum (fun _ a b => max a b)
/-- VMIN: minimumNumber, or the signed minimum. -/
def opVmin : SlotOp := vecOp 0x4D FVal.minNum (fun _ a b => min a b)

/-- VFMA: vY × vZ + vW with one rounding. -/
def opVfma : SlotOp :=
  { enc := { opc := 0x4B, x := .v, y := .v, z := .v, w := .v, dx := true, mods := 7, reserved := badType }
    run := fun c s =>
      let t := c.mod % 8
      let (w, n) := laneShape t
      let one (a b d : Nat) : Nat :=
        match laneFmt t with
        | some f => f.encode (FVal.add (FVal.mul (f.decode a) (f.decode b)) (f.decode d))
        | none => unsigned w (signed w a * signed w b + signed w d)
      let ls := List.zipWith (fun p d => one p.1 p.2 d)
        ((lanes w n (c.r.vr c.o.y.val)).zip (lanes w n (c.r.vr c.o.z.val))) (lanes w n (c.r.vr c.o.w.val))
      s.setV c.f c.o.x.val (ofLanes w ls) }

/-- VEXP: FP32 exponential of each lane. -/
def opVexp : SlotOp :=
  { enc := { opc := 0x4E, x := .v, y := .v, dx := true }
    run := fun c s => s.setV c.f c.o.x.val (ofLanes 32 ((lanes 32 64 (c.r.vr c.o.y.val)).map f32exp)) }

/-- VRSUM: lanes added in ascending order, each addition rounded; the sum in lane 0, zeros elsewhere. -/
def opVrsum : SlotOp :=
  { enc := { opc := 0x4F, x := .v, y := .v, dx := true, mods := 7, reserved := badType }
    run := fun c s =>
      let t := c.mod % 8
      let (w, n) := laneShape t
      let add := laneOp t FVal.add (fun _ a b => a + b)
      let sum := match lanes w n (c.r.vr c.o.y.val) with
        | [] => 0
        | x :: xs => xs.foldl add x
      s.setV c.f c.o.x.val (ofLanes w [sum]) }

/-- VAND. -/
def opVand : SlotOp := vecLogic 0x50 (fun a b => a &&& b)
/-- VOR. -/
def opVor : SlotOp := vecLogic 0x51 (fun a b => a ||| b)
/-- VXOR. -/
def opVxor : SlotOp := vecLogic 0x52 (fun a b => a ^^^ b)

/-- The target of CVT.Q and CVT.DQ by MOD[1:0]. -/
def cvtTarget (m : Nat) : Narrow :=
  match m % 4 with
  | 0 => .int 8 true
  | 1 => .int 4 true
  | _ => .fp e4m3

/-- Code width of a target. -/
def Narrow.width : Narrow → Nat
  | .int w _ => w
  | .fp f => f.width

/-- The groups an exponent governs in a vector conversion: 32 elements, or the whole vector for E4M3 (Table 6-7). -/
def cvtGroup (t : Narrow) : Nat :=
  match t with
  | .int _ _ => 32
  | .fp _ => 64

/-- CVT.Q: codes to vX, exponents to gY; under .E the exponents come from gW (R141, R155, R377). -/
def opCvtQ : SlotOp :=
  { enc :=
      { opc := 0x58, x := .v, y := .g, z := .v, w := .g, dx := true, dy := true, mods := 0xFF,
        reserved := fun o => o.mod.toNat % 4 == 3 || bits o.mod.toNat 7 6 == 3 || (!o.mod.getLsbD 2 && o.w.val != 0) }
    run := fun c s =>
      let t := cvtTarget c.mod
      let md := bits c.mod 7 6
      let key := s.rd ⟨.slcSrKey, c.slice, 0, 0⟩
      let cnt := (s.furrow c.f).srCount
      let xs := (lanes 32 64 (c.r.vr c.o.z.val)).map fp32.decode
      let gs := (chunks (cvtGroup t) xs).zipIdx
      let es := gs.map fun g => if c.mod.testBit 2 then bits c.w.toNat (8 * g.2 + 7) (8 * g.2) else chooseExp t g.1
      let rs := List.zipWith (fun g e => quantGroup t e (rmodeOf md key c.f cnt) (g.2 * cvtGroup t) g.1) gs es
      let s := s.setV c.f c.o.x.val (ofLanes t.width (rs.flatMap (·.1)))
      let s := s.setG c.f c.o.y.val (BitVec.ofNat 64 (joinLanes 8 es))
      let s := s.srStep c.f (md == 2)
      if c.mod.testBit 3 then s.statChunk c.f (bits c.mod 5 4) (rs.flatMap (·.2)) else s }

/-- CVT.DQ: codes of vY under the exponents of gZ to 64 FP32 lanes, exact; void exponents give 0xFF and POISON_READ
(R155). A product above FP32's range is rounded as arithmetic rounds. -/
def opCvtDq : SlotOp :=
  { enc := { opc := 0x59, x := .v, y := .v, z := .g, dx := true, mods := 3, reserved := fun o => o.mod.toNat % 4 == 3 }
    run := fun c s =>
      let t := cvtTarget c.mod
      let code (i k : Nat) : Nat :=
        let e := bits c.z.toNat (8 * (i / cvtGroup t) + 7) (8 * (i / cvtGroup t))
        if e = voidExp then 0xFFFFFFFF
        else
          let v := match t with
            | .int w _ => FVal.ofInt (signed w k)
            | .fp f => f.decode k
          fp32.encode (FVal.scale (expVal e) v)
      let ks := (lanes t.width 64 (c.r.vr c.o.y.val)).zipIdx
      let isVoid := (List.range (64 / cvtGroup t)).any (fun j => bits c.z.toNat (8 * j + 7) (8 * j) == voidExp)
      let s := s.setV c.f c.o.x.val (ofLanes 32 (ks.map (fun p => code p.2 p.1)))
      if isVoid then s.poisonRead c.f else s }

/-- CVT.F: 64 FP32 lanes narrowed element by element (R155). -/
def opCvtF : SlotOp :=
  { enc := { opc := 0x5A, x := .v, y := .v, dx := true, mods := 0xFB, reserved := fun o => bits o.mod.toNat 7 6 == 3 }
    run := fun c s =>
      let f := match c.mod % 4 with
        | 0 => bf16
        | 1 => fp16
        | 2 => e4m3
        | _ => e5m2
      let md := bits c.mod 7 6
      let key := s.rd ⟨.slcSrKey, c.slice, 0, 0⟩
      let cnt := (s.furrow c.f).srCount
      let rs := ((lanes 32 64 (c.r.vr c.o.y.val)).map fp32.decode).zipIdx.map fun p =>
        let (k, q, cl) := (Narrow.fp f).apply (rmodeOf md key c.f cnt p.2) p.1
        (k, (⟨p.1, if p.1.isFinite && !cl then some q else none, cl⟩ : StatElem))
      let s := s.setV c.f c.o.x.val (ofLanes f.width (rs.map (·.1)))
      let s := s.srStep c.f (md == 2)
      if c.mod.testBit 3 then s.statChunk c.f (bits c.mod 5 4) (rs.map (·.2)) else s }

/-! ### Commands -/

/-- VLD (R377). -/
def execVld (f : FurrowId) (o : Slot) (s : State) : Res := answer (runSlot opVld f o s)

/-- VST (R377). -/
def execVst (f : FurrowId) (o : Slot) (s : State) : Res := answer (runSlot opVst f o s)

/-- VBCAST (R377). -/
def execVbcast (f : FurrowId) (o : Slot) (s : State) : Res := answer (runSlot opVbcast f o s)

/-- VEXT (R377). -/
def execVext (f : FurrowId) (o : Slot) (s : State) : Res := answer (runSlot opVext f o s)

/-- VADD (R377). -/
def execVadd (f : FurrowId) (o : Slot) (s : State) : Res := answer (runSlot opVadd f o s)

/-- VSUB (R377). -/
def execVsub (f : FurrowId) (o : Slot) (s : State) : Res := answer (runSlot opVsub f o s)

/-- VMUL (R377). -/
def execVmul (f : FurrowId) (o : Slot) (s : State) : Res := answer (runSlot opVmul f o s)

/-- VMAX (R377). -/
def execVmax (f : FurrowId) (o : Slot) (s : State) : Res := answer (runSlot opVmax f o s)

/-- VMIN (R377). -/
def execVmin (f : FurrowId) (o : Slot) (s : State) : Res := answer (runSlot opVmin f o s)

/-- VFMA (R377). -/
def execVfma (f : FurrowId) (o : Slot) (s : State) : Res := answer (runSlot opVfma f o s)

/-- VEXP (R377). -/
def execVexp (f : FurrowId) (o : Slot) (s : State) : Res := answer (runSlot opVexp f o s)

/-- VRSUM (R377). -/
def execVrsum (f : FurrowId) (o : Slot) (s : State) : Res := answer (runSlot opVrsum f o s)

/-- VAND (R377). -/
def execVand (f : FurrowId) (o : Slot) (s : State) : Res := answer (runSlot opVand f o s)

/-- VOR (R377). -/
def execVor (f : FurrowId) (o : Slot) (s : State) : Res := answer (runSlot opVor f o s)

/-- VXOR (R377). -/
def execVxor (f : FurrowId) (o : Slot) (s : State) : Res := answer (runSlot opVxor f o s)

/-- CVT_Q (R155). -/
def execCvtQ (f : FurrowId) (o : Slot) (s : State) : Res := answer (runSlot opCvtQ f o s)

/-- CVT_DQ (R155). -/
def execCvtDq (f : FurrowId) (o : Slot) (s : State) : Res := answer (runSlot opCvtDq f o s)

/-- CVT_F (R155). -/
def execCvtF (f : FurrowId) (o : Slot) (s : State) : Res := answer (runSlot opCvtF f o s)

end Sys2Proof.Machine
end

