-- ==== Sys2Proof/Machine/Bundle.lean ====
section
/-! DEFINITION. Bundles: the instruction of an opcode, the two stages of checks, and the issue of a bundle as a whole
(R96 to R100, R107, R361 to R368). -/

namespace Sys2Proof.Machine

/-- The instructions of S0 and S1. -/
def s01Ops : List SlotOp :=
  [opB, opBeq, opBne, opBlt, opBge, opBltu, opBgeu, opBr, opAdd, opSub, opAnd, opOr, opXor, opSll, opSrl, opSra,
   opAddi, opSubi, opAndi, opOri, opXori, opSlli, opSrli, opSrai, opMovi, opMovhi, opSeq, opSne, opSlt, opSltu,
   opSeqi, opSlti, opSltui, opPand, opPor, opPnot, opMul, opMulhu, opMovgh, opMovhg]

/-- The instructions of S2. -/
def s2Ops : List SlotOp :=
  [opVld, opVst, opVbcast, opVext, opVadd, opVsub, opVmul, opVmax, opVmin, opVfma, opVexp, opVrsum, opVand, opVor,
   opVxor, opCvtQ, opCvtDq, opCvtF]

/-- The instructions of S3 to S6 and the movement, cache and engine families of S7. -/
def s37Ops : List SlotOp :=
  [opMovGh, opMovHg, opMovHh, opMovGg, opGlnFill, opGlnInval, opCvtBlk, opEmbGather, opAdpLd, opFabLd, opFabSt,
   opFabAtom, opFabNotify, opFabPut, opFabCopy, opFabPull, opFabQship, opFabWstream, opRowSt, opRowAdd, opRowFlush,
   opMirPush, opMirDrop, opEngFence, opCbLoad, opCbRetire, opCbStat, opHskEnc, opHskEncBlk, opHskDec, opMgOpen,
   opMgClose, opMgStat, opAttnPart, opAttnMerge, opWinTopk, opWinMerge, opTileMm, opTileMmAcc, opSieveMask,
   opSmpDraw]

/-- The instructions of S7 over counters, tables, frames and handovers. -/
def s7Ops : List SlotOp :=
  [opWait, opFence, opAcntSet, opAcntStat, opMtrRd, opQstRd, opQstClr, opRaCancel, opEnd, opEndCancel, opShfCommit,
   opShfAdmit, opShfLookup, opShfRd, opShfWrite, opShfSetstate, opShfFree, opShfBatch, opFrmAlloc, opFrmFree,
   opPtAppend, opPtSet, opPtFree, opPtGet, opPtLayer, opPtInit, opPtTail, opPtVcommit, opPtGeoset, opEmbPublish,
   opAdpPublish, opAdpRetire, opHoOffer, opHoAccept, opHoRefuse, opHoConfirm, opHoLose, opHoStat, opHoAdopt,
   opRbStart]

/-- Every instruction (Tables 14-7 to 14-14). -/
def slotOps : List SlotOp := s01Ops ++ s2Ops ++ s37Ops ++ s7Ops

/-- The instruction of an opcode. -/
def slotOp (opc : Nat) : Option SlotOp := slotOps.find? (fun e => e.enc.opc = opc)

/-- The slot word of slot k (R96). -/
def slotWord (b : BitVec 512) (k : Nat) : Word := b.extractLsb' (64 * k) 64

/-- OPC of a slot word (Table 14-1). -/
def opcode (w : Word) : Nat := fld w 7 0

/-- Table 14-3: slot k accepts an opcode; 0x00 belongs to every slot. -/
def slotAccepts (k opc : Nat) : Bool :=
  opc = 0 || slotOf opc = k || (k = 0 && 0x20 ≤ opc && opc ≤ 0x3B) || (k = 1 && 0x20 ≤ opc && opc ≤ 0x3F)

/-- The number a register field holds, in the low bits of its kind (R362). -/
def RK.num : RK → Nat → Nat
  | .no, _ => 0
  | .g, n => n
  | .h, n => n % 16
  | .p, n => n % 8
  | .v, n => n % 32
  | .a, n => n % 32

/-- The general, handle, vector and predicate registers a slot word writes; g0 and p0 discard writes, and counters
never conflict (R98). -/
def writesOf (w : Word) : List (RK × Nat) :=
  match slotOp (opcode w) with
  | none => []
  | some op =>
    let o := op.enc.slot w
    let one (d : Bool) (k : RK) (n : Nat) : List (RK × Nat) :=
      if d && k != .a && k != .no && !((k = .g || k = .p) && k.num n = 0) then [(k, k.num n)] else []
    one op.enc.dx op.enc.x o.x.val ++ one op.enc.dy op.enc.y o.y.val

/-- ILLEGAL_BUNDLE in slot k: an instruction of another class, or a register that a lower slot writes (R96, R98, R364);
answers FRW_EXC_INFO. -/
def bundleFault (b : BitVec 512) (k : Nat) : Option Word :=
  let w := slotWord b k
  if !slotAccepts k (opcode w) then some w
  else
    let lower := (List.range k).flatMap (fun j => writesOf (slotWord b j))
    ((writesOf w).find? (fun p => lower.contains p)).map (fun p => BitVec.ofNat 64 p.2)

/-- ILLEGAL_OPCODE or RESERVED_FIELD in the encoding of a slot word (R362 to R365); a bit that the instruction's format
leaves out must be zero, and so must ACNT where CV is clear. -/
def slotFault (w : Word) : Option Nat :=
  if w = 0 then none
  else if opcode w = 0 then some 0x03
  else
    match slotOp (opcode w) with
    | none => some 0x01
    | some op =>
      let o := op.enc.slot w
      (op.enc.fault o).or (if op.enc.word o = w then none else some 0x03)

/-- The first stage of R368: code, slot and FRW_EXC_INFO of the first failure, from S0 upward, ILLEGAL_BUNDLE first. -/
def bundleCheck (b : BitVec 512) : Option (Nat × Nat × Word) :=
  ((List.range 8).findSome? (fun k => (bundleFault b k).map (fun i => (0x02, k, i)))).or
    ((List.range 8).findSome? (fun k => (slotFault (slotWord b k)).map (fun c => (c, k, slotWord b k))))

/-- BUNDLE_FETCH: the Sower fetches the bundle at its index and makes the first stage of checks; FETCH_RANGE at or
beyond the image's length (R95, R107, R368). -/
def bundleFetch (f : FurrowId) (s : State) : State :=
  let n := f.val
  match s.running n with
  | none => s
  | some p =>
    if p.fetched.isSome then s
    else
      let r := s.furrow n
      if r.imageLen ≤ p.pc then s.raise n 0x04 0 (BitVec.ofNat 64 p.pc)
      else
        let b := Table.get 0 r.imem p.pc
        match bundleCheck b with
        | some (code, k, info) => s.raise n code k info
        | none => s.modProg n (fun p => { p with fetched := some b })

/-- A slot of a bundle at issue: its number, its instruction and what it reads (R98). -/
structure Issue where
  k : Nat
  op : SlotOp
  c : Ctx

/-- The slots of a bundle that hold an instruction, all reading the registers before the bundle (R98). -/
def issues (f : Nat) (r : Furrow) (slice : Nat) (b : BitVec 512) : List Issue :=
  (List.range 8).filterMap (fun k =>
    let w := slotWord b k
    (slotOp (opcode w)).map (fun op => ⟨k, op, ⟨f, r, op.enc.slot w, slice⟩⟩))

/-- The slot's predicate (R99). -/
def Issue.taken (i : Issue) : Bool := i.c.r.pr i.c.o.pred.val

/-- A slot holds the bundle back: WAIT or FENCE, an interlock, or its class's limit (R97). -/
def Issue.held (i : Issue) (s : State) : Bool := i.op.waits i.c s || !i.op.room i.c.r

/-- The second stage of R368 over the slots from S0 upward. -/
def issueFault (l : List Issue) (s : State) : Option (Nat × Nat × Word) :=
  l.findSome? (fun i => (firstFailure (i.op.allChecks i.c s)).map (fun e => (e.1, i.k, e.2)))

/-- Where a slot stands in the order of effects of its cycle: ACNT.SET before every decrement (R103) and QST.CLR before
every chunk (R158), END after all that its bundle issues (R93, log entry 9). -/
def Issue.rank (i : Issue) : Nat :=
  if i.op.enc.opc = 0xD3 || i.op.enc.opc = 0xD8 then 0 else if i.op.enc.opc = 0x1E || i.op.enc.opc = 0x1F then 2 else 1

/-- The order of effects in one cycle; within a rank from S0 upward. -/
def issueOrder (l : List Issue) : List Issue :=
  l.filter (fun i => i.rank = 0) ++ l.filter (fun i => i.rank = 1) ++ l.filter (fun i => i.rank = 2)

/-- BUNDLE_ISSUE: the fetched bundle issues as a whole or stalls; the checks of the second stage come first, a taken
branch replaces the next index after the whole bundle, and each predicated-off slot decrements its counter afterwards
(R97 to R100, R107, R368). -/
def bundleIssue (f : FurrowId) (s : State) : State :=
  let n := f.val
  match s.running n with
  | none => s
  | some p =>
    match p.fetched with
    | none => s
    | some b =>
      let all := issues n (s.furrow n) p.slice b
      let on := all.filter Issue.taken
      if on.any (fun i => i.held s) then s.stall n
      else
        match issueFault on s with
        | some (code, k, info) => s.slotRaise n k (code, info)
        | none =>
          let s := s.modProg n (fun p =>
            { p with pc := p.pc + 1, issued := p.issued + 1, fetched := none, stallSince := none })
          let s := (issueOrder on).foldl (fun s i => i.op.run i.c s) s
          (all.filter (fun i => !i.taken)).foldl (fun s i => s.arrive n i.c.ctr Done.ok) s

/-! ### Commands -/

/-- BUNDLE_FETCH (R368). -/
def execBundleFetch (f : FurrowId) (s : State) : Res := answer (bundleFetch f s)

/-- BUNDLE_ISSUE (R97). -/
def execBundleIssue (f : FurrowId) (s : State) : Res := answer (bundleIssue f s)

end Sys2Proof.Machine
end

