-- ==== Sys2Proof/Machine/Cores.lean ====
section
/-! DEFINITION. The control cores (R391 to R393, R398 to R400, R490, R491): what a core's load or store reaches, and how the
operating system and the other harts are started. The table has one row for a core's access by address, RESERVED_OFFSET_ACCESS;
its operand is any access of a core (log entry 37). -/

namespace Sys2Proof.Machine

/-! ### Physical map (Table 15-5) -/

/-- The parts of the control cluster's physical map. -/
inductive Region where
  | granary
  | csr (off : Nat)
  | plic (off : Nat)
  | reserved
deriving DecidableEq, Repr

/-- Where an access of n bytes lies. -/
def regionOf (a n : Nat) : Region :=
  if a + n ≤ 0x6000000000 then .granary
  else if 0xF000000000 ≤ a && a + n ≤ 0xF006000000 then .csr (a - 0xF000000000)
  else if 0xF100000000 ≤ a && a + n ≤ 0xF104000000 then .plic (a - 0xF100000000)
  else .reserved

/-- The slice a core is bound to; a core with no binding is a supervisor core (R393). -/
def State.coreSlice (s : State) (c : CoreId) : Option Nat :=
  let r : Csr := ⟨.slcCore, 0, c.val, 0⟩
  if s.rdb r 6 then some (s.rdf r 5 0) else none

/-- In whose name a core makes its accesses. -/
def State.coreWho (s : State) (c : CoreId) : Who :=
  match s.coreSlice c with
  | none => .supervisor
  | some sl => .bound (Fin.ofNat 64 sl)

/-- A core that runs: its domain on, not in HOLD, not stopped by a machine check. -/
def State.coreRuns (s : State) (c : CoreId) : Bool :=
  s.domainOn (96 + c.val) && !s.fenced (.core c) && !(s.unit (.core c)).failed

/-! ### Granary -/

/-- The 16 bytes of a frame descriptor (Tables 3-3 and 9-4). -/
def descBytes (d : FrameDesc) : List Byte :=
  toBytes 8 (d.gen + d.stamp * 2 ^ 10 + d.kind * 2 ^ 18 + bitVal d.poisoned 20 + d.walks * 2 ^ 32) ++
    toBytes 8 (d.age + d.slice * 2 ^ 8 + bitVal d.pin 14 + bitVal d.weight 15 + d.pool * 2 ^ 16 + bitVal d.backV 18 +
      d.sheaf * 2 ^ 19 + d.layer * 2 ^ 34 + d.entry * 2 ^ 42)

/-- The descriptor that 16 bytes hold. -/
def descOf (bs : List Byte) : FrameDesc :=
  let (u, w) := (leAt bs 0 8, leAt bs 8 8)
  { gen := bits u 9 0, stamp := bits u 17 10, kind := bits u 19 18, poisoned := u.testBit 20, walks := bits u 47 32,
    age := bits w 7 0, slice := bits w 13 8, pin := w.testBit 14, weight := w.testBit 15, pool := bits w 17 16,
    backV := w.testBit 18, sheaf := bits w 33 19, layer := bits w 41 34, entry := bits w 53 42 }

/-- A byte of Granary as a core sees it: frames 0 to 1,535 hold the descriptors (R64). -/
def State.coreByte (s : State) (a : Nat) : Byte :=
  if a < 16 * frameCount then (descBytes (s.frame (a / 16))).getD (a % 16) 0 else s.mem.read a

/-- A store of a byte to a descriptor. -/
def State.descPut (s : State) (a : Nat) (b : Byte) : State :=
  s.setFrame (a / 16) (descOf ((descBytes (s.frame (a / 16))).set (a % 16) b))

/-- A core's store. -/
def State.coreStore (s : State) (a : Nat) (bs : List Byte) : State :=
  if a < 16 * frameCount then (bs.zipIdx.map (fun p => (a + p.2, p.1))).foldl (fun s p => s.descPut p.1 p.2) s
  else s.gwrite a bs false

/-- R393: a bound core's access is checked as R230 checks a program's, and no system frame passes. -/
def State.coreMay (s : State) (slice : Option Nat) (a n : Nat) : Bool :=
  match slice with
  | none => true
  | some sl => ((List.range ((a + n - 1) / 65536 - a / 65536 + 1)).map (· + a / 65536)).all (fun f => s.frameOf sl f)

/-! ### Loads and stores -/

/-- A load of n bytes ends: what it gets stands in `csrData`. -/
def State.coreGets (s : State) (v : Word) : State := { s with csrData := [v] }

/-- A load or a store of Granary: through the core's L2 and L3 (R391). -/
def State.coreGranary (s : State) (x : CoreAccess) : State :=
  let slice := s.coreSlice x.core
  if !s.coreMay slice x.addr x.size then s.coreFault x.core.val x.data.isSome x.addr
  else
    let lines := (List.range ((x.addr + x.size - 1) / 64 - x.addr / 64 + 1)).map (· + x.addr / 64)
    let s := lines.foldl (fun s l => s.cacheFill x.core.val slice l x.data.isSome) s
    match x.data with
    | none => s.coreGets (BitVec.ofNat 64 (fromBytes ((List.range x.size).map (fun i => s.coreByte (x.addr + i)))))
    | some v => s.coreStore x.addr (toBytes x.size v.toNat)

/-- An access to the control space: an aligned 64-bit one (R490); a bound core's as R393 allows; at a reserved offset it reads
zero or is ignored, and is counted and recorded (R491). -/
def State.coreCsr (s : State) (x : CoreAccess) (off : Nat) : State :=
  let who := s.coreWho x.core
  let fault := s.coreFault x.core.val x.data.isSome x.addr
  if off % 8 != 0 || x.size != 8 then fault
  else
    match Csr.ofOffset off with
    | none =>
      if who != .supervisor then fault
      else
        let s := s.strayAccess off x.data.isSome
        if x.data.isSome then s else s.coreGets 0
    | some r =>
      if !s.reaches who r x.data.isSome then fault
      else
        match x.data with
        | none => s.coreRead who r
        | some v => registerWrite who r v s

/-- An access to the interrupt controller: an aligned 32-bit one of a supervisor core (log entry 40). A claim of a source that
has no status register clears its event. -/
def State.corePlic (s : State) (x : CoreAccess) (off : Nat) : State :=
  if (s.coreSlice x.core).isSome || off % 4 != 0 || x.size != 4 then s.coreFault x.core.val x.data.isSome x.addr
  else
    match x.data with
    | some v => { s with plic := s.plic.write off v.toNat }
    | none =>
      let s := s.coreGets (BitVec.ofNat 64 (s.plic.read off))
      match plicAt off with
      | .claim c =>
        let i := s.plic.best c
        let s := { s with plic := s.plic.claim c }
        if eventSource i then s.releaseIrq i else s
      | _ => s

/-- RESERVED_OFFSET_ACCESS: a load or a store of a core that runs, at any address of the physical map; outside the map it takes an
access fault (R398). -/
def reservedOffsetAccess (x : CoreAccess) (s : State) : State :=
  if !s.coreRuns x.core then s
  else
    match regionOf x.addr x.size with
    | .granary => s.coreGranary x
    | .csr off => s.coreCsr x off
    | .plic off => s.corePlic x off
    | .reserved => s.coreFault x.core.val x.data.isSome x.addr

/-! ### The operating system and the other harts (R399) -/

/-- What the Devicetree blob that the loader passes describes. -/
structure Blob where
  compatible : String
  memory : List Nat
  csr : Nat × Nat
  plic : Nat × Nat
  node : Nat
  harts : List (Nat × Nat)
deriving DecidableEq, Repr

/-- The blob: the control slice's frames, the two windows with their sizes, the node ID, and the harts with their cores. -/
def State.blob (s : State) : Blob :=
  { compatible := "meliragal,ty9-a4",
    memory := (s.desc.filter (fun p => p.2.held && p.2.slice = 0)).map (·.1),
    csr := (0xF000000000, 0x6000000),
    plic := (0xF100000000, 0x4000000),
    node := s.node,
    harts := s.harts.zipIdx.map (fun p => (p.2, p.1)) }

/-- The loader enters the operating system on hart 0, in supervisor mode, with a0 the hart ID and a1 the blob's address. -/
def State.enterOs (s : State) (entry blobAt : Nat) : State :=
  { s with started := Table.set s.started 0 ⟨.supervisor, entry, some (0, BitVec.ofNat 64 blobAt)⟩ }

/-- Start of another hart by the HSM extension: SBI codes 0, −3 for a hart ID that names none and −6 for one that runs
(PRESUMED from SBI 2.0, log entry 40). -/
def State.hsmStart (s : State) (h entry : Nat) (opaque' : Word) : Int × State :=
  if s.harts.length ≤ h then (-3, s)
  else if Table.has s.started h then (-6, s)
  else (0, s.startHart h ⟨.supervisor, entry, some (BitVec.ofNat 64 h, opaque')⟩)

/-! ### Commands -/

/-- RESERVED_OFFSET_ACCESS (R393, R398, R490, R491). -/
def execReservedOffsetAccess (core : CoreId) (addr : Nat) (what : CoreData) (s : State) : Res :=
  answer (reservedOffsetAccess ⟨core, addr, what.size, what.data⟩ s)

end Sys2Proof.Machine
end

