-- ==== Sys2Proof/Machine/Dispatch.lean ====
section
/-! DEFINITION. One arm per command: its meaning. -/

namespace Sys2Proof.Machine

def exec (i : Instr) (s : State) : Host.Outcome State Fault Refusal :=
  match i with
  | .registerWrite who r v => Sys2Proof.Machine.execRegisterWrite who r v s
  | .rcRegisterRead who r => Sys2Proof.Machine.execRcRegisterRead who r s
  | .reservedOffsetAccess core addr what => Sys2Proof.Machine.execReservedOffsetAccess core addr what s
  | .reeveMsgRead who f high => Sys2Proof.Machine.execReeveMsgRead who f high s
  | .secMeasRead who m w => Sys2Proof.Machine.execSecMeasRead who m w s
  | .chpNodeIdWrite who v => Sys2Proof.Machine.execChpNodeIdWrite who v s
  | .shfPartWrite who sl v => Sys2Proof.Machine.execShfPartWrite who sl v s
  | .shfRingConfigWrite who sl base v => Sys2Proof.Machine.execShfRingConfigWrite who sl base v s
  | .shfRingHeadWrite who sl v => Sys2Proof.Machine.execShfRingHeadWrite who sl v s
  | .shfAdmit f o => Sys2Proof.Machine.execShfAdmit f o s
  | .shfLookup f o => Sys2Proof.Machine.execShfLookup f o s
  | .shfRd f o => Sys2Proof.Machine.execShfRd f o s
  | .shfWrite f o => Sys2Proof.Machine.execShfWrite f o s
  | .shfSetstate f o => Sys2Proof.Machine.execShfSetstate f o s
  | .shfFree f o => Sys2Proof.Machine.execShfFree f o s
  | .shfBatch f o => Sys2Proof.Machine.execShfBatch f o s
  | .shfCommit f o => Sys2Proof.Machine.execShfCommit f o s
  | .ptInit f o => Sys2Proof.Machine.execPtInit f o s
  | .ptLayer f o => Sys2Proof.Machine.execPtLayer f o s
  | .ptAppend f o => Sys2Proof.Machine.execPtAppend f o s
  | .ptSet f o => Sys2Proof.Machine.execPtSet f o s
  | .ptFree f o => Sys2Proof.Machine.execPtFree f o s
  | .ptGet f o => Sys2Proof.Machine.execPtGet f o s
  | .ptTail f o => Sys2Proof.Machine.execPtTail f o s
  | .ptVcommit f o => Sys2Proof.Machine.execPtVcommit f o s
  | .ptGeoset f o => Sys2Proof.Machine.execPtGeoset f o s
  | .deferredEditApply f id => Sys2Proof.Machine.execDeferredEditApply f id s
  | .walkLatch id => Sys2Proof.Machine.execWalkLatch id s
  | .walkFrameRelease id frame => Sys2Proof.Machine.execWalkFrameRelease id frame s
  | .commandTake f => Sys2Proof.Machine.execCommandTake f s
  | .descriptorPrefetch f => Sys2Proof.Machine.execDescriptorPrefetch f s
  | .frwCqTailWrite who f q v => Sys2Proof.Machine.execFrwCqTailWrite who f q v s
  | .frwCqAbort who f q => Sys2Proof.Machine.execFrwCqAbort who f q s
  | .frwCqRestart who f q => Sys2Proof.Machine.execFrwCqRestart who f q s
  | .bundleFetch f => Sys2Proof.Machine.execBundleFetch f s
  | .bundleIssue f => Sys2Proof.Machine.execBundleIssue f s
  | .exceptionComplete f => Sys2Proof.Machine.execExceptionComplete f s
  | .watchdogExpiry f => Sys2Proof.Machine.execWatchdogExpiry f s
  | .programComplete f => Sys2Proof.Machine.execProgramComplete f s
  | .b f o => Sys2Proof.Machine.execB f o s
  | .beq f o => Sys2Proof.Machine.execBeq f o s
  | .bne f o => Sys2Proof.Machine.execBne f o s
  | .blt f o => Sys2Proof.Machine.execBlt f o s
  | .bge f o => Sys2Proof.Machine.execBge f o s
  | .bltu f o => Sys2Proof.Machine.execBltu f o s
  | .bgeu f o => Sys2Proof.Machine.execBgeu f o s
  | .br f o => Sys2Proof.Machine.execBr f o s
  | .end_ f o => Sys2Proof.Machine.execEnd f o s
  | .endCancel f o => Sys2Proof.Machine.execEndCancel f o s
  | .add f o => Sys2Proof.Machine.execAdd f o s
  | .sub f o => Sys2Proof.Machine.execSub f o s
  | .and_ f o => Sys2Proof.Machine.execAnd f o s
  | .or_ f o => Sys2Proof.Machine.execOr f o s
  | .xor f o => Sys2Proof.Machine.execXor f o s
  | .sll f o => Sys2Proof.Machine.execSll f o s
  | .srl f o => Sys2Proof.Machine.execSrl f o s
  | .sra f o => Sys2Proof.Machine.execSra f o s
  | .addi f o => Sys2Proof.Machine.execAddi f o s
  | .subi f o => Sys2Proof.Machine.execSubi f o s
  | .andi f o => Sys2Proof.Machine.execAndi f o s
  | .ori f o => Sys2Proof.Machine.execOri f o s
  | .xori f o => Sys2Proof.Machine.execXori f o s
  | .slli f o => Sys2Proof.Machine.execSlli f o s
  | .srli f o => Sys2Proof.Machine.execSrli f o s
  | .srai f o => Sys2Proof.Machine.execSrai f o s
  | .movi f o => Sys2Proof.Machine.execMovi f o s
  | .movhi f o => Sys2Proof.Machine.execMovhi f o s
  | .seq f o => Sys2Proof.Machine.execSeq f o s
  | .sne f o => Sys2Proof.Machine.execSne f o s
  | .slt f o => Sys2Proof.Machine.execSlt f o s
  | .sltu f o => Sys2Proof.Machine.execSltu f o s
  | .seqi f o => Sys2Proof.Machine.execSeqi f o s
  | .slti f o => Sys2Proof.Machine.execSlti f o s
  | .sltui f o => Sys2Proof.Machine.execSltui f o s
  | .pand f o => Sys2Proof.Machine.execPand f o s
  | .por f o => Sys2Proof.Machine.execPor f o s
  | .pnot f o => Sys2Proof.Machine.execPnot f o s
  | .mul f o => Sys2Proof.Machine.execMul f o s
  | .mulhu f o => Sys2Proof.Machine.execMulhu f o s
  | .movgh f o => Sys2Proof.Machine.execMovgh f o s
  | .movhg f o => Sys2Proof.Machine.execMovhg f o s
  | .vld f o => Sys2Proof.Machine.execVld f o s
  | .vst f o => Sys2Proof.Machine.execVst f o s
  | .vbcast f o => Sys2Proof.Machine.execVbcast f o s
  | .vext f o => Sys2Proof.Machine.execVext f o s
  | .vadd f o => Sys2Proof.Machine.execVadd f o s
  | .vsub f o => Sys2Proof.Machine.execVsub f o s
  | .vmul f o => Sys2Proof.Machine.execVmul f o s
  | .vfma f o => Sys2Proof.Machine.execVfma f o s
  | .vmax f o => Sys2Proof.Machine.execVmax f o s
  | .vmin f o => Sys2Proof.Machine.execVmin f o s
  | .vexp f o => Sys2Proof.Machine.execVexp f o s
  | .vrsum f o => Sys2Proof.Machine.execVrsum f o s
  | .vand f o => Sys2Proof.Machine.execVand f o s
  | .vor f o => Sys2Proof.Machine.execVor f o s
  | .vxor f o => Sys2Proof.Machine.execVxor f o s
  | .cvtQ f o => Sys2Proof.Machine.execCvtQ f o s
  | .cvtDq f o => Sys2Proof.Machine.execCvtDq f o s
  | .cvtF f o => Sys2Proof.Machine.execCvtF f o s
  | .movGh f o => Sys2Proof.Machine.execMovGh f o s
  | .movHg f o => Sys2Proof.Machine.execMovHg f o s
  | .movHh f o => Sys2Proof.Machine.execMovHh f o s
  | .movGg f o => Sys2Proof.Machine.execMovGg f o s
  | .glnFill f o => Sys2Proof.Machine.execGlnFill f o s
  | .glnInval f o => Sys2Proof.Machine.execGlnInval f o s
  | .cvtBlk f o => Sys2Proof.Machine.execCvtBlk f o s
  | .embGather f o => Sys2Proof.Machine.execEmbGather f o s
  | .adpLd f o => Sys2Proof.Machine.execAdpLd f o s
  | .moveComplete f id => Sys2Proof.Machine.execMoveComplete f id s
  | .fabLd f o => Sys2Proof.Machine.execFabLd f o s
  | .fabSt f o => Sys2Proof.Machine.execFabSt f o s
  | .fabPut f o => Sys2Proof.Machine.execFabPut f o s
  | .fabAtom f o => Sys2Proof.Machine.execFabAtom f o s
  | .fabCopy f o => Sys2Proof.Machine.execFabCopy f o s
  | .fabPull f o => Sys2Proof.Machine.execFabPull f o s
  | .fabQship f o => Sys2Proof.Machine.execFabQship f o s
  | .fabNotify f o => Sys2Proof.Machine.execFabNotify f o s
  | .fabWstream f o => Sys2Proof.Machine.execFabWstream f o s
  | .rowSt f o => Sys2Proof.Machine.execRowSt f o s
  | .rowAdd f o => Sys2Proof.Machine.execRowAdd f o s
  | .rowFlush f o => Sys2Proof.Machine.execRowFlush f o s
  | .mirPush f o => Sys2Proof.Machine.execMirPush f o s
  | .mirDrop f o => Sys2Proof.Machine.execMirDrop f o s
  | .rbStart f o => Sys2Proof.Machine.execRbStart f o s
  | .engFence f o => Sys2Proof.Machine.execEngFence f o s
  | .hskEnc f o => Sys2Proof.Machine.execHskEnc f o s
  | .hskEncBlk f o => Sys2Proof.Machine.execHskEncBlk f o s
  | .hskDec f o => Sys2Proof.Machine.execHskDec f o s
  | .huskOpComplete f id => Sys2Proof.Machine.execHuskOpComplete f id s
  | .winTopk f o => Sys2Proof.Machine.execWinTopk f o s
  | .winMerge f o => Sys2Proof.Machine.execWinMerge f o s
  | .winnowOpStart f => Sys2Proof.Machine.execWinnowOpStart f s
  | .winnowQuantumEnd f => Sys2Proof.Machine.execWinnowQuantumEnd f s
  | .winnowOpComplete f cycles => Sys2Proof.Machine.execWinnowOpComplete f cycles s
  | .sieveMask f o => Sys2Proof.Machine.execSieveMask f o s
  | .smpDraw f o => Sys2Proof.Machine.execSmpDraw f o s
  | .sieveOpStart f => Sys2Proof.Machine.execSieveOpStart f s
  | .sieveOpComplete f cycles => Sys2Proof.Machine.execSieveOpComplete f cycles s
  | .tileMm f o => Sys2Proof.Machine.execTileMm f o s
  | .tileMmAcc f o => Sys2Proof.Machine.execTileMmAcc f o s
  | .attnPart f o => Sys2Proof.Machine.execAttnPart f o s
  | .attnMerge f o => Sys2Proof.Machine.execAttnMerge f o s
  | .tileStart k faults => Sys2Proof.Machine.execTileStart k faults s
  | .tileComplete k faults cycles => Sys2Proof.Machine.execTileComplete k faults cycles s
  | .attnPartComplete f id => Sys2Proof.Machine.execAttnPartComplete f id s
  | .attnMergeComplete f id => Sys2Proof.Machine.execAttnMergeComplete f id s
  | .fencedTileRequeue k => Sys2Proof.Machine.execFencedTileRequeue k s
  | .wait f o => Sys2Proof.Machine.execWait f o s
  | .fence f o => Sys2Proof.Machine.execFence f o s
  | .acntSet f o => Sys2Proof.Machine.execAcntSet f o s
  | .acntStat f o => Sys2Proof.Machine.execAcntStat f o s
  | .raCancel f o => Sys2Proof.Machine.execRaCancel f o s
  | .mtrRd f o => Sys2Proof.Machine.execMtrRd f o s
  | .qstRd f o => Sys2Proof.Machine.execQstRd f o s
  | .qstClr f o => Sys2Proof.Machine.execQstClr f o s
  | .frwQstClrWrite who f j v => Sys2Proof.Machine.execFrwQstClrWrite who f j v s
  | .frmAlloc f o => Sys2Proof.Machine.execFrmAlloc f o s
  | .frmFree f o => Sys2Proof.Machine.execFrmFree f o s
  | .frameZeroComplete frame badRow => Sys2Proof.Machine.execFrameZeroComplete frame badRow s
  | .mgOpen f o => Sys2Proof.Machine.execMgOpen f o s
  | .mgClose f o => Sys2Proof.Machine.execMgClose f o s
  | .mgStat f o => Sys2Proof.Machine.execMgStat f o s
  | .cbLoad f o => Sys2Proof.Machine.execCbLoad f o s
  | .cbRetire f o => Sys2Proof.Machine.execCbRetire f o s
  | .cbStat f o => Sys2Proof.Machine.execCbStat f o s
  | .embPublish f o => Sys2Proof.Machine.execEmbPublish f o s
  | .adpPublish f o => Sys2Proof.Machine.execAdpPublish f o s
  | .adpRetire f o => Sys2Proof.Machine.execAdpRetire f o s
  | .hoOffer f o => Sys2Proof.Machine.execHoOffer f o s
  | .hoAccept f o => Sys2Proof.Machine.execHoAccept f o s
  | .hoRefuse f o => Sys2Proof.Machine.execHoRefuse f o s
  | .hoConfirm f o => Sys2Proof.Machine.execHoConfirm f o s
  | .hoLose f o => Sys2Proof.Machine.execHoLose f o s
  | .hoAdopt f o => Sys2Proof.Machine.execHoAdopt f o s
  | .adoptLookupComplete id => Sys2Proof.Machine.execAdoptLookupComplete id s
  | .hoStat f o => Sys2Proof.Machine.execHoStat f o s
  | .ldRequest m => Sys2Proof.Machine.execLdRequest m s
  | .stRequest m => Sys2Proof.Machine.execStRequest m s
  | .atomAdd m => Sys2Proof.Machine.execAtomAdd m s
  | .atomSmin m => Sys2Proof.Machine.execAtomSmin m s
  | .atomSmax m => Sys2Proof.Machine.execAtomSmax m s
  | .atomUmin m => Sys2Proof.Machine.execAtomUmin m s
  | .atomUmax m => Sys2Proof.Machine.execAtomUmax m s
  | .atomSwap m => Sys2Proof.Machine.execAtomSwap m s
  | .atomCas m => Sys2Proof.Machine.execAtomCas m s
  | .atomFaddFp32 m => Sys2Proof.Machine.execAtomFaddFp32 m s
  | .atomFaddBf16 m => Sys2Proof.Machine.execAtomFaddBf16 m s
  | .copyRd m => Sys2Proof.Machine.execCopyRd m s
  | .copyWr m => Sys2Proof.Machine.execCopyWr m s
  | .pull m => Sys2Proof.Machine.execPull m s
  | .qship m => Sys2Proof.Machine.execQship m s
  | .qshipServiceComplete f id => Sys2Proof.Machine.execQshipServiceComplete f id s
  | .notifyCounter m => Sys2Proof.Machine.execNotifyCounter m s
  | .notifySlotRelease m => Sys2Proof.Machine.execNotifySlotRelease m s
  | .rowUpdate m => Sys2Proof.Machine.execRowUpdate m s
  | .pageWr m => Sys2Proof.Machine.execPageWr m s
  | .abort m => Sys2Proof.Machine.execAbort m s
  | .ldResponse m => Sys2Proof.Machine.execLdResponse m s
  | .writeAck m => Sys2Proof.Machine.execWriteAck m s
  | .atomResponse m => Sys2Proof.Machine.execAtomResponse m s
  | .copyRdResponse m => Sys2Proof.Machine.execCopyRdResponse m s
  | .pageResponse m => Sys2Proof.Machine.execPageResponse m s
  | .pageWrAck m => Sys2Proof.Machine.execPageWrAck m s
  | .parityDeltaResolve id => Sys2Proof.Machine.execParityDeltaResolve id s
  | .qshipAnswer m => Sys2Proof.Machine.execQshipAnswer m s
  | .mgWindowExpiry g => Sys2Proof.Machine.execMgWindowExpiry g s
  | .serviceDeadlineExpiry id => Sys2Proof.Machine.execServiceDeadlineExpiry id s
  | .abortFilterExpiry group => Sys2Proof.Machine.execAbortFilterExpiry group s
  | .abortResend id => Sys2Proof.Machine.execAbortResend id s
  | .epochSetAnswer m => Sys2Proof.Machine.execEpochSetAnswer m s
  | .lookupAnswer m => Sys2Proof.Machine.execLookupAnswer m s
  | .fabOpTimeout id => Sys2Proof.Machine.execFabOpTimeout id s
  | .fabRetryResend id => Sys2Proof.Machine.execFabRetryResend id s
  | .seqHoleTimeout src slice cls => Sys2Proof.Machine.execSeqHoleTimeout src slice cls s
  | .fabSttWord0Write who sl e v => Sys2Proof.Machine.execFabSttWord0Write who sl e v s
  | .fabTimeoutWrite who v => Sys2Proof.Machine.execFabTimeoutWrite who v s
  | .fabHoLeaseWrite who v => Sys2Proof.Machine.execFabHoLeaseWrite who v s
  | .offer m => Sys2Proof.Machine.execOffer m s
  | .accept m => Sys2Proof.Machine.execAccept m s
  | .refuse m => Sys2Proof.Machine.execRefuse m s
  | .commit m => Sys2Proof.Machine.execCommit m s
  | .ack m => Sys2Proof.Machine.execAck m s
  | .confirm m => Sys2Proof.Machine.execConfirm m s
  | .stepped m => Sys2Proof.Machine.execStepped m s
  | .released m => Sys2Proof.Machine.execReleased m s
  | .reclaim m => Sys2Proof.Machine.execReclaim m s
  | .reclaimAck m => Sys2Proof.Machine.execReclaimAck m s
  | .epochSet m => Sys2Proof.Machine.execEpochSet m s
  | .cover m => Sys2Proof.Machine.execCover m s
  | .drop m => Sys2Proof.Machine.execDrop m s
  | .lookup m => Sys2Proof.Machine.execLookup m s
  | .loss m => Sys2Proof.Machine.execLoss m s
  | .pageOpen m => Sys2Proof.Machine.execPageOpen m s
  | .holderFence m => Sys2Proof.Machine.execHolderFence m s
  | .hoResend id => Sys2Proof.Machine.execHoResend id s
  | .hoResendEnd id => Sys2Proof.Machine.execHoResendEnd id s
  | .offerDeadline sl j => Sys2Proof.Machine.execOfferDeadline sl j s
  | .leaseExpiry sl j => Sys2Proof.Machine.execLeaseExpiry sl j s
  | .acceptWindowExpiry sl j => Sys2Proof.Machine.execAcceptWindowExpiry sl j s
  | .receiverUnresolved sl j => Sys2Proof.Machine.execReceiverUnresolved sl j s
  | .journalRetainExpiry sl j => Sys2Proof.Machine.execJournalRetainExpiry sl j s
  | .holdExpiry sl h => Sys2Proof.Machine.execHoldExpiry sl h s
  | .rebuildPage id => Sys2Proof.Machine.execRebuildPage id s
  | .rebuildEnd id => Sys2Proof.Machine.execRebuildEnd id s
  | .engineFenceAnswer p => Sys2Proof.Machine.execEngineFenceAnswer p s
  | .wstreamLayerStart f k => Sys2Proof.Machine.execWstreamLayerStart f k s
  | .wstreamEnd f k => Sys2Proof.Machine.execWstreamEnd f k s
  | .ageingTick => Sys2Proof.Machine.execAgeingTick s
  | .evictionPass => Sys2Proof.Machine.execEvictionPass s
  | .demotionCommit frame => Sys2Proof.Machine.execDemotionCommit frame s
  | .slcFrameMinWrite who sl v => Sys2Proof.Machine.execSlcFrameMinWrite who sl v s
  | .gleanRefresh f j => Sys2Proof.Machine.execGleanRefresh f j s
  | .frwGlnRegWrite who f j v => Sys2Proof.Machine.execFrwGlnRegWrite who f j v s
  | .wavelengthFail p w => Sys2Proof.Machine.execWavelengthFail p w s
  | .laneRemapRequest p r => Sys2Proof.Machine.execLaneRemapRequest p r s
  | .flitReceive p what => Sys2Proof.Machine.execFlitReceive p what s
  | .reassemblyTimeout f id => Sys2Proof.Machine.execReassemblyTimeout f id s
  | .ctrlInit p payload => Sys2Proof.Machine.execCtrlInit p payload s
  | .ctrlAck p payload => Sys2Proof.Machine.execCtrlAck p payload s
  | .ctrlNak p payload => Sys2Proof.Machine.execCtrlNak p payload s
  | .ctrlCredit p payload => Sys2Proof.Machine.execCtrlCredit p payload s
  | .beacon p payload => Sys2Proof.Machine.execBeacon p payload s
  | .beaconReply p payload => Sys2Proof.Machine.execBeaconReply p payload s
  | .beaconTimer p => Sys2Proof.Machine.execBeaconTimer p s
  | .ackTimer p => Sys2Proof.Machine.execAckTimer p s
  | .nakResend p => Sys2Proof.Machine.execNakResend p s
  | .egressSchedule p => Sys2Proof.Machine.execEgressSchedule p s
  | .portEnable p => Sys2Proof.Machine.execPortEnable p s
  | .portDisable p => Sys2Proof.Machine.execPortDisable p s
  | .portRetrain p => Sys2Proof.Machine.execPortRetrain p s
  | .feedCheckComplete p power => Sys2Proof.Machine.execFeedCheckComplete p power s
  | .phyTrainComplete p tx rx => Sys2Proof.Machine.execPhyTrainComplete p tx rx s
  | .alignComplete p ok => Sys2Proof.Machine.execAlignComplete p ok s
  | .initSendTimer p => Sys2Proof.Machine.execInitSendTimer p s
  | .trainingTimeout p => Sys2Proof.Machine.execTrainingTimeout p s
  | .quarantineEnd p => Sys2Proof.Machine.execQuarantineEnd p s
  | .failedAutoRetry p => Sys2Proof.Machine.execFailedAutoRetry p s
  | .ringTuning p => Sys2Proof.Machine.execRingTuning p s
  | .feedMeasure p power => Sys2Proof.Machine.execFeedMeasure p power s
  | .shpCfgWrite who p sl v => Sys2Proof.Machine.execShpCfgWrite who p sl v s
  | .prtPolWrite who p sl v => Sys2Proof.Machine.execPrtPolWrite who p sl v s
  | .create who sl => Sys2Proof.Machine.execCreate who sl s
  | .start who sl => Sys2Proof.Machine.execStart who sl s
  | .drain who sl => Sys2Proof.Machine.execDrain who sl s
  | .resume who sl => Sys2Proof.Machine.execResume who sl s
  | .teardown who sl => Sys2Proof.Machine.execTeardown who sl s
  | .teardownComplete sl => Sys2Proof.Machine.execTeardownComplete sl s
  | .frwSliceWrite who f v => Sys2Proof.Machine.execFrwSliceWrite who f v s
  | .slcCoreWrite who c v => Sys2Proof.Machine.execSlcCoreWrite who c v s
  | .meterSnapshot => Sys2Proof.Machine.execMeterSnapshot s
  | .reeveStatus who f u => Sys2Proof.Machine.execReeveStatus who f u s
  | .reevePowerOn who f u => Sys2Proof.Machine.execReevePowerOn who f u s
  | .reevePowerOff who f u => Sys2Proof.Machine.execReevePowerOff who f u s
  | .reeveFence who f u => Sys2Proof.Machine.execReeveFence who f u s
  | .reeveUnfence who f u => Sys2Proof.Machine.execReeveUnfence who f u s
  | .reeveSelftest who f u => Sys2Proof.Machine.execReeveSelftest who f u s
  | .domainOnComplete d => Sys2Proof.Machine.execDomainOnComplete d s
  | .selftestComplete u pass => Sys2Proof.Machine.execSelftestComplete u pass s
  | .viewCompare => Sys2Proof.Machine.execViewCompare s
  | .failPowerCheck u => Sys2Proof.Machine.execFailPowerCheck u s
  | .hello c body => Sys2Proof.Machine.execHello c body s
  | .csrRead c body => Sys2Proof.Machine.execCsrRead c body s
  | .csrWrite c body => Sys2Proof.Machine.execCsrWrite c body s
  | .almanacRead c body => Sys2Proof.Machine.execAlmanacRead c body s
  | .unitStatus c body => Sys2Proof.Machine.execUnitStatus c body s
  | .unitSet c body => Sys2Proof.Machine.execUnitSet c body s
  | .unitReconcile c body => Sys2Proof.Machine.execUnitReconcile c body s
  | .meterRead c body => Sys2Proof.Machine.execMeterRead c body s
  | .journalRead c body => Sys2Proof.Machine.execJournalRead c body s
  | .powerCap c body => Sys2Proof.Machine.execPowerCap c body s
  | .sessionCfg c body => Sys2Proof.Machine.execSessionCfg c body s
  | .sessionOpen port h => Sys2Proof.Machine.execSessionOpen port h s
  | .ptpMessage offset => Sys2Proof.Machine.execPtpMessage offset s
  | .heartbeat who v => Sys2Proof.Machine.execHeartbeat who v s
  | .heartbeatHalfLapse => Sys2Proof.Machine.execHeartbeatHalfLapse s
  | .heartbeatExpiry => Sys2Proof.Machine.execHeartbeatExpiry s
  | .fallowEnter cause => Sys2Proof.Machine.execFallowEnter cause s
  | .fallowExit who => Sys2Proof.Machine.execFallowExit who s
  | .coreMachineCheck c cause => Sys2Proof.Machine.execCoreMachineCheck c cause s
  | .verifyOs who => Sys2Proof.Machine.execVerifyOs who s
  | .sowerLoad who => Sys2Proof.Machine.execSowerLoad who s
  | .lockConfig who => Sys2Proof.Machine.execLockConfig who s
  | .quote who => Sys2Proof.Machine.execQuote who s
  | .measure who => Sys2Proof.Machine.execMeasure who s
  | .lockDeadlineExpiry => Sys2Proof.Machine.execLockDeadlineExpiry s
  | .attest c body => Sys2Proof.Machine.execAttest c body s
  | .attestationReport => Sys2Proof.Machine.execAttestationReport s
  | .hssTreeGenerate => Sys2Proof.Machine.execHssTreeGenerate s
  | .challenge c body => Sys2Proof.Machine.execChallenge c body s
  | .challengeLapse c => Sys2Proof.Machine.execChallengeLapse c s
  | .imagePut c body => Sys2Proof.Machine.execImagePut c body s
  | .imageActivate c body => Sys2Proof.Machine.execImageActivate c body s
  | .rollbackCommit c body => Sys2Proof.Machine.execRollbackCommit c body s
  | .ownerKeySet c body => Sys2Proof.Machine.execOwnerKeySet c body s
  | .mgmtKeySet c body => Sys2Proof.Machine.execMgmtKeySet c body s
  | .zeroise c body => Sys2Proof.Machine.execZeroise c body s
  | .patrolScrub channel errors => Sys2Proof.Machine.execPatrolScrub channel errors s
  | .sramScrub a outcome => Sys2Proof.Machine.execSramScrub a outcome s
  | .granaryRefresh channel rank bank => Sys2Proof.Machine.execGranaryRefresh channel rank bank s
  | .rowActivationThreshold channel rank bank row => Sys2Proof.Machine.execRowActivationThreshold channel rank bank row s
  | .rowSpare channel rank bank row => Sys2Proof.Machine.execRowSpare channel rank bank row s
  | .channelMigration channel => Sys2Proof.Machine.execChannelMigration channel s
  | .channelMigrationSwitch channel => Sys2Proof.Machine.execChannelMigrationSwitch channel s
  | .binSample f celsius millivolt => Sys2Proof.Machine.execBinSample f celsius millivolt s
  | .exclusionRelease u => Sys2Proof.Machine.execExclusionRelease u s
  | .trendRecord p feed heater errors => Sys2Proof.Machine.execTrendRecord p feed heater errors s
  | .eccCeSummary => Sys2Proof.Machine.execEccCeSummary s
  | .almanacCommit => Sys2Proof.Machine.execAlmanacCommit s
  | .almRead who v => Sys2Proof.Machine.execAlmRead who v s
  | .almSwAppend who v => Sys2Proof.Machine.execAlmSwAppend who v s
  | .powerLoss => Sys2Proof.Machine.execPowerLoss s
  | .pmbusTransaction rail first retries => Sys2Proof.Machine.execPmbusTransaction rail first retries s
  | .smbalert rail status => Sys2Proof.Machine.execSmbalert rail status s
  | .tilthEstimate domains slices => Sys2Proof.Machine.execTilthEstimate domains slices s
  | .tilthCalibrate milliamp => Sys2Proof.Machine.execTilthCalibrate milliamp s
  | .tilthEvaluate => Sys2Proof.Machine.execTilthEvaluate s
  | .vcoreSettingChange => Sys2Proof.Machine.execVcoreSettingChange s
  | .cclkStateWrite who c v => Sys2Proof.Machine.execCclkStateWrite who c v s
  | .droopDetect f => Sys2Proof.Machine.execDroopDetect f s
  | .thermalSample celsius => Sys2Proof.Machine.execThermalSample celsius s
  | .minimalPowerEntry cause => Sys2Proof.Machine.execMinimalPowerEntry cause s
  | .coldReset cause => Sys2Proof.Machine.execColdReset cause s
  | .powerUpStepOverrun step => Sys2Proof.Machine.execPowerUpStepOverrun step s
  | .warmReset cause => Sys2Proof.Machine.execWarmReset cause s
  | .clusterReset cause => Sys2Proof.Machine.execClusterReset cause s
  | .journalResolve sl j => Sys2Proof.Machine.execJournalResolve sl j s
  | .sessionClose c => Sys2Proof.Machine.execSessionClose c s
  | .hmpBadMessage c type version length => Sys2Proof.Machine.execHmpBadMessage c type version length s
  | .reservedOpRequest m => Sys2Proof.Machine.execReservedOpRequest m s

end Sys2Proof.Machine
end

