-- ==== Sys2Proof/Machine/Time.lean ====
section
/-! DEFINITION. System time: what one nanosecond does when no command waits (log entry 1). Everything the spec has happen
at an interval or a deadline is a command of its own. -/

namespace Sys2Proof.Machine

/-- ACLK cycles of a Field that end in the nanosecond after t: 2.1, 1.4 or 0.7 per ns (R9, R476). -/
def State.cyclesAt (s : State) (field t : Nat) : Nat := s.aclkCycles field (t + 1) - s.aclkCycles field t

/-- FURROW_CYC: 1 per ACLK cycle for each powered Furrow bound to a slice (Table 15-4). -/
def State.meterFurrows (s : State) (t : Nat) : State :=
  (List.range 64).foldl (fun s f =>
    match s.bound f with
    | some sl => if s.domainOn f then s.meter sl 1 (s.cyclesAt (f / 16) t) else s
    | none => s) s

/-- System time advances by 1 ns, or waits while a correction backwards is due (R30, R32). -/
def State.advance (s : State) : State :=
  if s.timeHold = 0 then s.passTo (s.time + 1) else { s with timeHold := s.timeHold - 1 }

/-- One nanosecond with no command waiting. Before the power-up of R481 nothing runs. -/
def State.tick (s : State) : State :=
  if !s.powered then s
  else (s.meterFurrows s.time).advance

end Sys2Proof.Machine
end

