-- ==== Sys2Proof/WellFormed.lean ====
section
/-! DEFINITION. Well-formed commands: operands that the fields carrying them can hold. -/

namespace Sys2Proof

open Sys2Proof.Machine

/-- The instruction, Furrow and operand fields of a command that is one slot of a bundle. -/
def Instr.asSlot : Instr → Option (SlotOp × FurrowId × Slot)
  | .shfAdmit f o => some (opShfAdmit, f, o)
  | .shfLookup f o => some (opShfLookup, f, o)
  | .shfRd f o => some (opShfRd, f, o)
  | .shfWrite f o => some (opShfWrite, f, o)
  | .shfSetstate f o => some (opShfSetstate, f, o)
  | .shfFree f o => some (opShfFree, f, o)
  | .shfBatch f o => some (opShfBatch, f, o)
  | .shfCommit f o => some (opShfCommit, f, o)
  | .ptInit f o => some (opPtInit, f, o)
  | .ptLayer f o => some (opPtLayer, f, o)
  | .ptAppend f o => some (opPtAppend, f, o)
  | .ptSet f o => some (opPtSet, f, o)
  | .ptFree f o => some (opPtFree, f, o)
  | .ptGet f o => some (opPtGet, f, o)
  | .ptTail f o => some (opPtTail, f, o)
  | .ptVcommit f o => some (opPtVcommit, f, o)
  | .ptGeoset f o => some (opPtGeoset, f, o)
  | .b f o => some (opB, f, o)
  | .beq f o => some (opBeq, f, o)
  | .bne f o => some (opBne, f, o)
  | .blt f o => some (opBlt, f, o)
  | .bge f o => some (opBge, f, o)
  | .bltu f o => some (opBltu, f, o)
  | .bgeu f o => some (opBgeu, f, o)
  | .br f o => some (opBr, f, o)
  | .end_ f o => some (opEnd, f, o)
  | .endCancel f o => some (opEndCancel, f, o)
  | .add f o => some (opAdd, f, o)
  | .sub f o => some (opSub, f, o)
  | .and_ f o => some (opAnd, f, o)
  | .or_ f o => some (opOr, f, o)
  | .xor f o => some (opXor, f, o)
  | .sll f o => some (opSll, f, o)
  | .srl f o => some (opSrl, f, o)
  | .sra f o => some (opSra, f, o)
  | .addi f o => some (opAddi, f, o)
  | .subi f o => some (opSubi, f, o)
  | .andi f o => some (opAndi, f, o)
  | .ori f o => some (opOri, f, o)
  | .xori f o => some (opXori, f, o)
  | .slli f o => some (opSlli, f, o)
  | .srli f o => some (opSrli, f, o)
  | .srai f o => some (opSrai, f, o)
  | .movi f o => some (opMovi, f, o)
  | .movhi f o => some (opMovhi, f, o)
  | .seq f o => some (opSeq, f, o)
  | .sne f o => some (opSne, f, o)
  | .slt f o => some (opSlt, f, o)
  | .sltu f o => some (opSltu, f, o)
  | .seqi f o => some (opSeqi, f, o)
  | .slti f o => some (opSlti, f, o)
  | .sltui f o => some (opSltui, f, o)
  | .pand f o => some (opPand, f, o)
  | .por f o => some (opPor, f, o)
  | .pnot f o => some (opPnot, f, o)
  | .mul f o => some (opMul, f, o)
  | .mulhu f o => some (opMulhu, f, o)
  | .movgh f o => some (opMovgh, f, o)
  | .movhg f o => some (opMovhg, f, o)
  | .vld f o => some (opVld, f, o)
  | .vst f o => some (opVst, f, o)
  | .vbcast f o => some (opVbcast, f, o)
  | .vext f o => some (opVext, f, o)
  | .vadd f o => some (opVadd, f, o)
  | .vsub f o => some (opVsub, f, o)
  | .vmul f o => some (opVmul, f, o)
  | .vfma f o => some (opVfma, f, o)
  | .vmax f o => some (opVmax, f, o)
  | .vmin f o => some (opVmin, f, o)
  | .vexp f o => some (opVexp, f, o)
  | .vrsum f o => some (opVrsum, f, o)
  | .vand f o => some (opVand, f, o)
  | .vor f o => some (opVor, f, o)
  | .vxor f o => some (opVxor, f, o)
  | .cvtQ f o => some (opCvtQ, f, o)
  | .cvtDq f o => some (opCvtDq, f, o)
  | .cvtF f o => some (opCvtF, f, o)
  | .movGh f o => some (opMovGh, f, o)
  | .movHg f o => some (opMovHg, f, o)
  | .movHh f o => some (opMovHh, f, o)
  | .movGg f o => some (opMovGg, f, o)
  | .glnFill f o => some (opGlnFill, f, o)
  | .glnInval f o => some (opGlnInval, f, o)
  | .cvtBlk f o => some (opCvtBlk, f, o)
  | .embGather f o => some (opEmbGather, f, o)
  | .adpLd f o => some (opAdpLd, f, o)
  | .fabLd f o => some (opFabLd, f, o)
  | .fabSt f o => some (opFabSt, f, o)
  | .fabPut f o => some (opFabPut, f, o)
  | .fabAtom f o => some (opFabAtom, f, o)
  | .fabCopy f o => some (opFabCopy, f, o)
  | .fabPull f o => some (opFabPull, f, o)
  | .fabQship f o => some (opFabQship, f, o)
  | .fabNotify f o => some (opFabNotify, f, o)
  | .fabWstream f o => some (opFabWstream, f, o)
  | .rowSt f o => some (opRowSt, f, o)
  | .rowAdd f o => some (opRowAdd, f, o)
  | .rowFlush f o => some (opRowFlush, f, o)
  | .mirPush f o => some (opMirPush, f, o)
  | .mirDrop f o => some (opMirDrop, f, o)
  | .rbStart f o => some (opRbStart, f, o)
  | .engFence f o => some (opEngFence, f, o)
  | .hskEnc f o => some (opHskEnc, f, o)
  | .hskEncBlk f o => some (opHskEncBlk, f, o)
  | .hskDec f o => some (opHskDec, f, o)
  | .winTopk f o => some (opWinTopk, f, o)
  | .winMerge f o => some (opWinMerge, f, o)
  | .sieveMask f o => some (opSieveMask, f, o)
  | .smpDraw f o => some (opSmpDraw, f, o)
  | .tileMm f o => some (opTileMm, f, o)
  | .tileMmAcc f o => some (opTileMmAcc, f, o)
  | .attnPart f o => some (opAttnPart, f, o)
  | .attnMerge f o => some (opAttnMerge, f, o)
  | .wait f o => some (opWait, f, o)
  | .fence f o => some (opFence, f, o)
  | .acntSet f o => some (opAcntSet, f, o)
  | .acntStat f o => some (opAcntStat, f, o)
  | .raCancel f o => some (opRaCancel, f, o)
  | .mtrRd f o => some (opMtrRd, f, o)
  | .qstRd f o => some (opQstRd, f, o)
  | .qstClr f o => some (opQstClr, f, o)
  | .frmAlloc f o => some (opFrmAlloc, f, o)
  | .frmFree f o => some (opFrmFree, f, o)
  | .mgOpen f o => some (opMgOpen, f, o)
  | .mgClose f o => some (opMgClose, f, o)
  | .mgStat f o => some (opMgStat, f, o)
  | .cbLoad f o => some (opCbLoad, f, o)
  | .cbRetire f o => some (opCbRetire, f, o)
  | .cbStat f o => some (opCbStat, f, o)
  | .embPublish f o => some (opEmbPublish, f, o)
  | .adpPublish f o => some (opAdpPublish, f, o)
  | .adpRetire f o => some (opAdpRetire, f, o)
  | .hoOffer f o => some (opHoOffer, f, o)
  | .hoAccept f o => some (opHoAccept, f, o)
  | .hoRefuse f o => some (opHoRefuse, f, o)
  | .hoConfirm f o => some (opHoConfirm, f, o)
  | .hoLose f o => some (opHoLose, f, o)
  | .hoAdopt f o => some (opHoAdopt, f, o)
  | .hoStat f o => some (opHoStat, f, o)
  | _ => none

/-- Operand fields that some slot word of the instruction holds (Tables 14-1 and 14-2). -/
def SlotOp.holds (op : SlotOp) (o : Slot) : Bool := op.enc.slot (op.enc.word o) = o

/-- Fields of a request that Table 11-3 can hold, and at most 65,536 + 8 bytes of payload (PLEN). -/
def Req.wf (m : Req) : Bool :=
  m.op < 256 && m.subop < 16 && m.cls < 8 && m.src < 16384 && m.tag < 65536 && m.plen < 65536 && m.job < 2 ^ 32 &&
    m.seq < 2 ^ 24 && m.payload.length ≤ 65544

/-- Fields of a response that Table 11-4 can hold. -/
def Rsp.wf (m : Rsp) : Bool :=
  m.op < 256 && m.status < 256 && m.src < 16384 && m.tag < 65536 && m.plen < 65536 && m.arg0 < 2 ^ 24 &&
    m.arg1 < 2 ^ 24 && m.cause < 256 && m.used < 2 ^ 32 && m.cls < 8 && m.payload.length ≤ 65544

/-- An HMP body of at most 65,536 bytes (R406); IMAGE_PUT's may be longer. -/
def bodyFits (body : List Byte) : Bool := body.length ≤ 65536

/-- The request that a command delivers. -/
def Instr.request : Instr → Option Req
  | .ldRequest m => some m
  | .stRequest m => some m
  | .atomAdd m => some m
  | .atomSmin m => some m
  | .atomSmax m => some m
  | .atomUmin m => some m
  | .atomUmax m => some m
  | .atomSwap m => some m
  | .atomCas m => some m
  | .atomFaddFp32 m => some m
  | .atomFaddBf16 m => some m
  | .copyRd m => some m
  | .copyWr m => some m
  | .pull m => some m
  | .qship m => some m
  | .notifyCounter m => some m
  | .notifySlotRelease m => some m
  | .rowUpdate m => some m
  | .pageWr m => some m
  | .abort m => some m
  | .offer m => some m
  | .accept m => some m
  | .refuse m => some m
  | .commit m => some m
  | .ack m => some m
  | .confirm m => some m
  | .stepped m => some m
  | .released m => some m
  | .reclaim m => some m
  | .reclaimAck m => some m
  | .epochSet m => some m
  | .cover m => some m
  | .drop m => some m
  | .lookup m => some m
  | .loss m => some m
  | .pageOpen m => some m
  | .holderFence m => some m
  | .reservedOpRequest m => some m
  | _ => none

/-- The response that a command delivers. -/
def Instr.response : Instr → Option Rsp
  | .ldResponse m => some m
  | .writeAck m => some m
  | .atomResponse m => some m
  | .copyRdResponse m => some m
  | .pageResponse m => some m
  | .pageWrAck m => some m
  | .qshipAnswer m => some m
  | .epochSetAnswer m => some m
  | .lookupAnswer m => some m
  | _ => none

/-- The HMP body that a command carries, IMAGE_PUT apart. -/
def Instr.body : Instr → Option (List Byte)
  | .hello _ bytes => some bytes
  | .csrRead _ bytes => some bytes
  | .csrWrite _ bytes => some bytes
  | .almanacRead _ bytes => some bytes
  | .unitStatus _ bytes => some bytes
  | .unitSet _ bytes => some bytes
  | .unitReconcile _ bytes => some bytes
  | .meterRead _ bytes => some bytes
  | .journalRead _ bytes => some bytes
  | .powerCap _ bytes => some bytes
  | .sessionCfg _ bytes => some bytes
  | .attest _ bytes => some bytes
  | .challenge _ bytes => some bytes
  | .imageActivate _ bytes => some bytes
  | .rollbackCommit _ bytes => some bytes
  | .ownerKeySet _ bytes => some bytes
  | .mgmtKeySet _ bytes => some bytes
  | .zeroise _ bytes => some bytes
  | _ => none

/-- The control payload that a command carries. -/
def Instr.control : Instr → Option (List Byte)
  | .ctrlInit _ bytes => some bytes
  | .ctrlAck _ bytes => some bytes
  | .ctrlNak _ bytes => some bytes
  | .ctrlCredit _ bytes => some bytes
  | .beacon _ bytes => some bytes
  | .beaconReply _ bytes => some bytes
  | _ => none

/-- Operands with limits of their own. -/
def Instr.limits : Instr → Bool
  | .registerWrite _ r _ => r.inRange
  | .rcRegisterRead _ r => r.inRange
  | .reservedOffsetAccess _ addr x => addr < 2 ^ 56 && (x.size = 1 || x.size = 2 || x.size = 4 || x.size = 8)
  | .walkFrameRelease _ frame => frame < frameCount
  | .frameZeroComplete frame _ => frame < frameCount
  | .demotionCommit frame => frame < frameCount
  | .tileStart _ faults => (faults.load ++ faults.loadAgain).all (fun c => c.k < 256 && c.col < 512)
  | .tileComplete _ faults _ =>
    (faults.rows ++ faults.rowsAgain).all (fun c => c.row < 4096 && c.k < 256 && c.col < 512) &&
      (faults.glean ++ faults.gleanAgain).all (fun c => c.row < 4096 && c.spare < 7)
  | .imagePut _ body => body.length ≤ 1048640
  | .flitReceive _ (.flit bytes) => bytes.length = 128
  | .flitReceive _ (.codeword lanes) => (lanes.length = 4 || lanes.length = 8) && lanes.all (fun l => l.2.length ≤ 136)
  | .laneRemapRequest _ r => r.heard.length = 8
  | .feedCheckComplete _ power => power.length = 9
  | .feedMeasure _ power => power.length = 9
  | .phyTrainComplete _ tx rx => tx.length = 9 && rx.locked.length = 9
  | .trendRecord _ feed heater errors => feed.length = 9 && heater.length = 9 && errors.length = 9
  | .hmpBadMessage _ type version _ => type < 256 && version < 256
  | .tilthEstimate domains slices => domains.length = 120 && slices.length = 64
  | .pmbusTransaction _ _ retries => retries.length ≤ 3
  | .tilthCalibrate milliamp => milliamp.length = 7
  | .thermalSample celsius => 4 ≤ celsius.length
  | _ => true

/-- A command whose every operand fits the field that carries it. -/
def Instr.wellFormed (i : Instr) : Bool :=
  i.limits &&
    (match i.asSlot with | some (op, _, o) => SlotOp.holds op o | none => true) &&
    (match i.request with | some m => m.wf | none => true) &&
    (match i.response with | some m => m.wf | none => true) &&
    (match i.body with | some bytes => bodyFits bytes | none => true) &&
    (match i.control with | some bytes => bytes.length ≤ 112 | none => true)

end Sys2Proof
end

