-- ==== Sys2Proof/Safety.lean ====
section
/-! DEFINITION. What a safe run is, and the words in which statements about commands are made: how a slot comes to issue,
what an issue adds, and the invariants of a state. -/

namespace Sys2Proof.Machine

/-! ### Safe runs -/

/-- A step that neither faults nor is refused. -/
def SafeStep (s : State) : Prop := ∃ t, step s = .next t

/-- A run is safe: every state it reaches within `n` steps steps on. -/
def SafeRun (s : State) (n : Nat) : Prop := ∃ t, Host.Core.run Sys2Proof.core n s = .next t

/-- Level-sensitive interrupt sources are asserted exactly while their status stands (R400). -/
def State.LevelsOk (s : State) : Prop := ∀ i ∈ levelSources, i ∈ s.irqs ↔ s.level i = true

/-- A command has the effect `p`: it ends in a next state of which `p` holds. -/
def Does (c : Instr) (s : State) (p : State → Prop) : Prop := ∃ t, exec c s = .next t ∧ p t

/-! ### Slots -/

/-- A Furrow runs a program, its domain is on, the slot's predicate is true (R99), and none of the general registers the slot
names awaits the result of an earlier instruction (R97, R101). -/
def State.issuing (s : State) (f : FurrowId) (pred : Fin 8) (regs : List (Fin 64)) (p : Program) : Prop :=
  s.running f.val = some p ∧ (s.furrow f.val).pr pred.val = true ∧ ∀ n ∈ regs, s.awaited f.val n.val = false

/-- What a slot reads at issue (R98). -/
def State.ctx (s : State) (f : FurrowId) (o : Slot) (p : Program) : Ctx := ⟨f.val, s.furrow f.val, o, p.slice⟩

/-- A slot issues normally: a program runs, its predicate is true (R99), its encoding is legal (R362 to R365), nothing
stalls it, its class has a place free (R97), every check of Table 14-5 passes (R368, R369), and what it reads of Hull holds no
uncorrectable error (R437). -/
structure State.issues (s : State) (op : SlotOp) (f : FurrowId) (o : Slot) (p : Program) : Prop where
  program : s.running f.val = some p
  predicate : (s.furrow f.val).pr o.pred.val = true
  legal : op.enc.fault o = none
  free : op.waits (s.ctx f o p) s = false
  room : op.room (s.furrow f.val) = true
  checked : firstFailure (op.allChecks (s.ctx f o p) s) = none

/-- The state in which the slot's effect is made: the stall of its bundle, if any, is over. -/
def State.unstalled (s : State) (f : FurrowId) : State := s.modProg f.val (fun p => { p with stallSince := none })

/-- The operands an asynchronous instruction captures at issue (R101); `id` is the operation's internal name. -/
def captured (op : SlotOp) (cls : OpClass) (r : Furrow) (o : Slot) (p : Program) (desc : List (List Byte)) (id : Nat) : AsyncOp :=
  { id, opc := op.enc.opc, cls, mod := o.mod.toNat, x := r.gr o.x.val, y := r.gr o.y.val, z := r.gr o.z.val, w := r.gr o.w.val,
    slice := p.slice, counter := o.ctr.map (·.val), ra := (op.enc.mods &&& 2048) != 0 && o.mod.getLsbD 11, desc }

/-- An operation becomes outstanding; nothing else changes but the counter of internal names. -/
def State.launched (s : State) (f : FurrowId) (x : AsyncOp) : State :=
  { s with nextId := s.nextId + 1 }.modFurrow f.val (fun r => { r with ops := r.ops ++ [x] })

/-- An S7 instruction returns a status: register X takes Table 14-6's layout, and the counter falls (R375). -/
def State.returns (s : State) (f : FurrowId) (o : Slot) (code result : Nat) : State :=
  (s.setG f.val o.x.val (statusWord code result)).arrive f.val (o.ctr.map (·.val)) (Done.ofCode code)

/-! ### Requests and responses -/

/-- A write-class request passes every check of its arrival, its target is `t`, and its turn has come (R287 to R292); `u` is the
state after the checks. -/
structure State.inTurn (s : State) (m : Req) (t : Target) (u : State) : Prop where
  checked : s.screen m = (.served t, u)
  plain : m.resync = false
  next : seqAhead m (u.rxStream (u.reqStream m)) = 0

/-- A request takes its turn (R291): SEQ moves on, the request has its effect, given the PAGE_OPEN just before it, and held
requests whose turn has come follow, and then ordered loads that waited for them. -/
def State.takesTurn (u : State) (m : Req) (effect : Option Req → State → State) : State :=
  let k := u.reqStream m
  let x := u.rxStream k
  let v := effect x.opened (u.setRx k { x with next := (x.next + 1) % 2 ^ 24, opened := none })
  let w := State.drain serveWrite k (v.rxStream k).held.length v
  (w.setRx k (w.timeHole (w.rxStream k))).wakeLoads k

end Sys2Proof.Machine
end

