-- ==== Sys2Proof/Certificates/Slice0/Obligations.lean ====
section
/-! DEFINITION. The statements about the block: what its commands do, family by family, and what holds of every step. -/

open Sys2Proof Sys2Proof.Machine

/-- Table 14-8, register operands: gX takes the 64-bit result of gY and gZ, shifts take gZ[5:0], MULHU the high half of the
unsigned product; g0 discards it (R98), and nothing else changes. What it takes from log entry 9 is the model's choice. -/
def Obligations.ScalarArithmetic : Prop :=
  ∀ (f : FurrowId) (s : State) (p : Program) (q : Fin 8) (x y z : Fin 64), s.issuing f q [x, y, z] p →
    let o : Slot := { pred := q, x, y, z }
    let a := (s.furrow f.val).gr y.val
    let b := (s.furrow f.val).gr z.val
    let gives (c : Instr) (v : Word) : Prop := exec c s = .next ((s.unstalled f).setG f.val x.val v).sense
    gives (.add f o) (a + b) ∧ gives (.sub f o) (a - b) ∧ gives (.and_ f o) (a &&& b) ∧ gives (.or_ f o) (a ||| b) ∧
    gives (.xor f o) (a ^^^ b) ∧ gives (.sll f o) (a <<< (b.toNat % 64)) ∧ gives (.srl f o) (a >>> (b.toNat % 64)) ∧
    gives (.sra f o) (a.sshiftRight (b.toNat % 64)) ∧ gives (.mul f o) (a * b) ∧
    gives (.mulhu f o) (BitVec.ofNat 64 (a.toNat * b.toNat / 2 ^ 64))

/-- Table 14-8, immediates: arithmetic sign-extends IMM, logic zero-extends it, shifts take 0 to 63, MOVHI puts it into the high
half. What it takes from log entry 9 is the model's choice. -/
def Obligations.ScalarImmediates : Prop :=
  ∀ (f : FurrowId) (s : State) (p : Program) (q : Fin 8) (x y : Fin 64) (imm : BitVec 32), s.issuing f q [x, y] p →
    let o : Slot := { pred := q, x, y, imm }
    let m : Slot := { pred := q, x, imm }
    let a := (s.furrow f.val).gr y.val
    let gives (c : Instr) (v : Word) : Prop := exec c s = .next ((s.unstalled f).setG f.val x.val v).sense
    gives (.addi f o) (a + imm.signExtend 64) ∧ gives (.subi f o) (a - imm.signExtend 64) ∧
    gives (.andi f o) (a &&& imm.zeroExtend 64) ∧ gives (.ori f o) (a ||| imm.zeroExtend 64) ∧
    gives (.xori f o) (a ^^^ imm.zeroExtend 64) ∧
    (imm.toNat < 64 →
      gives (.slli f o) (a <<< imm.toNat) ∧ gives (.srli f o) (a >>> imm.toNat) ∧ gives (.srai f o) (a.sshiftRight imm.toNat)) ∧
    gives (.movi f m) (imm.signExtend 64) ∧ gives (.movhi f m) (imm.zeroExtend 64 <<< 32)

/-- Table 14-8, comparisons and moves between register files: pX takes the truth of the comparison (SLTUI compares the sign-
extended IMM as unsigned), p0 discards it (R98), MOVGH and MOVHG copy 64 bits. What it takes from log entry 9 is the model's
choice. -/
def Obligations.ScalarComparisons : Prop :=
  ∀ (f : FurrowId) (s : State) (p : Program) (q : Fin 8) (x y z h i j : Fin 64) (imm : BitVec 32), s.issuing f q [i, j] p →
    x.val < 8 → y.val < 8 → z.val < 8 → h.val < 16 →
    let o : Slot := { pred := q, x, y := i, z := j }
    let n : Slot := { pred := q, x, y := i, imm }
    let r := s.furrow f.val
    let a := r.gr i.val
    let b := r.gr j.val
    let k := imm.signExtend 64
    let tests (c : Instr) (v : Bool) : Prop := exec c s = .next ((s.unstalled f).setP f.val x.val v).sense
    tests (.seq f o) (a == b) ∧ tests (.sne f o) (a != b) ∧ tests (.slt f o) (a.slt b) ∧ tests (.sltu f o) (a.ult b) ∧
    tests (.seqi f n) (a == k) ∧ tests (.slti f n) (a.slt k) ∧ tests (.sltui f n) (a.ult k) ∧
    tests (.pand f { pred := q, x, y, z }) (r.pr y.val && r.pr z.val) ∧
    tests (.por f { pred := q, x, y, z }) (r.pr y.val || r.pr z.val) ∧
    tests (.pnot f { pred := q, x, y }) (!r.pr y.val) ∧
    exec (.movgh f { pred := q, x := h, y := i }) s = .next ((s.unstalled f).setH f.val h.val a).sense ∧
    exec (.movhg f { pred := q, x := i, y := h }) s = .next ((s.unstalled f).setG f.val i.val (r.hr h.val)).sense

/-- Table 14-8, branches: a taken branch names the next bundle (R100), one not taken changes nothing; BR takes gX[11:0] and
needs the bits above clear. What it takes from log entry 9 is the model's choice. -/
def Obligations.Branches : Prop :=
  ∀ (f : FurrowId) (s : State) (p : Program) (q : Fin 8) (x y : Fin 64) (tgt : Fin 4096), s.issuing f q [x, y] p →
    let o : Slot := { pred := q, x, y, tgt }
    let a := (s.furrow f.val).gr x.val
    let b := (s.furrow f.val).gr y.val
    let goes (c : Instr) (taken : Bool) (t : Nat) : Prop :=
      exec c s = .next (if taken then (s.unstalled f).modProg f.val (fun p => { p with pc := t }) else s.unstalled f).sense
    goes (.b f { pred := q, tgt }) true tgt.val ∧
    goes (.beq f o) (a == b) tgt.val ∧ goes (.bne f o) (a != b) tgt.val ∧ goes (.blt f o) (a.slt b) tgt.val ∧
    goes (.bge f o) (!a.slt b) tgt.val ∧ goes (.bltu f o) (a.ult b) tgt.val ∧ goes (.bgeu f o) (!a.ult b) tgt.val ∧
    (a.toNat < 4096 → goes (.br f { pred := q, x }) true a.toNat)

/-- R93, R112: END and END.CANCEL send the held row updates out and end the program, END.CANCEL after cancelling its run-ahead
actions. What it takes from log entry 9 is the model's choice. -/
def Obligations.ProgramEnds : Prop :=
  ∀ (f : FurrowId) (s : State) (p : Program) (q : Fin 8), s.issuing f q [] p →
    let ends (t : State) : Res := .next ((t.flushRows f.val).modProg f.val (fun p => { p with phase := .ending })).sense
    exec (.end_ f { pred := q }) s = ends (s.unstalled f) ∧
    exec (.endCancel f { pred := q }) s = ends ((s.unstalled f).cancelAll f.val (fun _ => true))

/-- R102 to R106, R156, R395: the counter instructions. WAIT ends once its counter is at or below the threshold, FENCE once no
operation of its class is outstanding; ACNT.SET clears the status; ACNT.STAT reads status and value, and .CLR clears the status;
MTR.RD and QST.RD read; QST.CLR clears a statistics set; RA.CANCEL cancels the run-ahead actions that name the counter. What it
takes from log entry 9 is the model's choice. -/
def Obligations.CounterInstructions : Prop :=
  ∀ (f : FurrowId) (s : State) (p : Program) (o : Slot),
    let r := s.furrow f.val
    let t := s.unstalled f
    let x := o.x.val
    (s.issues opWait f o p →
      (r.ar x).val ≤ (if o.mod.getLsbD 0 then signed 32 (r.gr o.y.val).toNat else signed 32 o.imm.toNat) ∧
        exec (.wait f o) s = .next t.sense) ∧
    (s.issues opFence f o p → exec (.fence f o) s = .next t.sense) ∧
    (s.issues opAcntSet f o p →
      exec (.acntSet f o) s = .next (t.setA f.val x ⟨signed 32 (fld (r.gr o.y.val) 31 0 + o.imm.toNat), 0⟩).sense) ∧
    (s.issues opAcntStat f o p →
      let a := r.ar o.y.val
      let u := t.setG f.val x (BitVec.ofNat 64 (a.stat + unsigned 32 a.val * 2 ^ 32))
      exec (.acntStat f o) s =
        .next (if o.mod.getLsbD 0 then u.setA f.val o.y.val ⟨((u.furrow f.val).ar o.y.val).val, 0⟩ else u).sense) ∧
    (s.issues opMtrRd f o p →
      exec (.mtrRd f o) s = .next (t.setG f.val x (s.rd ⟨.slcMtr, p.slice, o.imm.toNat, 0⟩)).sense) ∧
    (s.issues opQstRd f o p → exec (.qstRd f o) s = .next (t.setG f.val x (s.rd (qstReg f.val o.imm.toNat))).sense) ∧
    (s.issues opQstClr f o p →
      exec (.qstClr f o) s = .next (t.resetRegs (fun r => r.n = f.val && r.j = o.imm.toNat &&
        (r.reg = .frwQstSse || r.reg = .frwQstSsx || r.reg = .frwQstCount || r.reg = .frwQstClip || r.reg = .frwQstHist))).sense) ∧
    (s.issues opRaCancel f o p →
      exec (.raCancel f o) s = .next (t.cancelAll f.val (fun a => a.counter = some x)).sense)

/-- R141, R153, R155, R156, R377, Table 14-9: the vector instructions and conversions, each into vX (VEXT into gX, VST into 256
bytes of Hull at gX + IMM). Lane operations take the lane type of MOD[2:0]; floating-point lanes are exact and rounded once;
VRSUM adds the lanes in ascending order, each sum rounded; VLD that meets a poisoned line sets POISON_READ. CVT.Q chooses an
exponent for each governed group (or takes gW's under .E), writes the codes to vX and the exponents to gY; CVT.DQ multiplies
codes by their exponents, a void exponent giving all ones and POISON_READ; CVT.F narrows element by element. A stochastic mode
advances the Furrow's count; with statistics on, one chunk reaches the set that MOD[5:4] names. What it takes from log entries
2, 3, 5, 9, 11 is the model's choice. -/
def Obligations.VectorSlots : Prop :=
  (
  ∀ (f : FurrowId) (s : State) (p : Program) (o : Slot),
    let r := s.furrow f.val
    let t := s.unstalled f
    let m := o.mod.toNat % 8
    let w := (laneShape m).1
    let ls (n : Fin 64) : List Nat := lanes w (laneShape m).2 (r.vr n.val)
    let vec (op : SlotOp) (c : Instr) (v : VecWord) : Prop :=
      s.issues op f o p → exec c s = .next (t.setV f.val o.x.val v).sense
    let lane (op : SlotOp) (c : Instr) (fp : FVal → FVal → FVal) (int : Int → Int → Int) : Prop :=
      vec op c (ofLanes w (List.zipWith (fun a b =>
        match laneFmt m with
        | some g => g.encode (fp (g.decode a) (g.decode b))
        | none => unsigned w (int (signed w a) (signed w b))) (ls o.y) (ls o.z)))
    lane opVadd (.vadd f o) FVal.add (· + ·) ∧
    lane opVsub (.vsub f o) (fun a b => FVal.add a (FVal.neg b)) (· - ·) ∧
    lane opVmul (.vmul f o) FVal.mul (· * ·) ∧
    lane opVmax (.vmax f o) FVal.maxNum max ∧
    lane opVmin (.vmin f o) FVal.minNum min ∧
    vec opVand (.vand f o) (r.vr o.y.val &&& r.vr o.z.val) ∧
    vec opVor (.vor f o) (r.vr o.y.val ||| r.vr o.z.val) ∧
    vec opVxor (.vxor f o) (r.vr o.y.val ^^^ r.vr o.z.val) ∧
    vec opVbcast (.vbcast f o) (ofLanes w (List.replicate (laneShape m).2 ((r.gr o.y.val).toNat % 2 ^ w))) ∧
    vec opVexp (.vexp f o) (ofLanes 32 ((lanes 32 64 (r.vr o.y.val)).map f32exp)) ∧
    vec opVfma (.vfma f o) (ofLanes w (List.zipWith (fun q d =>
      match laneFmt m with
      | some g => g.encode (FVal.add (FVal.mul (g.decode q.1) (g.decode q.2)) (g.decode d))
      | none => unsigned w (signed w q.1 * signed w q.2 + signed w d)) ((ls o.y).zip (ls o.z)) (ls o.w))) ∧
    vec opVrsum (.vrsum f o) (ofLanes w [((ls o.y).drop 1).foldl (laneOp m FVal.add (fun _ a b => a + b)) ((ls o.y).headD 0)]) ∧
    (s.issues opVext f o p → exec (.vext f o) s =
      .next (t.setG f.val o.x.val (BitVec.ofNat 64 (bits (r.vr o.y.val).toNat (32 * o.imm.toNat + 31) (32 * o.imm.toNat)))).sense) ∧
    (s.issues opVld f o p →
      let a := (r.gr o.y.val + o.imm.signExtend 64).toNat
      let u := t.setV f.val o.x.val (BitVec.ofNat 2048 (r.hull.readNat a 256))
      a % 64 = 0 ∧ a + 256 ≤ 0x300000 ∧
        exec (.vld f o) s = .next (if r.hull.anyPoison a 256 then u.poisonRead f.val else u).sense) ∧
    (s.issues opVst f o p →
      let a := (r.gr o.x.val + o.imm.signExtend 64).toNat
      a % 64 = 0 ∧ a + 256 ≤ 0x300000 ∧
        exec (.vst f o) s = .next (t.modHull f.val (fun h => h.writeNat a 256 (r.vr o.y.val).toNat)).sense)
  ) ∧ (
  ∀ (f : FurrowId) (s : State) (p : Program) (o : Slot),
    let r := s.furrow f.val
    let t := s.unstalled f
    let m := o.mod.toNat
    let md := bits m 7 6
    let xs (n : Fin 64) : List FVal := (lanes 32 64 (r.vr n.val)).map fp32.decode
    let mode (i : Nat) : RMode := rmodeOf md (s.rd ⟨.slcSrKey, p.slice, 0, 0⟩) f.val r.srCount i
    let ends (u : State) (es : List StatElem) : Res :=
      let u := u.srStep f.val (md == 2)
      .next (if m.testBit 3 then u.statChunk f.val (bits m 5 4) es else u).sense
    (s.issues opCvtQ f o p →
      let g := cvtTarget m
      let groups := (chunks (cvtGroup g) (xs o.z)).zipIdx
      let es := groups.map fun q =>
        if m.testBit 2 then bits (r.gr o.w.val).toNat (8 * q.2 + 7) (8 * q.2) else chooseExp g q.1
      let rs := List.zipWith (fun q e => quantGroup g e mode (q.2 * cvtGroup g) q.1) groups es
      exec (.cvtQ f o) s =
        ends ((t.setV f.val o.x.val (ofLanes g.width (rs.flatMap (·.1)))).setG f.val o.y.val (BitVec.ofNat 64 (joinLanes 8 es)))
          (rs.flatMap (·.2))) ∧
    (s.issues opCvtDq f o p →
      let g := cvtTarget m
      let e (i : Nat) : Nat := bits (r.gr o.z.val).toNat (8 * i + 7) (8 * i)
      let value (c : Nat) : FVal := match g with | .int w _ => FVal.ofInt (signed w c) | .fp q => q.decode c
      let out := (lanes g.width 64 (r.vr o.y.val)).zipIdx.map fun q =>
        if e (q.2 / cvtGroup g) = 0x80 then 0xFFFFFFFF
        else fp32.encode (FVal.scale (signed 8 (e (q.2 / cvtGroup g))) (value q.1))
      let u := t.setV f.val o.x.val (ofLanes 32 out)
      exec (.cvtDq f o) s =
        .next (if (List.range (64 / cvtGroup g)).any (fun i => e i == 0x80) then u.poisonRead f.val else u).sense) ∧
    (s.issues opCvtF f o p →
      let g := match m % 4 with | 0 => bf16 | 1 => fp16 | 2 => e4m3 | _ => e5m2
      let rs := (xs o.y).zipIdx.map fun q =>
        let c := (Narrow.fp g).apply (mode q.2) q.1
        (c.1, (⟨q.1, if q.1.isFinite && !c.2.2 then some c.2.1 else none, c.2.2⟩ : StatElem))
      exec (.cvtF f o) s = ends (t.setV f.val o.x.val (ofLanes g.width (rs.map (·.1)))) (rs.map (·.2)))
  )

/-- R97, R101, R118, R155, R243, R244, R249, R257, R378: local moves, Glean fills and invalidations, block conversions and
gathers issue as asynchronous operations with the operands read at issue, and change nothing else until they complete; CVT.BLK
captures both block descriptors; EMB.GATHER latches its table's version and raises READERS of it, where the table has a record;
ADP.LD latches the adapter version pinned in the entry. What it takes from log entries 9, 16, 17 is the model's choice. -/
def Obligations.TransfersIssue : Prop :=
  (
  ∀ (f : FurrowId) (s : State) (p : Program) (o : Slot),
    ∀ e ∈ ([(Instr.movGh, opMovGh), (Instr.movHg, opMovHg), (Instr.movHh, opMovHh), (Instr.movGg, opMovGg),
        (Instr.glnFill, opGlnFill), (Instr.glnInval, opGlnInval)] : List ((FurrowId → Slot → Instr) × SlotOp)),
      s.issues e.2 f o p →
        exec (e.1 f o) s = .next ((s.unstalled f).launched f (captured e.2 .mov (s.furrow f.val) o p [] s.nextId)).sense
  ) ∧ (
  ∀ (f : FurrowId) (s : State) (p : Program) (o : Slot),
    let r := s.furrow f.val
    let t := s.unstalled f
    let y := r.gr o.y.val
    (s.issues opCvtBlk f o p → exec (.cvtBlk f o) s =
      .next (t.launched f (captured opCvtBlk .mov r o p (t.readDescs f.val [r.gr o.x.val, y]) s.nextId)).sense) ∧
    (s.issues opEmbGather f o p →
      let u := t.launched f (captured opEmbGather .mov r o p [] s.nextId)
      exec (.embGather f o) s = .next (match t.embRec y.toNat with
        | none => u
        | some e => (u.modOp f.val s.nextId (fun a => { a with latch := [e.version, e.base, e.so, e.rows, e.dim, e.fmt] })).embLatch
            y.toNat).sense) ∧
    (s.issues opAdpLd f o p →
      let e := s.entry (fld y 14 0)
      exec (.adpLd f o) s = .next ((t.launched f (captured opAdpLd .mov r o p [] s.nextId)).modOp f.val s.nextId
        (fun a => { a with latch := [adpKey e.customer e.model, e.adapter] })).sense)
  )

/-- R102, R370, R378: a local move completes: the bytes up to the first frame that fails its check are moved, lines keep their
poison marks, the operation is no longer outstanding, and its counter falls once, with PROTECTION where a frame stopped it and
POISON where a line was poisoned. A move within Hull reads every line before it writes. What it takes from log entry 2 is the
model's choice. -/
def Obligations.MovesComplete : Prop :=
  ∀ (f : FurrowId) (id : Nat) (s : State) (o : AsyncOp), s.op? f.val id = some o → o.cls = .mov →
    let x := o.x.toNat
    let y := o.y.toNat
    let z := o.z.toNat
    let hull := (s.furrow f.val).hull
    let done (k : Nat) (ls : List (List Byte × Bool)) : Done := { code := if k = z then 0 else 0x9B, poison := ls.any (·.2) }
    (o.opc = 0x61 →
      let n := s.allowed o.slice y z false
      let l := s.readLines f.val y n
      exec (.moveComplete f id) s = .next ((l.2.modHull f.val (fun m => linesTo m x l.1)).finish f.val id (done n l.1)).sense) ∧
    (o.opc = 0x62 →
      let n := s.allowed o.slice x z true
      let ls := linesOf hull y (n / 64)
      exec (.moveComplete f id) s = .next ((s.linesToGranary f.val x ls).finish f.val id (done n ls)).sense) ∧
    (o.opc = 0x63 →
      let ls := linesOf hull y (z / 64)
      exec (.moveComplete f id) s = .next ((s.modHull f.val (fun m => linesTo m x ls)).finish f.val id (done z ls)).sense) ∧
    (o.opc = 0x64 →
      let n := min (s.allowed o.slice y z false) (s.allowed o.slice x z true) / 64 * 64
      let l := s.readLines f.val y n
      exec (.moveComplete f id) s = .next ((l.2.linesToGranary f.val x l.1).finish f.val id (done n l.1)).sense)

/-- R279, R280, R284, R295: FAB.LD, FAB.ST, FAB.ATOM and FAB.NOTIFY each send one request, with the size .SIZE gives and the
data read from Hull at issue; with no usable port the operation completes at once with NO_ROUTE. What it takes from log entries
13, 21 is the model's choice. -/
def Obligations.FabricSends : Prop :=
  ∀ (f : FurrowId) (s : State) (p : Program) (o : Slot),
    let r := s.furrow f.val
    let mod := o.mod.toNat
    let cls := mod / 256 % 8
    let x := r.gr o.x.val
    let y := r.gr o.y.val
    let z := fld (r.gr o.z.val) 31 0
    let n := 8 * 2 ^ (mod % 8)
    let k := 4 * 2 ^ (mod / 16 % 8)
    let k2 := if mod % 16 = 6 then 2 * k else k
    let sends (c : Instr) (op : SlotOp) (ask : Ask) : Prop :=
      s.issues op f o p →
        let u := (s.unstalled f).launched f (captured op .fab r o p [] s.nextId)
        exec c s = .next (match u.request (.op f.val s.nextId) p.slice ask with
          | none => u.finish f.val s.nextId (Done.ofCode 0x5D)
          | some v => v.modOp f.val s.nextId (fun a => { a with left := 1 })).sense
    sends (.fabLd f o) opFabLd { op := 0x01, cls, ord := mod.testBit 3, addr := y, len := n } ∧
    sends (.fabSt f o) opFabSt { op := 0x02, cls, addr := x, payload := r.hull.readBytes (fld y 31 0) n, len := n,
                                 poison := r.hull.anyPoison (fld y 31 0) n } ∧
    sends (.fabAtom f o) opFabAtom
      { op := 0x03, subop := mod % 16, cls, addr := y, payload := r.hull.readBytes z k2 ++ fillBytes (ceilDiv k2 8 * 8 - k2) 0,
        len := k, poison := r.hull.anyPoison z k2 } ∧
    sends (.fabNotify f o) opFabNotify { op := 0x08, cls, addr := x, payload := toBytes 8 y.toNat }

/-- R281, R380: FAB.PUT and FAB.COPY issue, send up to 64 messages, and complete once nothing is outstanding and all is moved or
one message has failed. What it takes from log entry 21 is the model's choice. -/
def Obligations.FabricCopies : Prop :=
  ∀ (f : FurrowId) (s : State) (p : Program) (o : Slot),
    ∀ e ∈ ([(Instr.fabPut, opFabPut), (Instr.fabCopy, opFabCopy)] : List ((FurrowId → Slot → Instr) × SlotOp)),
      s.issues e.2 f o p →
        exec (e.1 f o) s = .next ((((s.unstalled f).launched f (captured e.2 .fab (s.furrow f.val) o p [] s.nextId)).chainPump
          f.val s.nextId 64).chainEnd f.val s.nextId).sense

/-- R183, R187, R282, R283, R380: a pull of a request whose handover this node has not confirmed is refused with STALE_EPOCH; a
pull is otherwise sent with its 16 bytes of Hull. A ship whose request, layer or shape is wrong completes with its code and
sends nothing; a ship outside a merge group is sent with its queries. What it takes from log entries 14, 20, 21 is the model's
choice. -/
def Obligations.PullsAndShips : Prop :=
  ∀ (f : FurrowId) (s : State) (p : Program) (o : Slot),
    let r := s.furrow f.val
    let t := s.unstalled f
    let cls := o.mod.toNat / 256 % 8
    let bytes (w : Word) (n : Nat) : List Byte := r.hull.readBytes (fld w 31 0) n
    let y := r.gr o.y.val
    let z := r.gr o.z.val
    let w := r.gr o.w.val
    (s.issues opFabPull f o p →
      let q := pullReqOf (bytes y 16)
      let a := captured opFabPull .fab r o p [bytes y 16, bytes z (8 * q.count)] s.nextId
      let u := t.launched f a
      let own := (u.ownRequest p.slice q.request).any (fun i => u.unconfirmed i && (u.entry i).epoch = q.epoch)
      exec (.fabPull f o) s = .next (if own then u.pullEnd f.val a [] 0x25 { code := 0x25, refused := true }
        else
          match u.request (.op f.val s.nextId) p.slice { op := 0x06, cls, addr := r.gr o.x.val, payload := bytes y 16 } with
          | none => u.finish f.val s.nextId (Done.ofCode 0x5D)
          | some v => v).sense) ∧
    (s.issues opFabQship f o p →
      let bs := bytes z 64
      let d := attnDescOf bs
      let i := fld w 30 16
      let e := s.entry i
      let dim := (s.entryDims i).1
      let l : AttnLatch := ⟨0, 0, e.floor, e.reqId.toNat, dim, i, 0⟩
      let a := captured opFabQship .fab r o p [bs] s.nextId
      let u := (t.launched f a).modOp f.val s.nextId (fun b => { b with latch := l.list })
      let ends (code : Nat) : State := u.finish f.val s.nextId (Done.ofCode code)
      exec (.fabQship f o) s = .next (match u.shipCode i (fld w 8 0) d, u.joinGroup d.slot with
        | 0, .ok (gid, window) =>
          if gid != 0 && !(Table.get (⟨[], 0, 0⟩ : MergeGroup) u.groups (d.slot - 1)).members.contains (gaNode y) then ends 0x24
          else
            let v := u.modOp f.val s.nextId (fun b => { b with latch := { l with gid, stop := u.time + window }.list })
            if v.unconfirmed i then
              if gid = 0 then v.shipFault f.val { a with latch := l.list } 0x25 { code := 0x25, poison := true, refused := true }
              else v.memberFault gid (gaNode y) 0x25
            else v.sendShip (s.ctx f o p) s.nextId (fld w 8 0) gid window e d dim
        | 0, .error 0x2B => u.joinAborted f.val { a with latch := l.list } d.slot
        | 0, .error code => ends code
        | code, _ => ends code).sense)

/-- R258, R260, R380: ROW.ST and ROW.ADD put an update of one row into their Furrow's update buffer; a node number above 16,383
completes with NO_ROUTE (log entry 22). ROW.FLUSH sends every held update and falls its counter. What it takes from log entry 22
is the model's choice. -/
def Obligations.RowUpdates : Prop :=
  ∀ (f : FurrowId) (s : State) (p : Program) (o : Slot),
    let r := s.furrow f.val
    let x := (r.gr o.x.val).toNat
    let key := (r.gr o.y.val).toNat
    let z := r.gr o.z.val
    let a := fld (r.gr o.w.val) 31 0
    let cls := o.mod.toNat / 256 % 8
    let (n, wide) := (s.unstalled f).rowShape key (fld z 7 0) |>.1
    let t := (s.unstalled f).rowShape key (fld z 7 0) |>.2
    let puts (c : Instr) (op : SlotOp) (add : Bool) : Prop :=
      s.issues op f o p →
        let u := t.launched f (captured op .fab r o p [] t.nextId)
        exec c s = .next (if 2 ^ 14 ≤ x then u.finish f.val t.nextId (Done.ofCode 0x5D)
          else u.rowPut f.val
            { node := x, key, version := fld z 7 0, row := fld z 13 8, slice := p.slice, cls, wide, add,
              data := (t.hull f.val).readBytes a n, poison := (t.hull f.val).anyPoison a n, ops := [t.nextId] }).sense
    puts (.rowSt f o) opRowSt false ∧ puts (.rowAdd f o) opRowAdd true ∧
    (s.issues opRowFlush f o p →
      exec (.rowFlush f o) s = .next (((s.unstalled f).flushRows f.val).arrive f.val (o.ctr.map (·.val)) Done.ok).sense)

/-- R239, R241, R352, R355, R357, R360, R380: the engines' operations. FAB.WSTREAM gets BUSY while its stream number is in use
and BAD_PARAM for a window that cannot be sent, else its stream starts at the first layer; MIR.PUSH latches the chunk and starts
its walks; MIR.DROP sends DROP to every member; RB.START fails with BAD_PARAM, PROTECTION, HO_FULL or NO_FRAME, else asks its
sources; ENG.FENCE sends ENGINE_FENCE to the engine of its port. What it takes from log entries 24, 25, 26, 27 is the model's
choice. -/
def Obligations.EngineOperations : Prop :=
  ∀ (f : FurrowId) (s : State) (p : Program) (o : Slot),
    let r := s.furrow f.val
    let x := r.gr o.x.val
    let bs := r.hull.readBytes (fld x 31 0) 64
    let id := s.nextId
    let launch (op : SlotOp) (desc : List (List Byte)) : State :=
      (s.unstalled f).launched f (captured op .fab r o p desc id)
    let fails (u : State) (code : Nat) : State := u.finish f.val id (Done.ofCode code)
    (s.issues opFabWstream f o p →
      let u := launch opFabWstream [bs]
      let k := o.mod.toNat % 4
      let stream : WStream := { k, op := id, slice := p.slice, cls := o.mod.toNat / 256 % 8, desc := bs, ra := o.mod.getLsbD 11,
                                next := (windowDesc bs).first }
      exec (.fabWstream f o) s = .next (
        if (match u.stream? f.val k with | none => false | some y => !y.ended) then fails u 0x87
        else if u.windowBad (windowDesc bs) then fails u 0x86
        else u.modFurrow f.val (fun r => { r with streams := r.streams.filter (fun (y : WStream) => y.k != k) ++ [stream] })).sense) ∧
    (s.issues opMirPush f o p →
      let u := launch opMirPush []
      let i := fld x 14 0
      let e := s.entry i
      let y := r.gr o.y.val
      let z := r.gr o.z.val
      let push : Push := { furrow := f.val, op := id, slice := p.slice, entry := i, request := e.reqId, epoch := e.epoch,
                           policy := e.mirrorPolicy, chunk := z.toNat, len := e.len }
      let v := (u.setEntry i { e with chunk := z.toNat }).startPush push f.val (fld y 8 0) (fld y 24 16) none
      exec (.mirPush f o) s = .next (match pushCode (s.owns i) e y z with
        | some code => fails u code
        | none => v.2.pushAdvance v.1).sense) ∧
    (s.issues opMirDrop f o p →
      let u := launch opMirDrop []
      let e := s.entry (fld x 14 0)
      let drop (s : State) (m : Nat × Nat) : State :=
        s.opSend f.val id p.slice (hoAsk (nodeAddr m.2 p.slice) { request := e.reqId, epoch := e.epoch, kind := 13 } [])
      exec (.mirDrop f o) s =
        .next (if !u.mayDrop (fld x 14 0) then fails u 0x21 else (e.members.foldl drop u).errandsEnd f.val id).sense) ∧
    (s.issues opRbStart f o p →
      let u := launch opRbStart [bs]
      let d := rbDescOf bs
      let job : Rebuild := { furrow := f.val, op := id, slice := p.slice, desc := bs, todo := d.todo }
      let ask (s : State) (m : Nat × Nat) : State :=
        (s.rebuildSend id (.fence id m.1) p.slice m { request := d.request, epoch := d.epoch, kind := 17, arg := 1 }).rebuildSend
          id (.lookupSource id m.1) p.slice m { request := d.request, epoch := 0, kind := 14 }
      exec (.rbStart f o) s = .next (
        if d.bad then fails u 0x86
        else if !u.bitmapOk p.slice d.bitmap then fails u 0x9B
        else
          match u.rebuildHold p.slice d with
          | .error code => fails u code
          | .ok v => d.sources.foldl ask { v with rebuilds := Table.set v.rebuilds id job }).sense) ∧
    (s.issues opEngFence f o p →
      let u := launch opEngFence []
      let fence : Ask := { hoAsk (engineAddr u.node p.slice x.toNat 0) { request := 0, epoch := 0, kind := 18 } [] with
                           fixed := some x.toNat }
      exec (.engFence f o) s = .next (
        if 24 ≤ x.toNat then fails u 0x86
        else if !u.hasEngine x.toNat then fails u 0x5D
        else (u.opSend f.val id p.slice fence).errandsEnd f.val id).sense)

/-- R101, R116, R176, R203, R210 to R214, R219, R265, R270, R381: operations of the units issue. A tile goes to the array R124
or R135 picks; a merge of partials to an available array; searches and merges of results, which keep the shapes of their blocks,
to a Winnow unit; masks and draws to a Sieve unit. HSK.ENC keeps the status found at issue; a PQ encode holds its codebook, and
queues its search if it may run; HSK.DEC holds the codebooks its pages name. What it takes from log entries 18, 19 is the
model's choice. -/
def Obligations.UnitOperationsIssue : Prop :=
  ∀ (f : FurrowId) (s : State) (p : Program) (o : Slot),
    let r := s.furrow f.val
    let t := s.unstalled f
    let id := s.nextId
    let field := f.val / 16
    let x := r.gr o.x.val
    let y := r.gr o.y.val
    let z := r.gr o.z.val
    let w := r.gr o.w.val
    let mod := o.mod.toNat
    let ds := t.readDescs f.val [x, y, z]
    let launch (op : SlotOp) (cls : OpClass) (desc : List (List Byte)) : State := t.launched f (captured op cls r o p desc id)
    (∀ e ∈ ([(Instr.tileMm, opTileMm), (Instr.tileMmAcc, opTileMmAcc)] : List ((FurrowId → Slot → Instr) × SlotOp)),
      s.issues e.2 f o p → exec (e.1 f o) s = .next (match t.tileTarget field mod (allHull ds) with
        | none => t
        | some (k, redirected) =>
          ((launch e.2 .mat ds).queueJob k ⟨.tile, f.val, id⟩).bumpIf redirected ⟨.fldThrRedirectCnt, field, 0, 0⟩).sense) ∧
    (s.issues opAttnMerge f o p → exec (.attnMerge f o) s = .next (match t.anyArray field with
        | none => launch opAttnMerge .mat []
        | some k => (launch opAttnMerge .mat []).queueJob k ⟨.merge, f.val, id⟩).sense) ∧
    (s.issues opWinTopk f o p →
      exec (.winTopk f o) s = .next ((launch opWinTopk .cod [(t.hull f.val).readBytes (fld y 31 0) 64]).winnowPut field ⟨false, f.val, id⟩).sense) ∧
    (s.issues opWinMerge f o p →
      let shape (v : Word) : Nat × Nat := blockShape (t.hull f.val) (fld v 31 0)
      let latched := (launch opWinMerge .cod []).modOp f.val id (fun a =>
        { a with latch := [(shape y).1, (shape y).2, (shape z).1, (shape z).2] })
      exec (.winMerge f o) s = .next (latched.winnowPut field ⟨false, f.val, id⟩).sense) ∧
    (s.issues opSieveMask f o p →
      exec (.sieveMask f o) s = .next ((launch opSieveMask .cod []).sievePut field ⟨false, f.val, id⟩).sense) ∧
    (s.issues opSmpDraw f o p →
      exec (.smpDraw f o) s = .next ((launch opSmpDraw .cod []).sievePut field ⟨false, f.val, id⟩).sense) ∧
    (s.issues opHskEnc f o p →
      let bs := (t.hull f.val).readBytes (fld y 31 0 + 0x40) 16
      let d := encDescOf bs
      let e := s.entry (sheafIx x)
      let fmt := mod % 256
      let st := t.encodeStatus p.slice (sheafIx x) (fld z 8 0) fmt d
      let u := launch opHskEnc .cod [bs]
      let g := (u.pageFmt e.model fmt).getD ⟨fmt, 0, 0, 0⟩
      let v := u.modOp f.val id (fun a =>
        { a with fail := if st.1 = 0 then none else some (Done.ofCode st.1), latch := [e.len, e.tail, g.tokens, g.heads, g.dim] ++ st.2 })
      let held := if isPQ fmt then v.cbCount d.cb d.gen true true else v
      exec (.hskEnc f o) s = .next
        (if st.1 = 0 && isPQ fmt then held.winnowPut field ⟨true, f.val, id⟩ else held).sense) ∧
    (s.issues opHskEncBlk f o p → exec (.hskEncBlk f o) s =
      .next ((launch opHskEncBlk .cod []).modOp f.val id (fun a => { a with w := r.hr o.x.val })).sense) ∧
    (s.issues opHskDec f o p →
      let keys := if mod % 256 = 0x10 then [] else t.decodeKeys (sheafIx y) (fld z 8 0) (mod % 256) (fld w 23 0) (fld w 47 24)
      let u := (launch opHskDec .cod []).modOp f.val id (fun a =>
        { a with y := if mod % 256 = 0x10 then r.hr o.y.val else y, latch := keys })
      exec (.hskDec f o) s = .next (u.holdBooks keys true).sense)

/-- R166 to R168, R187: ATTN.PART. An entry, layer or shape that Table 7-5 rejects, or a group that cannot be joined, ends it at
once with its code; an aborted group ends it with GROUP_ABORT; else it takes its walk, unless its keys and values lie in Hull or
its entry has no root, and queues on an available array. What it takes from log entry 20 is the model's choice. -/
def Obligations.AttentionIssues : Prop :=
  ∀ (f : FurrowId) (s : State) (p : Program) (o : Slot), s.issues opAttnPart f o p →
    let r := s.furrow f.val
    let t := s.unstalled f
    let id := s.nextId
    let bs := (t.hull f.val).readBytes (fld (r.gr o.y.val) 31 0) 64
    let d := attnDescOf bs
    let i := sheafIx (r.gr o.z.val)
    let layer := fld (r.gr o.w.val) 8 0
    let e := t.entry i
    let tail := o.mod.toNat.testBit 2
    let hull := o.mod.toNat.testBit 3
    let l : AttnLatch := ⟨0, 0, e.floor, e.reqId.toNat, (t.entryDims i).1, i, 0⟩
    let a := captured opAttnPart .mat r o p [bs] id
    let u := (t.launched f a).modOp f.val id (fun b => { b with latch := l.list })
    let walk (n : Nat) : Walk :=
      { id := n, kind := .attn, furrow := f.val, op := id, slice := p.slice, root := e.root, layer, first := d.localFirst,
        cap := d.localEnd, src := .entry i (tail && e.inStep) }
    let walks := !hull && (u.entryRoot i).isSome
    exec (.attnPart f o) s = .next (match u.partCode i layer d tail hull, u.joinGroup d.slot with
      | 0, .ok (gid, _) =>
        let (n, v) := if walks then u.fresh else (0, u)
        let v := if walks then (v.walkStart (walk n)).getD v else v
        let v := v.modOp f.val id (fun b => { b with latch := { l with gid, walk := if walks then n + 1 else 0 }.list })
        match v.anyArray (f.val / 16) with
        | none => v
        | some k => v.queueJob k ⟨.part, f.val, id⟩
      | 0, .error 0x2B => u.joinAborted f.val { a with latch := l.list } d.slot
      | 0, .error code => u.finish f.val id (Done.ofCode code)
      | code, _ => u.finish f.val id (Done.ofCode code)).sense

/-- R213, R217, R272: a Winnow or Sieve unit that is up and idle starts its next operation: Winnow an encoder's search before
others, Sieve the oldest; what waits at a unit that is not available then moves up. A quantum that ends with an encoder waiting
puts a search back at the head. An operation that ends is metered, does its work and completes; an encoder's search marks its
encode as searched. What it takes from log entries 18, 19, 23 is the model's choice. -/
def Obligations.UnitsWork : Prop :=
  (∀ (f : FieldId) (s : State) (j : UnitJob), (s.winnowAt f.val).running = none → s.winnowUp f.val = true →
    (((s.winnowAt f.val).queue.find? (fun (j : UnitJob) => j.enc)).or (s.winnowAt f.val).queue.head?) = some j →
    exec (.winnowOpStart f) s = .next (s.modWinnow f.val (fun u => ⟨u.queue.erase j, some j⟩)).winnowShift.sense) ∧
  (∀ (f : FieldId) (s : State) (j : UnitJob) (t : List UnitJob), (s.sieveAt f.val).running = none → s.sieveUp f.val = true →
    (s.sieveAt f.val).queue = j :: t → exec (.sieveOpStart f) s = .next (s.modSieve f.val (fun _ => ⟨t, some j⟩)).sieveShift.sense) ∧
  (∀ (f : FieldId) (s : State) (j : UnitJob) (o : AsyncOp), (s.winnowAt f.val).running = some j →
    s.op? j.furrow j.op = some o → o.opc = 0xA8 →
    exec (.winnowQuantumEnd f) s = .next (let v := s.meterJob 3 j 2048
      if (s.winnowAt f.val).queue.any (fun (k : UnitJob) => k.enc) then v.modWinnow f.val (fun u => ⟨j :: u.queue, none⟩) else v).sense) ∧
  (∀ (f : FieldId) (n : Nat) (s : State) (j : UnitJob) (o : AsyncOp), (s.winnowAt f.val).running = some j →
    let t := ((s.meterJob 3 j n).modWinnow f.val (fun u => { u with running := none })).offIfDue (.winnowPair (Fin.ofNat 2 (f.val / 2)))
    t.op? j.furrow j.op = some o →
    (j.enc = true → exec (.winnowOpComplete f n) s = .next (t.setOp j.furrow { o with started := true }).sense) ∧
    (j.enc = false → o.opc = 0xA8 →
      exec (.winnowOpComplete f n) s = .next ((t.topkDo f.val j o).2.finish j.furrow o.id (t.topkDo f.val j o).1).sense) ∧
    (j.enc = false → o.opc = 0xA9 →
      exec (.winnowOpComplete f n) s = .next ((t.mergeListsDo j o).2.finish j.furrow o.id (t.mergeListsDo j o).1).sense)) ∧
  (∀ (f : FieldId) (n : Nat) (s : State) (j : UnitJob) (o : AsyncOp), (s.sieveAt f.val).running = some j →
    let t := ((s.meterJob 4 j n).modSieve f.val (fun u => { u with running := none })).offIfDue (.sievePair (Fin.ofNat 2 (f.val / 2)))
    t.op? j.furrow j.op = some o →
    (o.opc = 0xB0 → exec (.sieveOpComplete f n) s = .next ((t.maskDo f.val j o).2.finish j.furrow o.id (t.maskDo f.val j o).1).sense) ∧
    (o.opc = 0xB1 → exec (.sieveOpComplete f n) s = .next ((t.drawDo f.val j o).2.finish j.furrow o.id (t.drawDo f.val j o).1).sense))

/-- R123, R124, R126, R129, R167, R178, R207, R210, R211, R381: arrays and codec ports. An idle available array takes its next
job, and begins it if it is a tile; a tile that ends with no code against it writes its rows and completes; partials and merges
of partials complete with what they computed and free their array; a codec operation completes with its effect, a PQ encode only
once searched for. What it takes from log entries 10, 18, 20, 29 is the model's choice. -/
def Obligations.ArraysWork : Prop :=
  (∀ (k : ArrayId) (x : TileFaults) (s : State) (j : ArrayJob), (s.array k.val).running = none → s.arrayAvailable k.val = true →
    s.nextJob k.val = some j →
    let t := s.modArray k.val (fun a => { a with running := some j, lastFurrow := j.furrow % 16, queue := a.queue.erase j })
    (∀ o, j.kind = .tile → t.op? j.furrow j.op = some o → exec (.tileStart k x) s = .next (t.tileBegin k.val j o x).sense) ∧
    (∀ o, j.kind = .merge ∨ j.kind = .part → t.op? j.furrow j.op = some o → exec (.tileStart k x) s = .next t.sense) ∧
    (j.kind = .ship → exec (.tileStart k x) s = .next t.sense)) ∧
  (∀ (k : ArrayId) (x : TileFaults) (n : Nat) (s : State) (j : ArrayJob) (o : AsyncOp) (b : StatBuf), (s.array k.val).running = some j →
    j.kind = .tile → s.op? j.furrow j.op = some o → o.latch.headD 0 = 0 → (s.array k.val).bufs.head? = some b →
    let r := s.tileDo k.val (tileOf j.furrow o) b x
    exec (.tileComplete k x n) s = .next (((r.2.jobEnd k.val o.slice n).finish j.furrow o.id r.1).applyOwners k.val).sense) ∧
  (∀ (f : FurrowId) (id k : Nat) (s : State) (o : AsyncOp), s.op? f.val id = some o → s.arrayOf ⟨.part, f.val, id⟩ = some k →
    let r := s.partDo f.val o
    let t := r.s.jobEnd k o.slice r.cycles
    (o.attn.gid ≠ 0 → r.cause ≠ 0 → exec (.attnPartComplete f id) s = .next (t.memberFault o.attn.gid t.node r.cause).sense) ∧
    (o.attn.gid = 0 ∨ r.cause = 0 → exec (.attnPartComplete f id) s = .next
      (((if o.attn.walk = 0 then t else t.walkEnd (o.attn.walk - 1)).putRecord f.val (fld o.x 31 0)
        { o.header with last := r.last, empty := r.empty, underrun := r.underrun, poison := r.cause != 0, cause := r.cause,
                        used := r.used } r.body).finish f.val id (partDone r.cause)).sense)) ∧
  (∀ (f : FurrowId) (id k : Nat) (s : State) (o : AsyncOp), s.op? f.val id = some o → s.arrayOf ⟨.merge, f.val, id⟩ = some k →
    let a := s.recordAt f.val (fld o.y 31 0)
    let cycles := 12 + 2 * ceilDiv (bodyBytes a.rows a.heads a.dim) 256 + ceilDiv (mergeOut (o.mod.testBit 0) a) 256
    let r := s.mergeDo f.val o
    exec (.attnMergeComplete f id) s = .next ((r.2.jobEnd k o.slice cycles).finish f.val id r.1).sense) ∧
  (∀ (f : FurrowId) (id : Nat) (s : State) (o : AsyncOp), s.op? f.val id = some o →
    let gives (r : Done × State) : Prop := exec (.huskOpComplete f id) s = .next (r.2.finish f.val id r.1).sense
    (o.opc = 0xA1 → isPQ (o.mod % 256) = false ∨ o.fail ≠ none ∨ o.started = true → gives (s.encodeDo f.val o)) ∧
    (o.opc = 0xA2 → gives (s.encodeBlkDo f.val o)) ∧ (o.opc = 0xA3 → gives (s.decodeDo f.val o))) ∧
  (∀ (k : ArrayId) (s : State), exec (.fencedTileRequeue k) s = .next (s.moveJobs k.val 1).sense)

/-- R34, R42, R45 to R60, R383 to R386: the Sheaf instructions. SHF.ADMIT puts an accepted template into the lowest FREE entry
and moves it to ADMITTED; SHF.LOOKUP finds a request of the slice; SHF.RD reads a word; SHF.WRITE changes the masked software
bits, held while the entry is in a step; SHF.SETSTATE and SHF.FREE make a transition of Table 2-4 or count an illegal one;
SHF.BATCH selects members under the next tag; SHF.COMMIT sends the held row updates, commits every member and marks first steps.
What it takes from log entry 2 is the model's choice. -/
def Obligations.SheafInstructions : Prop :=
  ∀ (f : FurrowId) (s : State) (p : Program) (o : Slot),
    let r := s.furrow f.val
    let t := s.unstalled f
    let hull := t.hull f.val
    let x := o.x.val
    let y := r.gr o.y.val
    let z := r.gr o.z.val
    let w := r.gr o.w.val
    let i := fld y 14 0
    let e := t.entry i
    (s.issues opShfAdmit f o p →
      let m := templateEntry (hull.readBytes (fld y 31 0) 256)
      let v := t.adpCurrent (adpKey m.customer m.model)
      exec (.shfAdmit f o) s = .next (match t.admitStatus p.slice m, t.lowestFree p.slice with
        | 0, some i =>
          let k := adpKey m.customer m.model
          let u := (t.geoRef m.model true).adpRef k v true
          ((u.setEntry i { m with epoch := 1, len := 0, adapter := v, adpHeld := u.adpHolds k v, admitTime := u.time,
                                  state := .free }).transition i .admitted rAdmit).returns f o 0 i
        | code, _ => t.returns f o code 0).sense) ∧
    (s.issues opShfLookup f o p → exec (.shfLookup f o) s = .next (match t.findRequest y with
        | some i => if t.inPartition p.slice i then t.returns f o 0 i else t.returns f o 0x89 0
        | none => t.returns f o 0x89 0).sense) ∧
    (s.issues opShfRd f o p → exec (.shfRd f o) s = .next (t.setG f.val x (e.word (fld y 19 15))).sense) ∧
    (s.issues opShfWrite f o p →
      let k := fld y 19 15
      exec (.shfWrite f o) s = .next (
        if w.toNat &&& (2 ^ 64 - 1 - softwareBits k) != 0 then t.returns f o 0x8A 0
        else if e.inStep && k != 3 then (t.setEntry i { e with heldWrites := e.heldWrites ++ [(k, z, w)] }).returns f o 0 0
        else (t.setEntry i (e.setWord k ((e.word k &&& ~~~ w) ||| (z &&& w)))).returns f o 0 0).sense) ∧
    (s.issues opShfSetstate f o p →
      let target := o.mod.toNat % 16
      exec (.shfSetstate f o) s = .next (
        if e.inStep then (t.setEntry i { e with changePending := true, pendingState := some target }).returns f o 0 0
        else (t.applySetstate i target).2.returns f o (t.applySetstate i target).1 0).sense) ∧
    (s.issues opShfFree f o p → exec (.shfFree f o) s = .next (
        if e.inStep then t.returns f o 0x87 0
        else if freeable e.state then (t.transition i .free rFreed).returns f o 0 0
        else (t.bump ⟨.shfIllegalCnt, 0, 0, 0⟩).returns f o 0x8B 0).sense) ∧
    (s.issues opShfBatch f o p →
      let b := z.toNat
      let mode := o.mod.toNat % 2
      let tag := nextBatchTag t.batchTag
      let l := ({ t with batchTag := tag }.select p.slice mode b t.time tag)
      exec (.shfBatch f o) s = .next (
        if b = 0 || 1024 < b then t.returns f o 0x86 0
        else if (t.partition p.slice).isNone then t.returns f o 0x8C 0
        else (l.2.modHull f.val (fun m => m.writeBytes (fld y 31 0) (batchList tag mode l.1))).returns f o 0 l.1.length).sense) ∧
    (s.issues opShfCommit f o p →
      let a := fld y 31 0
      let v := fld z 31 0
      let h := batchHeader hull a
      let c := (t.flushRows f.val).commitBatch f.val a v
      exec (.shfCommit f o) s = .next (
        if h.2.2 then
          ((batchMembers hull a h.2.1).zipIdx.foldl (fun (s : State) (m : Nat × Nat) =>
            if ((s.hull f.val).readNat (v + 512 * m.2) 4).testBit 16 then s.firstStep m.1 else s) c.2).returns f o 0 c.1
        else (t.flushRows f.val).returns f o 0x86 0).sense)

/-- R67, R71, R72, R77 to R86, R515: the page-table instructions. PT.INIT formats a root frame and gives it to its entry;
PT.APPEND adds a handle; PT.LAYER, PT.SET and PT.FREE apply at once where no walk holds the frame and no earlier edit of the
entry waits, are deferred with APPLIED_LATER else, and get BUSY when the queue of 128 is full; a deferred edit is applied once
its frame is free of walks; PT.GET reads a handle; PT.TAIL and PT.VCOMMIT set the tail and its committed part; PT.GEOSET writes
a geometry record. What it takes from log entry 12 is the model's choice. -/
def Obligations.PageTables : Prop :=
  ∀ (f : FurrowId) (s : State) (p : Program) (o : Slot),
    let r := s.furrow f.val
    let t := s.unstalled f
    let hull := t.hull f.val
    let y := r.gr o.y.val
    let z := r.gr o.z.val
    let w := r.gr o.w.val
    let hy := r.hr o.y.val
    let hz := r.hr o.z.val
    let i := fld y 14 0
    let m := o.mod.toNat % 128
    let n := handleFrame hy
    let waiting := Table.get [] t.deferred (f.val / 16)
    let edit (op : SlotOp) (sel h params : Word) : State :=
      let q := selOf sel
      let at' := t.editFrame op.enc.opc q
      if !t.walked at' && !t.deferredEdits.any (fun e => e.touches op.enc.opc q) then
        (t.applyEdit op.enc.opc sel h params).returns f o 0 0
      else if 128 ≤ waiting.length then t.returns f o 0x87 0
      else
        let u := t.launched f (captured op .sys r o p [] t.nextId)
        let d : DeferredEdit := ⟨t.nextId, op.enc.opc, at'.getD q.root, sel, h, params, p.slice, f.val, t.nextId⟩
        { u with deferred := Table.set u.deferred (f.val / 16) (waiting ++ [d]) }.setG f.val o.x.val (statusWord 0x94 0)
    (s.issues opPtInit f o p → exec (.ptInit f o) s = .next (match t.initStatus p.slice hy z w.toNat, t.geometry w.toNat with
        | 0, some g =>
          let self := mkHandle t.node n (handleGen hy) 0 1
          let u := t.formatRoot n z w.toNat g.layers self
          (match t.ownRequest p.slice z with
            | none => u
            | some i => u.setEntry i { u.entry i with root := self }).returns f o 0 0
        | code, _ => t.returns f o code 0).sense) ∧
    (s.issues opPtLayer f o p → exec (.ptLayer f o) s = .next (match t.setLayerStatus p.slice (selOf y) hz w with
        | 0 => edit opPtLayer y hz w
        | code => t.returns f o code 0).sense) ∧
    (s.issues opPtAppend f o p → exec (.ptAppend f o) s = .next (match t.appendStatus p.slice (selOf z) hy with
        | 0 => (t.applyAppend (selOf z) hy).returns f o 0 0
        | code => t.returns f o code 0).sense) ∧
    (s.issues opPtSet f o p → exec (.ptSet f o) s = .next (match t.setStatus p.slice (selOf z) hy with
        | 0 => edit opPtSet z hy 0
        | code => t.returns f o code 0).sense) ∧
    (s.issues opPtFree f o p → exec (.ptFree f o) s = .next (match t.entryStatus p.slice (selOf y) with
        | 0 => edit opPtFree y 0 0
        | code => t.returns f o code 0).sense) ∧
    (s.issues opPtGet f o p →
      let q := selOf z
      exec (.ptGet f o) s = .next (match t.entryStatus p.slice q with
        | 0 => (t.setH f.val o.y.val (t.gword ((t.layer q.root q.layer).addr q.index))).returns f o
            (if t.deferredEdits.any (fun e => e.touches 0xE4 q) then 0x95 else 0) 0
        | 0x93 => (t.setH f.val o.y.val 0).returns f o 0x93 0
        | code => t.returns f o code 0).sense) ∧
    (s.issues opPtTail f o p → exec (.ptTail f o) s = .next (
        if !(t.entry i).inStep || m = 0 || 64 < m then t.returns f o 0x86 0
        else (t.setEntry i { t.entry i with tail := m }).returns f o 0 0).sense) ∧
    (s.issues opPtVcommit f o p → exec (.ptVcommit f o) s = .next (
        if !(t.entry i).inStep || (t.entry i).tail < m then t.returns f o 0x86 0
        else (t.setEntry i { t.entry i with vcommit := some m }).returns f o 0 0).sense) ∧
    (s.issues opPtGeoset f o p →
      let img := hull.readBytes (fld z 31 0) 32
      exec (.ptGeoset f o) s = .next (match t.geosetStatus y.toNat img with
        | 0 => (t.gwrite (t.geoAddr y.toNat) (patchBytes img 4 (toBytes 4 0)) false).returns f o 0 0
        | code => t.returns f o code 0).sense) ∧
    (∀ (g : FieldId) (id : Nat) (e : DeferredEdit),
      let l := Table.get [] s.deferred g.val
      l.find? (fun e => e.id = id) = some e → s.walked (s.editFrame e.opc (selOf e.sel)) = false →
      s.deferredEdits.any (fun d => d.id < e.id && d.touches e.opc (selOf e.sel)) = false →
      exec (.deferredEditApply g id) s = .next (({ s with deferred := Table.set s.deferred g.val (l.filter (fun d => d.id != id)) }.applyEdit
        e.opc e.sel e.handle e.param).finish e.furrow e.op (Done.ofCode 0x94)).sense)

/-- R186, R202, R204, R206, R228, R229, R248, R254, R517: FRM.ALLOC gives a zeroed frame of the Field it names or NO_FRAME;
FRM.FREE frees a frame; MG.OPEN opens the lowest closed slot, MG.CLOSE closes one with no operation outstanding, MG.STAT reads
its register; CB.LOAD, CB.RETIRE, EMB.PUBLISH, ADP.PUBLISH and ADP.RETIRE answer what their tables did; CB.STAT reads a record.
What it takes from log entry 2 is the model's choice. -/
def Obligations.PoolAndTables : Prop :=
  ∀ (f : FurrowId) (s : State) (p : Program) (o : Slot),
    let r := s.furrow f.val
    let t := s.unstalled f
    let hull := t.hull f.val
    let x := o.x.val
    let y := r.gr o.y.val
    let z := r.gr o.z.val
    let hy := r.hr o.y.val
    (s.issues opFrmAlloc f o p →
      let field := if z.getLsbD 12 then fld z 11 10 else f.val / 16
      exec (.frmAlloc f o) s =
        .next (match t.allocate p.slice field (useKind (fld z 1 0)) (fld z 9 2) (fld z 1 0 == 2) with
          | none => t.returns f o 0x55 0
          | some (n, u) => (u.setH f.val o.y.val (mkHandle u.node n (u.frame n).gen (fld z 9 2) 1)).returns f o 0 0).sense) ∧
    (s.issues opFrmFree f o p → exec (.frmFree f o) s = .next (match t.frmFreeStatus p.slice hy with
        | 0 => (t.freeFrame (handleFrame hy)).returns f o 0 0
        | code => t.returns f o code 0).sense) ∧
    (s.issues opMgOpen f o p →
      let bs := hull.readBytes (fld y 31 0) 0x88
      exec (.mgOpen f o) s = .next (if groupDescBad t.node bs then t.returns f o 0x86 0 else
        match firstBelow 256 (fun g => !Table.has t.groups g) with
        | none => t.returns f o 0x98 0
        | some g =>
          let d := groupDescOf t.node bs
          let c : Csr := ⟨.fabMgStatus, 0, g, 0⟩
          let m : MergeGroup := ⟨d.1, 100 * (if d.2 = 0 then t.rdf ⟨.fabMgWindow, 0, 0, 0⟩ 15 0 else d.2), p.slice⟩
          let u := { t with groups := Table.set t.groups g m }
          (u.wr c (BitVec.ofNat 64 (1 + (u.rdf c 25 16 + 1) % 1024 * 2 ^ 16))).returns f o 0 g).sense) ∧
    (s.issues opMgClose f o p →
      let g := y.toNat
      exec (.mgClose f o) s = .next (if !Table.has t.groups g then t.returns f o 0x86 0
        else if (t.groupOps (t.groupId g)).isEmpty then
          ({ t with groups := Table.erase t.groups g }.wrf ⟨.fabMgStatus, 0, g, 0⟩ 0 0 0).returns f o 0 0
        else t.returns f o 0x87 0).sense) ∧
    (s.issues opMgStat f o p → exec (.mgStat f o) s =
      .next (t.setG f.val x (if y.toNat < 256 then t.rd ⟨.fabMgStatus, 0, y.toNat, 0⟩ else 0)).sense) ∧
    (s.issues opCbLoad f o p → exec (.cbLoad f o) s =
      .next ((t.cbLoad p.slice y (r.hr o.z.val)).2.returns f o (t.cbLoad p.slice y (r.hr o.z.val)).1 0).sense) ∧
    (s.issues opCbRetire f o p → exec (.cbRetire f o) s = .next ((t.cbRetire y).2.returns f o (t.cbRetire y).1 0).sense) ∧
    (s.issues opCbStat f o p → exec (.cbStat f o) s = .next (t.setG f.val x
      (match t.cbAddr (cbSel y).1 (cbSel y).2 with
        | none => 0
        | some a => t.gword (if o.mod.toNat.testBit 0 then a + 8 else a))).sense) ∧
    (s.issues opEmbPublish f o p →
      let d := t.embPublish p.slice y.toNat (hull.readBytes (fld z 31 0) 32)
      exec (.embPublish f o) s = .next (d.2.2.returns f o d.1 d.2.1).sense) ∧
    (s.issues opAdpPublish f o p →
      let d := t.adpPublish p.slice (hull.readBytes (fld y 31 0) 32)
      exec (.adpPublish f o) s = .next (d.2.returns f o d.1 0).sense) ∧
    (s.issues opAdpRetire f o p →
      let d := t.adpRetire p.slice (fld y 43 0) z.toNat
      exec (.adpRetire f o) s = .next (d.2.returns f o d.1 0).sense)

/-- R341, R343, R350, R356, R359: the handover instructions. HO.OFFER moves its entry to HANDOVER_OUT, writes a journal record
and starts sending OFFER; HO.ACCEPT makes an entry of an unanswered offer, journals it and starts sending ACCEPT; HO.REFUSE
answers an offer with a code; HO.CONFIRM ends an unresolved acceptance; HO.LOSE loses an entry; HO.STAT reads a journal record's
second word; HO.ADOPT asks every valid member for its copy. What it takes from log entries 25, 27 is the model's choice. -/
def Obligations.HandoverInstructions : Prop :=
  ∀ (f : FurrowId) (s : State) (p : Program) (o : Slot),
    let r := s.furrow f.val
    let t := s.unstalled f
    let hull := t.hull f.val
    let x := o.x.val
    let y := r.gr o.y.val
    let z := r.gr o.z.val
    let w := r.gr o.w.val
    let hz := r.hr o.z.val
    let i := fld y 14 0
    (s.issues opHoOffer f o p →
      let target := o.mod.toNat % 16
      let d := t.time + t.offerTo
      exec (.hoOffer f o) s = .next (match t.offerStatus p.slice i target, t.jnlFree p.slice with
        | 0, some j =>
          let u := t.transition i .handoverOut 0x30
          let u := u.setEntry i { u.entry i with partner := gaNode z }
          let e := u.entry i
          let rec' : JnlRec := { request := e.reqId, phase := 1, sheaf := i, partner := gaNode z, pslice := gaSlice z,
                                 epoch := e.epoch, target, d }
          ((u.takeJnl p.slice j rec').startExchange p.slice j z
            { request := e.reqId, epoch := e.epoch, kind := 1, target, arg := d } e.image d false).returns f o 0 0
        | code, _ => t.returns f o code 0).sense) ∧
    (s.issues opHoAccept f o p → exec (.hoAccept f o) s = .next (match t.admitRefusal p.slice, t.inboxOffer p.slice y.toNat with
        | some code, _ => t.returns f o code 0
        | none, none => t.returns f o 0x86 0
        | none, some (h, img, node) =>
          let e := acceptedEntry img h p.slice node hz (if w = 0 then none else some (hull.readBytes (fld w 31 0) 20))
          match t.acceptStatus p.slice e hz, t.lowestFree p.slice, t.jnlFree p.slice with
          | 0, some i, some j =>
            let k := adpKey e.customer e.model
            let u := (t.geoRef e.model true).adpRef k e.adapter true
            let u := (u.setEntry i { e with adpHeld := u.adpHolds k e.adapter }).transition i .handoverIn 0x34
            let rec' : JnlRec :=
              { request := h.request, phase := 8, sheaf := i, partner := node, pslice := imageSlice img, epoch := h.epoch,
                target := h.target, d := h.arg }
            let u := (u.takeJnl p.slice j rec').inboxAnswer p.slice y.toNat
            (u.startExchange p.slice j rec'.addr { request := h.request, epoch := h.epoch, kind := 2 } []
              (h.arg + u.lease + 10000) false).returns f o 0 0
          | code, _, _ => t.returns f o code 0).sense) ∧
    (s.issues opHoRefuse f o p → exec (.hoRefuse f o) s = .next (match t.inboxOffer p.slice y.toNat with
        | none => t.returns f o 0x86 0
        | some (h, img, node) =>
          ((t.inboxAnswer p.slice y.toNat).hoSend p.slice (nodeAddr node (imageSlice img))
            { request := h.request, epoch := h.epoch, kind := 3, code := o.mod.toNat % 256 }).returns f o 0 0).sense) ∧
    (s.issues opHoConfirm f o p → exec (.hoConfirm f o) s =
      .next (match t.jnlFind p.slice (fun r => r.phase = 11 && r.sheaf = i && r.request == (t.entry i).reqId) with
        | none => t.returns f o 0x70 0
        | some j => (t.confirmIn p.slice j).returns f o 0 0).sense) ∧
    (s.issues opHoLose f o p → exec (.hoLose f o) s = .next (
        if ([.admitted, .prefill, .parked, .decode, .paused, .expired, .handoverIn] : List ReqState).contains (t.entry i).state then
          (t.loseEntry i).returns f o 0 0
        else t.returns f o 0x8B 0).sense) ∧
    (s.issues opHoStat f o p → exec (.hoStat f o) s = .next (t.setG f.val x (match t.jnlSize p.slice with
        | none => 0
        | some l => if y.toNat < 2 ^ l then t.gword (t.jnlAddr p.slice y.toNat + 8) else 0)).sense) ∧
    (s.issues opHoAdopt f o p →
      let m := templateEntry (hull.readBytes (fld y 31 0) 256)
      let code := t.admitStatus p.slice m
      let id := t.nextId
      let u := t.launched f (captured opHoAdopt .sys r o p [] id)
      let a : Adoption := { furrow := f.val, op := id, dest := x, slice := p.slice, template := m, waiting := [] }
      let ask (v : State) (n : Nat × Nat) : State :=
        match v.errand (.lookupAdopt id n.1) p.slice (hoAsk (nodeAddr n.2 p.slice) { request := m.reqId, epoch := 0, kind := 14 } []) with
        | none => v
        | some v =>
          let a := Table.get a v.adoptions id
          { v with adoptions := Table.set v.adoptions id { a with waiting := a.waiting ++ [n.1] } }
      exec (.hoAdopt f o) s = .next (if code != 0 then t.returns f o code 0
        else if m.mirrorPolicy = 0 || m.members.isEmpty then t.returns f o 0x78 0
        else m.members.foldl ask { u with adoptions := Table.set u.adoptions id a }).sense)

/-- R8, R10, R511: what a write of a register that no rule gives an effect of its own does, bit by bit. It is ignored as a whole
for a value that some writable field does not permit, by itself or beside the rest of the same write; else an RW field takes the
value, an RWL field takes it until its lock stage is set, a W1C bit clears where a 1 is written, and every other bit keeps its
value. Nothing but the register changes; a write of a register with locked fields is recorded, whether or not it would change
them. That a value which R511 does not permit leaves no record after the lock is the model's choice (log entry 33). What it
takes from log entry 33 is the model's choice. -/
def Obligations.PlainRegisterWrites : Prop :=
  ∀ (who : Who) (r : Csr) (v : Word) (s : State), s.reaches who r true = true → r.inRange = true → s.csrOff r = false →
    ([.chpNodeId, .chpHeartbeat, .chpFallow, .almReadCtl, .almSwCmd, .secMboxCmd, .frwCqBase, .frwCqCtl, .frwCqTail, .frwSlice, .frwGlnReg,
      .frwQstCtl, .fldReeveCmd, .thrOpsOwn, .prtCtl, .shpCfg, .prtPol, .fabTimeout, .fabHoLease, .fabStt, .shfPart, .shfRingBase, .shfRingCtl,
      .shfRingHead, .slcCore, .slcCtl, .slcSrKey, .slcFrameMin, .clkRstCtl, .tltPkgCap, .tltSliceCap, .tltDomCap] :
      List RegName).contains r.reg = false →
    let p := r.reg.spec
    if p.fields.all (fun g => (g.acc != .rw && g.acc != .rwl) || g.permit.ok v (fld v g.hi g.lo)) = false then
      exec (.registerWrite who r v) s = .next s.sense
    else
      ∃ (w : Word) (refused : Bool),
        exec (.registerWrite who r v) s = .next (((if refused then s.configRefused r v else s).wr r w).sense) ∧
        (refused = true ↔ s.lockedReg r = true ∧ ∃ g ∈ p.fields, g.acc = .rwl) ∧
        (∀ i < 64, w.getLsbD i =
          match p.fields.find? (fun g => g.lo ≤ i && i ≤ g.hi) with
          | none => (s.rd r).getLsbD i
          | some g =>
            match g.acc with
            | .rw => v.getLsbD i
            | .rwl => if s.lockedReg r then (s.rd r).getLsbD i else v.getLsbD i
            | .w1c => (s.rd r).getLsbD i && !v.getLsbD i
            | _ => (s.rd r).getLsbD i)

/-- R8, R10, R391 to R393, R398, R400, R402, R490, R491, R494: reads, and what a core's loads and stores reach, which the
command RESERVED_OFFSET_ACCESS brings. A core that may not reach the register gets nothing; a reserved offset, read or written
as an aligned word by a supervisor core that runs, or a register of a domain that is off reads 0 and is counted and recorded;
else the read returns the bits that are not write-only, and clears RC fields. A core in HOLD makes no access; one outside the
map of Table 15-5, unaligned, of another size than its window takes, or of a bound core where R393 gives it nothing raises an
access fault and changes nothing else; another reaches its register, the interrupt controller, or Granary through the caches. A
read of a message's low word takes the oldest message, its high word the latched one; word 0 of a measurement latches all six.
What it takes from log entries 8, 33, 37, 40 is the model's choice. -/
def Obligations.RegisterReads : Prop :=
  (∀ (who : Who) (r : Csr) (s : State), s.reaches who r false = false → exec (.rcRegisterRead who r) s = .next s.sense) ∧
  (∀ (who : Who) (r : Csr) (s : State), s.reaches who r false = true → r.inRange = false ∨ s.csrOff r = true →
    exec (.rcRegisterRead who r) s = .next { s.strayAccess r.offset false with csrData := [0] }.sense) ∧
  (∀ (who : Who) (r : Csr) (s : State), s.reaches who r false = true → r.inRange = true → s.csrOff r = false →
    r.reg ≠ .fldReeveMsg → r.reg ≠ .fldReeveMsgHi → r.reg ≠ .secMeas →
    exec (.rcRegisterRead who r) s =
      .next { (if r.reg.spec.fields.any (fun g => g.acc = Access.rc) then s.wr r (s.rd r &&& ~~~ r.reg.spec.maskOf (fun a => a = Access.rc)) else s) with
        csrData := [s.shown r &&& r.reg.spec.maskOf (fun a => a != Access.wo)] }.sense) ∧
  (∀ (c : CoreId) (off : Nat) (v : Word) (s : State), s.coreRuns c = true → s.coreSlice c = none → Csr.ofOffset off = none →
    off % 8 = 0 → off < 0x6000000 →
    exec (.reservedOffsetAccess c (0xF000000000 + off) ⟨8, none⟩) s = .next { s.strayAccess off false with csrData := [0] }.sense ∧
    exec (.reservedOffsetAccess c (0xF000000000 + off) ⟨8, some v⟩) s = .next (s.strayAccess off true).sense) ∧
  (∀ (x : CoreAccess) (s : State),
    let c : Instr := .reservedOffsetAccess x.core x.addr ⟨x.size, x.data⟩
    let fault : State := { s with coreTraps := Table.set s.coreTraps x.core.val ⟨x.data.isSome, x.addr⟩ }
    let slice := s.coreSlice x.core
    let who := s.coreWho x.core
    (s.coreRuns x.core = false → exec c s = .next s.sense) ∧
    (s.coreRuns x.core = true →
      (regionOf x.addr x.size = .reserved → exec c s = .next fault.sense) ∧
      (∀ off, regionOf x.addr x.size = .csr off →
        (off % 8 ≠ 0 ∨ x.size ≠ 8 → exec c s = .next fault.sense) ∧
        (off % 8 = 0 → x.size = 8 →
          (∀ r, Csr.ofOffset off = some r →
            (s.reaches who r x.data.isSome = false → exec c s = .next fault.sense) ∧
            (s.reaches who r x.data.isSome = true →
              (x.data = none → exec c s = .next (s.coreRead who r).sense) ∧
              (∀ v, x.data = some v → exec c s = .next (registerWrite who r v s).sense))))) ∧
      (∀ off, regionOf x.addr x.size = .plic off →
        (slice.isSome = true ∨ off % 4 ≠ 0 ∨ x.size ≠ 4 → exec c s = .next fault.sense) ∧
        (slice = none → off % 4 = 0 → x.size = 4 →
          (∀ v, x.data = some v → exec c s = .next { s with plic := s.plic.write off v.toNat }.sense) ∧
          (x.data = none →
            let t : State := { s with csrData := [BitVec.ofNat 64 (s.plic.read off)] }
            ((∀ k, plicAt off ≠ .claim k) → exec c s = .next t.sense) ∧
            (∀ k, plicAt off = .claim k →
              let i := s.plic.best k
              let u : State := { t with plic := s.plic.claim k }
              exec c s = .next (if eventSource i then u.releaseIrq i else u).sense)))) ∧
      (regionOf x.addr x.size = .granary →
        let pages := (List.range ((x.addr + x.size - 1) / 65536 - x.addr / 65536 + 1)).map (· + x.addr / 65536)
        let may := ∀ sl, slice = some sl → ∀ n ∈ pages, s.frameOf sl n = true
        let lines := (List.range ((x.addr + x.size - 1) / 64 - x.addr / 64 + 1)).map (· + x.addr / 64)
        let t := lines.foldl (fun (t : State) l => t.cacheFill x.core.val slice l x.data.isSome) s
        (¬ may → exec c s = .next fault.sense) ∧
        (may →
          (x.data = none → exec c s = .next { t with
            csrData := [BitVec.ofNat 64 (fromBytes ((List.range x.size).map (fun i => t.coreByte (x.addr + i))))] }.sense) ∧
          (∀ v, x.data = some v → exec c s = .next (t.coreStore x.addr (toBytes x.size v.toNat)).sense))))) ∧
  (∀ (who : Who) (f : FieldId) (s : State), mayCommand who = true →
    let q := Table.get [] s.reeveMsgs f.val
    let m := q.headD 0
    exec (.reeveMsgRead who f false) s = .next
      { ({ s with reeveMsgs := Table.set s.reeveMsgs f.val (q.drop 1), msgLatch := Table.set s.msgLatch f.val m }.wrf
          ⟨.fldReeveStatus, f.val, 0, 0⟩ 8 0 (q.length - 1)) with csrData := [BitVec.ofNat 64 m.toNat] }.sense ∧
    exec (.reeveMsgRead who f true) s =
      .next { s with csrData := [BitVec.ofNat 64 ((Table.get (0 : BitVec 128) s.msgLatch f.val).toNat / 2 ^ 64)] }.sense) ∧
  (∀ (who : Who) (i : Fin 8) (w : Fin 6) (s : State), mayCommand who = true →
    let m := BitVec.ofNat 384 (leAt (s.measurement i.val) 0 48)
    let t := if w.val = 0 then { s with measLatch := Table.set s.measLatch i.val m } else s
    exec (.secMeasRead who i w) s =
      .next { t with csrData := [BitVec.ofNat 64 ((Table.get (0 : BitVec 384) t.measLatch i.val).toNat / 2 ^ (64 * w.val))] }.sense)

/-- R29, R43, R44, R232, R287, R332, R333, R497: writes of configuration registers that have an effect of their own. A bound
core reaches none of them. A refused value changes no register but is counted or recorded. What it takes from log entry 33 is
the model's choice. -/
def Obligations.ConfigurationWrites : Prop :=
  (∀ (sl : SliceId) (k : SliceId) (e : Fin 1024) (p : PortId) (base : Bool) (v : Word) (s : State),
    ∀ c ∈ [Instr.chpNodeIdWrite (.bound sl) v, .shfPartWrite (.bound sl) k v, .shfRingConfigWrite (.bound sl) k base v,
      .shfRingHeadWrite (.bound sl) k v, .fabSttWord0Write (.bound sl) k e v, .fabTimeoutWrite (.bound sl) v,
      .fabHoLeaseWrite (.bound sl) v, .slcFrameMinWrite (.bound sl) k v, .shpCfgWrite (.bound sl) p k v, .prtPolWrite (.bound sl) p k v],
      exec c s = .next s.sense) ∧
  (∀ (who : Who) (sl : SliceId) (v : Word) (s : State), mayCommand who = true →
    let n := sl.val
    (
      let r : Csr := ⟨.chpNodeId, 0, 0, 0⟩
      exec (.chpNodeIdWrite who v) s = .next (if s.locked then s.configRefused r v
        else (List.range 24).foldl (fun s p => s.portStart p 1) ((s.wrf r 13 0 (fld v 13 0)).wrf r 14 14 1)).sense) ∧
    (
      let r : Csr := ⟨.shfPart, 0, n, 0⟩
      let base := fld v 14 0
      let count := fld v 31 16
      let new : Word := BitVec.ofNat 64 (base + count * 2 ^ 16 + (if v.getLsbD 32 then 2 ^ 32 else 0))
      let meets := v.getLsbD 32 = true ∧ ∃ i < 64, i ≠ n ∧ ∃ b m, s.partition i = some (b, m) ∧ 0 < count ∧ 0 < m ∧
        base < b + m ∧ b < base + count
      let busy := ∃ b m, s.partition n = some (b, m) ∧ new ≠ s.rd r ∧ ∃ p ∈ s.sheaf, b ≤ p.1 ∧ p.1 < b + m ∧ p.2.state ≠ .free
      (meets ∨ 32768 < base + count ∨ busy →
        exec (.shfPartWrite who sl v) s = .next ((s.bump ⟨.shfIllegalCnt, 0, 0, 0⟩).configRefused r v).sense) ∧
      (¬meets → base + count ≤ 32768 → ¬busy → exec (.shfPartWrite who sl v) s = .next (s.wr r new).sense)) ∧
    (
      let restart (t : State) : State := (t.wr ⟨.shfRingHead, 0, n, 0⟩ 0).wr ⟨.shfRingTail, 0, n, 0⟩ 0
      let ctl : Csr := ⟨.shfRingCtl, 0, n, 0⟩
      let t := s.writePlain ctl v
      exec (.shfRingConfigWrite who sl true v) s = .next (restart (s.writePlain ⟨.shfRingBase, 0, n, 0⟩ v)).sense ∧
      exec (.shfRingConfigWrite who sl false v) s = .next (if t.rdf ctl 15 0 = s.rdf ctl 15 0 then t else restart t).sense ∧
      exec (.shfRingHeadWrite who sl v) s = .next (if s.rdf ctl 15 0 ≤ fld v 14 0 then s
        else s.writePlain ⟨.shfRingHead, 0, n, 0⟩ v).sense) ∧
    (∀ e : Fin 1024, exec (.fabSttWord0Write who sl e v) s = .next (s.commitStt n e.val v).sense) ∧
    (
      let ok (t l : Nat) : Bool := 4 * t ≤ l
      let t := s.rdf ⟨.fabTimeout, 0, 0, 0⟩ 6 0
      let l := s.rdf ⟨.fabHoLease, 0, 0, 0⟩ 15 0
      (RegName.fabTimeout.spec.permits v = true → exec (.fabTimeoutWrite who v) s =
        .next (if ok (fld v 6 0) l then s.writePlain ⟨.fabTimeout, 0, 0, 0⟩ v else s.configRefused ⟨.fabTimeout, 0, 0, 0⟩ v).sense) ∧
      (RegName.fabHoLease.spec.permits v = true → exec (.fabHoLeaseWrite who v) s =
        .next (if ok t (fld v 15 0) then s.writePlain ⟨.fabHoLease, 0, 0, 0⟩ v else s.configRefused ⟨.fabHoLease, 0, 0, 0⟩ v).sense)) ∧
    (
      let r : Csr := ⟨.slcFrameMin, n, 0, 0⟩
      let t := s.wrf r 22 0 (fld v 22 0)
      exec (.slcFrameMinWrite who sl v) s = .next (if t.poolFrames < sumSlices t.minFrames || t.freeFrames < t.reserve then
        (s.bump ⟨.slcPoolRefusedCnt, 0, 0, 0⟩).configRefused r v else t).sense) ∧
    (∀ p : PortId, s.domainOn (72 + p.val) = true →
      exec (.shpCfgWrite who p sl v) s = .next (s.writeShaper p.val n v).sense ∧
      exec (.prtPolWrite who p sl v) s = .next (s.writePolicer p.val n v).sense))

/-- R94, R107, R158, R243, R391, R393, R412, R414, R464, R465, R478: writes of Furrow, core and Almanac registers that have an
effect of their own. What it takes from log entries 29, 30, 33 is the model's choice. -/
def Obligations.UnitWrites : Prop :=
  (∀ (who : Who) (f : FurrowId) (q : QueueId) (v : Word) (s : State), s.domainOn f.val = true →
    let ctl := cq .frwCqCtl f.val q.val
    let bit (i : Nat) : State := s.writePlain ctl (BitVec.ofNat 64 (s.rdf ctl 4 0 + 2 ^ i))
    s.reaches who ctl true = true →
    exec (.frwCqTailWrite who f q v) s = .next (if s.fallow then s
      else if s.ringSize f.val q.val ≤ fld v 11 0 then s.wrf ctl 7 7 1
      else s.wrf (cq .frwCqTail f.val q.val) 11 0 (fld v 11 0)).sense ∧
    (4 ≤ s.rdf ctl 3 0 → s.rdf ctl 3 0 ≤ 12 →
      exec (.frwCqRestart who f q) s = .next (bit 5).sense ∧
      exec (.frwCqAbort who f q) s = .next ((bit 6).abortQueue f.val q.val).sense)) ∧
  (∀ (who : Who) (f : FurrowId) (v : Word) (s : State), mayCommand who = true → s.domainOn f.val = true →
    (∀ j : Fin 4, exec (.frwQstClrWrite who f j v) s =
      .next ((s.writePlain ⟨.frwQstCtl, f.val, j.val, 0⟩ (v ||| 0x100)).statClear f.val j.val).sense) ∧
    (∀ j : Fin 16, RegName.frwGlnReg.spec.permits v = true →
      let r : Csr := ⟨.frwGlnReg, f.val, j.val, 0⟩
      let t := s.wr r (RegName.frwGlnReg.spec.afterWrite true (s.rd r) v)
      exec (.frwGlnRegWrite who f j v) s = .next (if v.getLsbD 11 then t
        else t.modFurrow f.val (fun x => x.gleanDrop (fun l => l.region = j.val && l.tag.isNone))).sense)) ∧
  (∀ (who : Who) (f : FurrowId) (c : CoreId) (v : Word) (s : State), mayCommand who = true →
    (
      let busy := (s.furrow f.val).prog.isSome = true ∨ ∃ q < 4, s.rdb (cq .frwCqCtl f.val q) 4 = true
      (busy → exec (.frwSliceWrite who f v) s = .next s.bindRefused.sense) ∧
      (¬busy → exec (.frwSliceWrite who f v) s = .next (((List.range 4).foldl (fun s j => s.statClear f.val j)
        (s.modFurrow f.val (fun r => { r with hull := {}, glean := [] }))).wrf ⟨.frwSlice, f.val, 0, 0⟩ 6 0 (fld v 6 0)).sense)) ∧
    (
      let r : Csr := ⟨.slcCore, 0, c.val, 0⟩
      exec (.slcCoreWrite who c v) s = .next (if fld v 6 0 != s.rdf r 6 0 && !s.rdb r 7 then s.bindRefused
        else ((if fld v 6 0 = s.rdf r 6 0 then s else s.flushL2 c.val).wrf r 7 0 (fld v 7 0)).modUnit (.core c) (fun x =>
          { x with fenced := v.getLsbD 7 })).sense) ∧
    exec (.cclkStateWrite who c v) s = .next (s.wrf ⟨.clkCclk, 0, c.val, 0⟩ 1 0 (fld v 1 0)).sense ∧
    exec (.heartbeat who v) s = .next ({ s with beatAt := s.time, beatSince := true }.releaseIrq 139).sense ∧
    exec (.almRead who v) s = .next (s.writeAlmRead v).sense ∧
    exec (.almSwAppend who v) s = .next (s.record 0x40 (fld v 1 0) 0xFFFF
      ((List.range 24).flatMap (fun w => toBytes 8 (s.rd ⟨.almSwData, 0, w, 0⟩).toNat))).sense) ∧
  (∀ (sl : SliceId) (f : FurrowId) (c : CoreId) (v : Word) (s : State),
    ∀ i ∈ [Instr.frwSliceWrite (.bound sl) f v, .slcCoreWrite (.bound sl) c v, .cclkStateWrite (.bound sl) c v, .heartbeat (.bound sl) v,
      .almRead (.bound sl) v, .almSwAppend (.bound sl) v], exec i s = .next s.sense)

/-- R88 to R93, R390, R408: the Sower of a Furrow that serves and is idle takes the descriptor at the head of its lowest-
numbered ready queue (the prefetched copy if there is one), and none while the slice the Furrow is bound to is not enabled. One
that names another slice completes with PROTECTION; else its program starts with g1 to g6 the arguments, g7 the tag and every
other register clear. While a program runs, the descriptor after it in its queue, and the head's in each other queue, is
prefetched where there is one. A program that has ended and has nothing outstanding writes its completion word, advances the
head, and interrupts if its descriptor asks. What it takes from log entry 9 is the model's choice. -/
def Obligations.ProgramsStartAndEnd : Prop :=
  (∀ (f : FurrowId) (s : State) (q : Nat), s.furrowServes f = true → (s.furrow f.val).prog = none →
    firstBelow 4 (s.queueReady f.val) = some q →
    let n := f.val
    let i := s.rdf (cq .frwCqHead n q) 11 0
    let addr := (s.rd (cq .frwCqBase n q)).toNat + 64 * i
    let d := match Table.find (s.furrow n).prefetch q with
      | some (j, bs) => if j = i then bs else s.mem.readBytes addr 64
      | none => s.mem.readBytes addr 64
    let t := s.modFurrow n (fun r => { r with prefetch := Table.erase r.prefetch q })
    let w := leAt d 0 8
    let slice := bits w 17 12
    (∀ b, s.bound n = some b → s.sliceEnabled b = false → exec (.commandTake f) s = .next s.sense) ∧
    (s.bound n ≠ some slice → (∀ b, s.bound n = some b → s.sliceEnabled b = true) → exec (.commandTake f) s = .next
      (let h := cq .frwCqHead n q
       let u := t.setGword (addr + 56) (BitVec.ofNat 64 (1 + (2 + 6 * 256)))
       let v := u.wrf h 11 0 ((u.rdf h 11 0 + 1) % u.ringSize n q)
       if w.testBit 18 then v.assertIrq (n + 1) else v).sense) ∧
    (s.bound n = some slice → s.sliceEnabled slice = true → exec (.commandTake f) s = .next
      (t.modFurrow n (fun r => { r with
        g := [(1, wordAt d 8), (2, wordAt d 16), (3, wordAt d 24), (4, wordAt d 32), (5, wordAt d 40), (6, wordAt d 48),
          (7, BitVec.ofNat 64 (leAt d 4 4))], h := [], p := [], v := [], a := [],
        prog := some { queue := q, index := i, addr, slice, irq := w.testBit 18, tag := bits w 63 32, pc := bits w 11 0 } })).sense)) ∧
  (∀ (f : FurrowId) (s : State) (p : Program), (s.furrow f.val).prog = some p →
    let n := f.val
    exec (.descriptorPrefetch f) s = .next ((List.range 4).foldl (fun (t : State) q =>
      let h := t.rdf (cq .frwCqHead n q) 11 0
      let i := if q = p.queue then (h + 1) % t.ringSize n q else h
      if t.rdb (cq .frwCqCtl n q) 4 && i != t.rdf (cq .frwCqTail n q) 11 0 then
        t.modFurrow n (fun r => { r with prefetch := Table.set r.prefetch q (i, t.mem.readBytes (t.descAddr n q i) 64) })
      else t) s).sense) ∧
  (∀ (f : FurrowId) (s : State) (p : Program), (s.furrow f.val).prog = some p → p.phase = .ending → (s.furrow f.val).ops = [] →
    let n := f.val
    let h := cq .frwCqHead n p.queue
    let t := s.setGword (p.addr + 56) (BitVec.ofNat 64 (1 + min p.issued 0xFFFFFFFF * 2 ^ 32))
    let u := t.wrf h 11 0 ((t.rdf h 11 0 + 1) % t.ringSize n p.queue)
    let v := if p.irq then u.assertIrq (n + 1) else u
    exec (.programComplete f) s = .next ((v.modFurrow n (fun r => { r with prog := none })).offIfDue (.furrow f)).sense)

/-- R95, R97 to R100, R107, R108, R368: bundles and exceptions. A bundle is fetched if its index lies in the image and its
encodings are legal, else the exception is raised; the fetched bundle issues as a whole: it stalls if any slot whose predicate
is true must wait, raises the first failing check of the lowest slot (MACHINE_CHECK names no slot, and what it found is recorded
first), or has the effects of every such slot, and then each other slot's counter falls. A stall longer than FRW_WDOG raises
WATCHDOG. An exception sends the row updates still held, and completes once nothing is outstanding. What it takes from log entry
9 is the model's choice. -/
def Obligations.BundlesAndExceptions : Prop :=
  (∀ (f : FurrowId) (s : State) (p : Program), s.running f.val = some p → p.fetched = none →
    let r := s.furrow f.val
    let b := Table.get 0 r.imem p.pc
    (r.imageLen ≤ p.pc → exec (.bundleFetch f) s = .next (s.raise f.val 0x04 0 (BitVec.ofNat 64 p.pc)).sense) ∧
    (∀ (code k : Nat) (info : Word), p.pc < r.imageLen → bundleCheck b = some (code, k, info) →
      exec (.bundleFetch f) s = .next (s.raise f.val code k info).sense) ∧
    (p.pc < r.imageLen → bundleCheck b = none →
      exec (.bundleFetch f) s = .next (s.modProg f.val (fun p => { p with fetched := some b })).sense)) ∧
  (∀ (f : FurrowId) (s : State) (p : Program) (b : BitVec 512), s.running f.val = some p → p.fetched = some b →
    let all := issues f.val (s.furrow f.val) p.slice b
    let on := all.filter Issue.taken
    (on.any (fun i => i.held s) = true → exec (.bundleIssue f) s = .next (s.stall f.val).sense) ∧
    (∀ (code k : Nat) (info : Word), on.any (fun i => i.held s) = false → issueFault on s = some (code, k, info) →
      exec (.bundleIssue f) s = .next
        (if code = 0x0B then (s.upsetFound f.val info.toNat).raise f.val 0x0B 0 info else s.raise f.val code k info).sense) ∧
    (on.any (fun i => i.held s) = false → issueFault on s = none → exec (.bundleIssue f) s = .next
      (let t := s.modProg f.val (fun p =>
        { p with pc := p.pc + 1, issued := p.issued + 1, fetched := none, stallSince := none })
       let u := (issueOrder on).foldl (fun (t : State) i => i.op.run i.c t) t
       (all.filter (fun i => !i.taken)).foldl (fun (t : State) i => t.arrive f.val i.c.ctr Done.ok) u).sense)) ∧
  (∀ (f : FurrowId) (s : State) (p : Program) (a : Nat), s.running f.val = some p → p.stallSince = some a →
    let lim := s.rdf ⟨.frwWdog, f.val, 0, 0⟩ 31 0
    (lim ≠ 0 → lim * 1024 < s.aclkCycles (f.val / 16) (s.time - a) →
      exec (.watchdogExpiry f) s = .next (s.raise f.val 0x0A 0 0).sense) ∧
    (lim = 0 ∨ s.aclkCycles (f.val / 16) (s.time - a) ≤ lim * 1024 → exec (.watchdogExpiry f) s = .next s.sense)) ∧
  (∀ (f : FurrowId) (s : State) (p : Program) (e : Exc), (s.furrow f.val).prog = some p → p.phase = .excepting e →
    ((s.furrow f.val).rows ≠ [] → exec (.exceptionComplete f) s = .next (s.flushRows f.val).sense) ∧
    ((s.furrow f.val).rows = [] → (s.furrow f.val).ops = [] →
    let n := f.val
    let st : Csr := ⟨.frwExcStatus, n, 0, 0⟩
    let h := cq .frwCqHead n p.queue
    let again := s.rdb st 13
    let word := BitVec.ofNat 64 (1 + (2 + e.code % 256 * 256) + min p.issued 0xFFFFFFFF * 2 ^ 32)
    let s1 := (s.setGword (p.addr + 56) word).wrf (cq .frwCqCtl n p.queue) 5 5 1
    let s2 := s1.wrf h 11 0 ((s1.rdf h 11 0 + 1) % s1.ringSize n p.queue)
    let s3 := if p.irq then s2.assertIrq (n + 1) else s2
    let w := e.code + e.slot * 2 ^ 8 + p.queue * 2 ^ 11 + 2 ^ 13 + p.tag * 2 ^ 32
    let s4 := if again then s3.wrf st 14 14 1
      else ((s3.wr st (BitVec.ofNat 64 (w + s3.rdf st 14 14 * 2 ^ 14))).wr ⟨.frwExcPc, n, 0, 0⟩ (BitVec.ofNat 64 (e.pc % 4096))).wr
        ⟨.frwExcInfo, n, 0, 0⟩ e.info
    let s5 := s4.post (n / 16) (1 + n * 2 ^ 8 + e.code * 2 ^ 24 + p.queue * 2 ^ 32 + e.slot * 2 ^ 34 + e.pc % 4096 * 2 ^ 37 +
      (if again then 2 ^ 49 else 0) + p.tag * 2 ^ 64)
    let s6 := if e.code = 0x0B then
        s5.record 0x05 2 n (toBytes 8 (s5.rd st).toNat ++ toBytes 8 e.pc ++ toBytes 8 e.info.toNat)
      else s5
    exec (.exceptionComplete f) s = .next ((s6.modFurrow n (fun r => { r with prog := none })).offIfDue (.furrow f)).sense))

/-- R228, R233, R243, R395, R444: Granary's housekeeping. The zeroing of a freed frame ends with its bytes zero and the frame
free; a bad row is moved to one of 32 spare rows of its bank or, with none left, the frame is retired. Once in each millisecond
of system time AGE rises by one, up to 255, in every frame of pool 1 and each slice's frames are metered. An enabled region is
refreshed once per INTERVAL: every untagged line of it takes Granary's bytes and poison, and AGE clears in the frame of each
line whose fill did not ask otherwise. What it takes from log entries 28, 29 is the model's choice. -/
def Obligations.FrameHousekeeping : Prop :=
  (∀ (n : Nat) (bad : Bool) (s : State), n ∈ s.zeroing →
    let t : State := { s with zeroing := s.zeroing.filter (fun (x : Nat) => x != n), mem := s.mem.clear (n * 65536) 65536 }
    let c := channelOf n 0
    let key := bankKey c.1 (n % 1572864 / 16 / 24576) (Config.lineBank c.2)
    let used := Table.get 0 s.spareRows key
    exec (.frameZeroComplete n bad) s = .next
      (if bad then
        if used < 32 then { t with spareRows := Table.set s.spareRows key (used + 1) }.record 0x09 1 0xFFFF (toBytes 8 c.2 ++ toBytes 4 used)
        else { t.setFrame n { t.frame n with pool := 3 } with retired := s.retired ++ [n] }.record 0x09 2 0xFFFF (toBytes 8 n)
       else t).sense) ∧
  (∀ (n : Nat) (bad : Bool) (s : State), n ∉ s.zeroing → exec (.frameZeroComplete n bad) s = .next s.sense) ∧
  (∀ s : State, s.aged = s.time / 1000000 → exec .ageingTick s = .next s.sense) ∧
  (∀ s : State, s.aged ≠ s.time / 1000000 → exec .ageingTick s = .next ((List.range 64).foldl (fun (t : State) i => t.meter i 5 (t.held i))
    { s with aged := s.time / 1000000, desc := s.desc.map (fun p => if p.2.pool = 1 then (p.1, { p.2 with age := min 255 (p.2.age + 1) }) else p) }).sense) ∧
  (∀ (f : FurrowId) (j : Fin 16) (s : State),
    let mine (l : GleanLine) : Bool := l.region = j.val && l.tag.isNone
    let on := s.rdb ⟨.frwGlnReg, f.val, j.val, 0⟩ 11
    let due := Table.get 0 (s.furrow f.val).refreshed j.val + 100000 * s.rdf ⟨.frwGlnReg, f.val, j.val, 0⟩ 9 0
    (on = true → due ≤ s.time → exec (.gleanRefresh f j) s = .next
      (((s.furrow f.val).glean.filter mine).foldl (fun (t : State) l => if l.ra then t else t.touch (l.addr / 65536))
        (s.modFurrow f.val (fun r => { r with refreshed := Table.set r.refreshed j.val s.time, glean := r.glean.map (fun l => if mine l then
          { l with data := s.mem.readBytes l.addr 64, poison := s.mem.marked l.addr, time := s.time } else l) }))).sense) ∧
    (on = false ∨ s.time < due → exec (.gleanRefresh f j) s = .next s.sense))

/-- R73 to R75, R79, R80: a walk that waits stays as it is until a slot of its Furrow is free, no deferred edit covers its range
and no earlier walk of its queue waits for the Furrow; then it latches, and a pull or push walk answers or drops at once the
pages it has nothing to read for. What a walk reads of a frame that it holds, other than its root's, is read before the frame's
walk count falls; a pull sends its pages, a push pushes them, and the others keep what they read. What it takes from log entries
20, 21 is the model's choice. -/
def Obligations.WalksAdvance : Prop :=
  (∀ (id : Nat) (s : State), s.walk? id = none →
    exec (.walkLatch id) s = .next s.sense ∧ ∀ frame, exec (.walkFrameRelease id frame) s = .next s.sense) ∧
  (∀ (id : Nat) (s : State) (v : Walk), s.walk? id = some v →
    (v.latched = true ∨ 8 ≤ s.walkSlots v.furrow ∨ s.walkBlocked v = true ∨ s.walkAhead v = true →
      exec (.walkLatch id) s = .next s.sense) ∧
    (v.latched = false → s.walkSlots v.furrow < 8 → s.walkBlocked v = false → s.walkAhead v = false →
      let t := s.latch v
      (v.kind = .attn ∨ v.kind = .qship → exec (.walkLatch id) s = .next t.sense) ∧
      (∀ m, v.kind = .pull → v.req = some m → ∃ w, t.walk? id = some w ∧ w.latched = true ∧
        exec (.walkLatch id) s = .next (t.pullLatched w m).sense) ∧
      (v.kind = .push → ∃ w, t.walk? id = some w ∧ w.latched = true ∧ exec (.walkLatch id) s = .next (t.pushLatched w).sense))) ∧
  (∀ (id frame : Nat) (s : State) (w : Walk), s.walk? id = some w →
    (w.latched = false ∨ frame ∉ w.held ∨ frame = handleFrame w.root →
      exec (.walkFrameRelease id frame) s = .next s.sense) ∧
    (w.latched = true → frame ∈ w.held → frame ≠ handleFrame w.root →
      (∀ m, w.kind = .pull → w.req = some m → exec (.walkFrameRelease id frame) s = .next (s.pullRelease w m frame).sense) ∧
      (w.kind = .push → exec (.walkFrameRelease id frame) s = .next (s.pushRelease w frame).sense) ∧
      (w.kind = .attn ∨ w.kind = .qship →
        exec (.walkFrameRelease id frame) s = .next ((s.walkReadFrame w frame).releaseFrame id frame).sense)))

/-- R234 to R236, R359: the evictor and the adopter. An eviction pass ends at HIGH or with EN clear, does not begin at or above
LOW, and else acts on candidates, oldest first, until the headroom to come reaches HIGH. A demotion commits in one step (the
page's handle names the copy, the root's generation rises, the frame is freed, SLC_DEMOTE_CNT counts) if the frame still
qualifies; else a copy pushed for it is released and the frame stays. An adoption whose lookups have all been answered admits
the sequence at the lowest FREE entry of its slice, with an epoch two above the highest answered. What it takes from log entry
25 is the model's choice. -/
def Obligations.EvictionAndAdoption : Prop :=
  (∀ s : State,
    let low := s.rdf ⟨.slcPoolWm, 0, 0, 0⟩ 22 0
    let high := s.rdf ⟨.slcPoolWm, 0, 0, 0⟩ 54 32
    let on := s.rdb ⟨.slcPoolEvict, 0, 0, 0⟩ 8
    (on = false ∨ high ≤ s.headroom → exec .evictionPass s = .next { s with evicting := false }.sense) ∧
    (on = true → s.headroom < high → s.evicting = false → low ≤ s.headroom → exec .evictionPass s = .next s.sense) ∧
    (on = true → s.headroom < high → s.evicting = true ∨ s.headroom < low →
      let t : State := { s with evicting := true }
      let l := ((s.desc.map Prod.fst).filter t.candidate).foldl (fun acc n => t.ageInsert n acc) []
      exec .evictionPass s = .next
        (l.foldl (fun (u : State) n => if u.comingHeadroom < high && u.candidate n then u.evict n else u) t).sense)) ∧
  (∀ (n a root : Nat) (s : State) (copy h : Word) (pushed : Bool) (x : SheafEntry), Table.find s.demoting n = some (some copy, pushed) →
    s.backHandle n = some (x, root, a, h) →
    let d := s.frame n
    let ok := d.pool = 2 ∧ d.walks = 0 ∧ s.minAge ≤ d.age ∧ x.inStep = false ∧ demotable x.state = true ∧ handleFlag h 4 = false
    (ok →
      let kept := 1 + bitVal (handleFlag h 1) 1 + bitVal (handleFlag h 2) 2 + 64
      let flags := if pushed && uncopied h then kept + 2 ^ copyFlag x.mirrorPolicy else kept
      let r := mkHandle (handleNode copy) (handleFrame copy) (handleGen copy) (handleFmt copy) flags
      let t : State := { s with demoting := Table.erase s.demoting n }
      exec (.demotionCommit n) s = .next
        ((((t.setGword a r).bumpRootGen root).freeFrame n).count ⟨.slcDemoteCnt, d.slice, 0, 0⟩ 31 0 1).sense) ∧
    (¬ok → exec (.demotionCommit n) s = .next ((s.releasePushed n pushed).demotionOff n false).sense)) ∧
  (∀ (n : Nat) (s : State) (copy : Word) (pushed : Bool), Table.find s.demoting n = some (some copy, pushed) → s.backHandle n = none →
    exec (.demotionCommit n) s = .next (s.demotionOff n false).sense) ∧
  (∀ (id : Nat) (s : State) (a : Adoption), Table.find s.adoptions id = some a →
    (a.waiting ≠ [] → exec (.adoptLookupComplete id) s = .next s.sense) ∧
    (a.waiting = [] → a.got.length < adoptNeed a.template.mirrorPolicy →
      exec (.adoptLookupComplete id) s = .next (s.adoptStatus id a 0x78).sense) ∧
    (a.waiting = [] → adoptNeed a.template.mirrorPolicy ≤ a.got.length →
      let t := a.template
      (s.admitStatus a.slice t ≠ 0 → exec (.adoptLookupComplete id) s = .next (s.adoptStatus id a (s.admitStatus a.slice t)).sense) ∧
      (∀ i, s.admitStatus a.slice t = 0 → s.lowestFree a.slice = some i →
        let k := adpKey t.customer t.model
        let v := s.adpCurrent k
        let u := (s.geoRef t.model true).adpRef k v true
        let gone := (List.range 10).filter (fun k => !a.got.any (fun g => g.1 = k))
        let x := gone.foldl (fun (t : SheafEntry) k => t.dropMember k) t
        exec (.adoptLookupComplete id) s = .next
          ((((u.setEntry i { x with
              epoch := epochPlus (((a.got.map (fun g => g.2.1)).max?).getD 0) 2, len := leastOf (a.got.map (fun g => g.2.2)),
              adapter := v, adpHeld := u.adpHolds k v, admitTime := u.time, state := .free }).transition i .admitted
              rAdmit).epochSetAll i).adoptStatus id a 0).sense)))

/-- R287 to R293, R302: how an arriving write-class request is taken. One that is discarded, and a reserved OP or SUBOP or
header, changes only what its checks change. A refused one and a served one take their turn alike; a RESYNC sets the stream to
its SEQ first and keeps what is held beyond it; an early one is held, one already held is dropped, and one the store has no room
for is answered RETRY. What it takes from log entries 13, 21 is the model's choice. -/
def Obligations.WritesInOrder : Prop :=
  ∀ (m : Req) (s : State),
    let atom (c : Instr) (k : Nat) : Instr × Req := (c, { m with op := 0x03, subop := k })
    let always : List (Instr × Req) := [(.stRequest m, { m with op := 0x02 }), (.copyWr m, { m with op := 0x05 }),
      (.rowUpdate m, { m with op := 0x09 }), (.pageWr m, { m with op := 0x0A }), (.abort m, { m with op := 0x0B }),
      atom (.atomAdd m) 0, atom (.atomSmin m) 1, atom (.atomSmax m) 2, atom (.atomUmin m) 3, atom (.atomUmax m) 4,
      atom (.atomSwap m) 5, atom (.atomCas m) 6, atom (.atomFaddFp32 m) 7, atom (.atomFaddBf16 m) 8]
    (∀ c ∈ always,
      (∀ u, s.screen c.2 = (.discarded, u) → exec c.1 s = .next u.sense) ∧
      (∀ u, s.screen c.2 = (.refused, u) → m.resync = false → seqAhead c.2 (u.rxStream (u.reqStream c.2)) = 0 →
        exec c.1 s = .next (u.takesTurn c.2 (fun _ v => v)).sense) ∧
      (∀ t u, s.inTurn c.2 t u → exec c.1 s = .next (u.takesTurn c.2 (serveWrite c.2 t)).sense) ∧
      (∀ t u, s.screen c.2 = (.served t, u) → m.resync = true →
        let k := u.reqStream c.2
        let v := if (u.rxStream k).lost then u else u.violation m.port 12 false false
        let v := v.setRx k ((v.rxStream k).restart m.seq)
        exec c.1 s = .next (v.takesTurn c.2 (serveWrite c.2 t)).sense) ∧
      (∀ t u, s.screen c.2 = (.served t, u) → m.resync = false →
        let k := u.reqStream c.2
        let x := u.rxStream k
        seqAhead c.2 x ≠ 0 →
        (x.held.any (fun h => h.1.seq == m.seq) = true → exec c.1 s = .next u.sense) ∧
        (x.held.any (fun h => h.1.seq == m.seq) = false → u.storeRoom (reqField c.2) m.payload.length = false →
          exec c.1 s = .next (u.respond c.2 { op := 0, status := 0x5E }).sense) ∧
        (x.held.any (fun h => h.1.seq == m.seq) = false → u.storeRoom (reqField c.2) m.payload.length = true →
          exec c.1 s = .next (u.setRx k
            { x with held := x.held ++ [(c.2, some t)], holeSince := x.holeSince.or (some u.time),
                     holeWait := if x.holeSince.isNone then u.fabTimeout else x.holeWait }).sense))) ∧
    (reservedOp m = true ∨ reservedHeader m = true → exec (.reservedOpRequest m) s = .next (s.screen m).2.sense)

/-- R279 to R281, R287: stores, copy writes and atomics in their turn. TARGET_PROT where the target may not be written; else the
bytes are written (a poisoned payload marks them) and the write acknowledged. An atomic writes the result of its operation on
the integers or floating-point elements that the old bytes and the operand spell, and answers with the old bytes; poison is kept
and shown. What it takes from log entries 13, 21 is the model's choice. -/
def Obligations.StoresAndAtomics : Prop :=
  ∀ (m : Req) (s u : State) (t : Target),
    let atom (c : Instr) (k : Nat) (f : List Byte → List Byte → List Byte) : Prop :=
      let n : Req := { m with op := 0x03, subop := k }
      s.inTurn n t u → exec c s = .next (u.takesTurn n (fun _ v =>
        match v.places (gaSlice m.addr) t m.len true with
        | none => v.refuse n 0x54
        | some l =>
          let old := (v.readPlaces l).1
          let p := (v.readPlaces l).2
          let w := (v.writePlaces l (f old m.payload) (p || m.poison)).ownGlean n l
          let bs := old ++ fillBytes (pad8 m.len - m.len) 0
          w.respond n { op := 0, poison := p, arg0 := m.seq, payload := if p then fillBytes bs.length 0xFF else bs })).sense
    let ints (g : Nat → Nat → Nat) (old new : List Byte) := toBytes m.len (g (fromBytes old) (leAt new 0 m.len))
    let sgn (n : Nat) : Int := signed (8 * m.len) n
    (∀ p ∈ [(Instr.stRequest m, 0x02), (.copyWr m, 0x05)],
      let n : Req := { m with op := p.2 }
      s.inTurn n t u → exec p.1 s = .next (u.takesTurn n (fun _ v =>
        match v.places (gaSlice m.addr) t m.payload.length true with
        | none => v.refuse n 0x54
        | some l => ((v.writePlaces l m.payload m.poison).ownGlean n l).ack n [])).sense) ∧
    atom (.atomAdd m) 0 (ints (fun x y => x + y)) ∧
    atom (.atomSmin m) 1 (ints (fun x y => if sgn x ≤ sgn y then x else y)) ∧
    atom (.atomSmax m) 2 (ints (fun x y => if sgn x ≤ sgn y then y else x)) ∧
    atom (.atomUmin m) 3 (ints (fun x y => min x y)) ∧
    atom (.atomUmax m) 4 (ints (fun x y => max x y)) ∧
    atom (.atomSwap m) 5 (ints (fun _ y => y)) ∧
    atom (.atomCas m) 6 (fun old new => toBytes m.len (if fromBytes old = leAt new 0 m.len then leAt new m.len m.len else fromBytes old)) ∧
    atom (.atomFaddFp32 m) 7 (fun old new => fpAdd false old (new.take m.len)) ∧
    atom (.atomFaddBf16 m) 8 (fun old new => fpAdd true old (new.take m.len))

/-- R189, R259, R261, R284, R352, R353: the other write-class requests in their turn. A notify lowers a counter or releases a
slot of a weight stream; a row update writes or adds a row of an adapter's version; a page write follows its PAGE_OPEN, and a
fenced holder takes no delta; an ABORT enters the filter for 20 µs and stops the services of its group within 2 µs. What it
takes from log entries 21, 22, 24 is the model's choice. -/
def Obligations.OtherWrites : Prop :=
  ∀ (m : Req) (s u : State) (t : Target),
    (
      let n : Req := { m with op := 0x08 }
      let w := leAt m.payload 0 8
      s.inTurn n t u →
      (notifyKind m = 0 → exec (.notifyCounter m) s = .next (u.takesTurn n (fun _ v =>
        if v.notifyOk n then (v.arrive (bits w 7 2) (some (bits w 12 8)) Done.ok).ack n []
        else (v.bump ⟨.fabNotifyDropCnt, 0, 0, 0⟩).respond n { op := 0, status := 0x60, arg0 := m.seq })).sense) ∧
      (notifyKind m = 1 → exec (.notifySlotRelease m) s = .next (u.takesTurn n (fun _ v =>
        match v.releaseOf n with
        | none => v.violation m.port 11 false false
        | some (f, x) =>
          (v.modStream f x.op (fun x => { x with
            awaiting := x.awaiting.filter (fun (l : Nat) => l != bits w 23 15), released := bits w 23 15 :: x.released })).ack n [])).sense)) ∧
    (
      let n : Req := { m with op := 0x09 }
      let key := leAt m.payload 0 8 % 2 ^ 44
      let w := leAt m.payload 8 8
      let data := m.payload.drop 16
      s.inTurn n t u → exec (.rowUpdate m) s = .next (u.takesTurn n (fun _ v =>
        match v.adpVer key (bits w 7 0) with
        | none => v.refuse n 0x43
        | some x =>
          let len := 64 * x.lines
          let a := x.store + len * bits w 13 8
          if x.rows ≤ bits w 13 8 then v.refuse n 0x43
          else
            let v := v.rowConflict a n
            if data.length != len then v.refuse n 0x47
            else
              match v.places (gaSlice m.addr) (.granary a) len true with
              | none => v.refuse n 0x54
              | some l =>
                let old := (v.readPlaces l).1
                let p := (v.readPlaces l).2
                (v.writePlaces l (if w.testBit 14 then rowSum x.wide old data else data) (m.poison || (w.testBit 14 && p))).ack n [])).sense) ∧
    (
      let n : Req := { m with op := 0x0A }
      s.inTurn n t u → exec (.pageWr m) s = .next (u.takesTurn n (fun opens v =>
        match opens with
        | none => v.refuse n 0x26
        | some o =>
          let p := pageOpenOf o.payload
          v.atHold n (hoMsgOf o.payload) fun _ r =>
            let whole := match v.pageTarget (gaSlice m.addr) r p.layer p.index (tagFmt (wordAt m.payload 0)) with
              | none => v.refuse n 0x55
              | some ((k, made), v) => v.installPage n r p.layer p.index k made
            match p.pkind with
            | 1 => if r.fenced then v.refuse n 0x73 else v.applyDelta n r p
            | 0 => if r.policy = 2 || r.policy = 3 then v.newVersion n r o p else whole
            | _ => whole)).sense) ∧
    (
      let n : Req := { m with op := 0x0B }
      let gid := leAt m.payload 0 4
      s.inTurn n t u → exec (.abort m) s = .next (u.takesTurn n (fun _ v =>
        { v with
          abortFilter := (gid, v.time + 20000) :: v.abortFilter.filter (fun (p : Nat × Nat) => p.1 != gid)
          walks := v.walks.map (fun (w : Walk) => if gid != 0 && w.shipGroup = gid then
            { w with stopAt := some (min (w.stopAt.getD (v.time + 2000)) (v.time + 2000)) } else w) }.ack n [])).sense)

/-- R184, R245, R279, R281, R282, R285, R294, R336: the read-class requests. A load with ORD waits, already translated, for held
earlier writes; one that passes its checks is answered with data, or with TARGET_PROT. A pull or a ship is refused as its holder
code says or, with its walk started, waits for its pages; a full walk queue answers RETRY; a ship of an aborted group is dropped
and counted. What it takes from log entries 13, 20, 21 is the model's choice. -/
def Obligations.ReadRequests : Prop :=
  (∀ (m : Req) (s u : State) (t : Target),
    let n : Req := { m with op := 0x01 }
    (s.screen n = (.served t, u) → u.ordWaits n = true → exec (.ldRequest m) s = .next (u.setRx (u.reqStream n)
      { u.rxStream (u.reqStream n) with loads := (u.rxStream (u.reqStream n)).loads ++ [(n, t)] }).sense) ∧
    (s.screen n = (.served t, u) → u.ordWaits n = false →
      (u.places (gaSlice m.addr) t m.len false = none → exec (.ldRequest m) s = .next (u.refuse n 0x54).sense) ∧
      (∀ a k, u.places (gaSlice m.addr) t m.len false = some [(none, a, k)] →
        let r := u.loadGranary a k
        exec (.ldRequest m) s = .next ((if r.2.ranAhead n then r.2 else r.2.touchRange a k).respond n { op := 0, poison := r.1.2, payload := r.1.1 }).sense) ∧
      (∀ h a k, u.places (gaSlice m.addr) t m.len false = some [(some h, a, k)] →
        let bs := (u.hull h).readBytes a k
        let p := (u.hull h).anyPoison a k
        exec (.ldRequest m) s = .next
          (u.respond n { op := 0, poison := p, payload := if p then fillBytes bs.length 0xFF else bs }).sense))) ∧
  (∀ (m : Req) (s u : State) (t : Target), let n : Req := { m with op := 0x04 }
    s.screen n = (.served t, u) →
      (u.places (gaSlice m.addr) t m.len false = none → exec (.copyRd m) s = .next (u.refuse n 0x54).sense) ∧
      (∀ l, u.places (gaSlice m.addr) t m.len false = some l →
        let r := u.readPlaces l
        let v := l.foldl (fun (v : State) q => if q.1.isNone && !v.ranAhead n then v.touchRange q.2.1 q.2.2 else v) u
        exec (.copyRd m) s = .next
          (v.respond n { op := 0, poison := r.2, payload := if r.2 then fillBytes r.1.length 0xFF else r.1 }).sense)) ∧
  (∀ (m : Req) (s u : State) (t : Target), let n : Req := { m with op := 0x06 }
    s.screen n = (.served t, u) →
    let slice := gaSlice m.addr
    let q := pullReqOf m.payload
    let h := u.holding slice q.request
    let every (v : State) (code : Nat) : State :=
      (List.range q.count).foldl (fun (v : State) j => v.respond n { op := 0, status := code, arg0 := q.first + j }) v
    (∀ c, u.holderCode slice m.src q.epoch true h = c + 1 →
      exec (.pull m) s = .next (every ((u.bump ⟨.fabRefuseInCnt, 0, 0, 0⟩).fabFault (c + 1) m.addr m.src slice 0x06) (c + 1)).sense) ∧
    (∀ x root f, u.holderCode slice m.src q.epoch true h = 0 → h = some x → u.holdingFrame x = some root →
      u.servingFurrow slice (u.holdingField x) = some f →
      (u.rootLayers root ≤ q.layer → exec (.pull m) s = .next (every u 0x80).sense) ∧
      (q.layer < u.rootLayers root →
        let i := u.fresh.1
        let w : Walk :=
          { id := i, kind := .pull, furrow := f, op := i, req := some n, slice := slice,
            root := u.holdingRoot x, layer := q.layer, first := q.first, cap := q.first + q.count, src := x.source,
            parity := u.holdingParity x }
        exec (.pull m) s = .next
          ((u.fresh.2.walkStart w).getD (u.fresh.2.respond n { op := 0, status := 0x5E })).sense))) ∧
  (∀ (m : Req) (s u : State) (t : Target), let n : Req := { m with op := 0x07 }
    s.screen n = (.served t, u) →
    let slice := gaSlice m.addr
    let q := shipReqOf m.payload
    let h := u.holding slice q.request
    let aborted := q.group != 0 && u.abortFilter.any (fun p => p.1 == q.group)
    (aborted = true → exec (.qship m) s = .next (u.bump ⟨.fabMgFilterCnt, 0, 0, 0⟩).sense) ∧
    (∀ c, aborted = false → u.holderCode slice m.src q.epoch false h = c + 1 →
      exec (.qship m) s = .next (u.refuse n (c + 1)).sense) ∧
    (∀ x g root f k, aborted = false → u.holderCode slice m.src q.epoch false h = 0 → h = some x →
      u.geometry (u.holdingModel x) = some g → q.bad g m.payload.length = false → u.holdingFrame x = some root →
      u.servingFurrow slice (u.holdingField x) = some f → u.anyArray (f / 16) = some k →
      let i := u.fresh.1
      let w : Walk :=
        { id := i, kind := .qship, furrow := f, op := i, req := some n, slice := slice,
          root := u.holdingRoot x, layer := q.layer, first := q.first, cap := q.last, src := x.source,
          stopAt := if q.group = 0 then none else some (deadlineAt u.fresh.2.time q.stop) }
      (u.fresh.2.walkStart w = none → exec (.qship m) s = .next (u.fresh.2.respond n { op := 0, status := 0x5E }).sense) ∧
      (∀ v, u.fresh.2.walkStart w = some v → exec (.qship m) s = .next (v.queueJob k ⟨.ship, f, i⟩).sense)))

/-- R184, R188, R189, R191, R292, R293, R297, R298: the ends of ships and the timers of the fabric. An array that finishes a
ship's service answers it unless its deadline has passed. A group's window end makes each silent member a member fault; an ABORT
that has not been acknowledged is resent once; a filter entry and a service end at their times. A request that passes its
deadline completes as timed out; a retry resends the same request; a hole that has lasted the FAB_TIMEOUT of its start refuses
every held request with SEQ_LOST. What it takes from log entries 20, 21 is the model's choice. -/
def Obligations.FabricTimers : Prop :=
  (∀ (f : FurrowId) (id k : Nat) (s : State) (w : Walk) (m : Req), s.walk? id = some w → s.arrayOf ⟨.ship, f.val, id⟩ = some k →
    w.req = some m → w.kind = .qship →
    let r := s.shipDo w m
    let t := (r.2.2.s.jobEnd k w.slice r.2.2.cycles).walkEnd id
    (∀ d, w.stopAt = some d → d ≤ s.time → exec (.qshipServiceComplete f id) s = .next t.sense) ∧
    (w.stopAt = none → exec (.qshipServiceComplete f id) s = .next (t.answerShip m r.1 r.2.1 r.2.2).sense)) ∧
  (∀ (g : GroupId) (s : State), Table.has s.groups g.val = true →
    let gid := s.groupId g.val
    let late (o : FabOp) : Bool := o.group = some gid && (match o.deadline with | none => false | some d => d ≤ s.time) &&
      !s.answers.any (fun r => r.tag == o.tag && o.inTime r.stamp)
    exec (.mgWindowExpiry g) s = .next ((distinctDst (s.fabOps.filter late)).foldl (fun (t : State) o => t.memberFault gid o.dst 0x27) s).sense) ∧
  (∀ (id d : Nat) (s : State) (w : Walk), s.walk? id = some w → w.stopAt = some d → w.kind = .qship →
    exec (.serviceDeadlineExpiry id) s = .next (if d ≤ s.time then s.shipStop w else s).sense) ∧
  (∀ (g : BitVec 32) (s : State), exec (.abortFilterExpiry g) s =
    .next { s with abortFilter := s.abortFilter.filter (fun (p : Nat × Nat) => p.1 != g.toNat || s.time < p.2) }.sense) ∧
  (∀ (id t : Nat) (s : State) (o : FabOp), s.fabOp? id = some o → o.resendAt = some t →
    (o.req.op = 0x0B → exec (.abortResend id) s =
      .next (if t ≤ s.time && !o.again then (s.modFab id (fun p => { p with resendAt := none })).dispatch o else s).sense) ∧
    (o.again = true → t ≤ s.time → exec (.fabRetryResend id) s = .next (((s.bump ⟨.fabRetryCnt, 0, 0, 0⟩).modFab id
      (fun p => { p with resendAt := none, again := false, retries := p.retries + 1 })).dispatch o).sense)) ∧
  (∀ (id d : Nat) (s : State) (o : FabOp), s.fabOp? id = some o → o.deadline = some d → o.group = none →
    (s.time ≤ d → exec (.fabOpTimeout id) s = .next s.sense) ∧
    (∀ f j, d < s.time → s.answers.any (fun r => r.tag = o.tag && o.inTime r.stamp) = false → o.owner = .op f j →
      exec (.fabOpTimeout id) s =
        .next ((((s.bump ⟨.fabTimeoutCnt, 0, 0, 0⟩).holeSent o).lateFault o).deliver o (lateReply o) .late).sense)) ∧
  (∀ (src : NodeId) (sl : SliceId) (c : Fin 8) (s : State), src.val ≠ s.node →
    let k := (src.val, sl.val, c.val)
    let x := s.rxStream k
    (x.holeSince = none → exec (.seqHoleTimeout src sl c) s = .next s.sense) ∧
    (∀ t, x.holeSince = some t →
      (s.time < t + x.holeWait → exec (.seqHoleTimeout src sl c) s = .next s.sense) ∧
      (t + x.holeWait ≤ s.time → exec (.seqHoleTimeout src sl c) s = .next ((x.held.foldl
        (fun (v : State) h => if h.2.isSome then v.refuse h.1 0x5A else v)
        ((s.setRx k { next := x.next, lost := true, loads := x.loads }).bump ⟨.fabSeqLostCnt, 0, 0, 0⟩)).wakeLoads k).sense)))

/-- R191, R291, R292, R299, R302: how a response is taken by the operation its tag names. One that names none is discarded as
its tag says; a wrong source, a late stamp or a RETRY with fewer than four resends completes nothing; else the operation ends,
and with an OK acknowledgement of a write every earlier one of its stream that returns nothing. What it takes from log entry 21
is the model's choice. -/
def Obligations.ResponsesArrive : Prop :=
  ∀ (m : Rsp) (p : PortId) (s : State),
    let ks : List (Instr × Rsp) := [(.ldResponse m, { m with op := 0x81 }), (.atomResponse m, { m with op := 0x83 }),
      (.copyRdResponse m, { m with op := 0x84 }), (.pageResponse m, { m with op := 0x86 }), (.pageWrAck m, { m with op := 0x8A })] ++
      (if isWriteAck m.op then [(.writeAck m, m)] else []) ++
      (if s.answeredKind m = some 11 then [(.epochSetAnswer m, { m with op := 0x8C })] else []) ++
      (if s.answeredKind m = some 14 then [(.lookupAnswer m, { m with op := 0x8C })] else []) ++
      (match s.fabOps.find? (fun o => o.fixed = some p.val && o.req.op = 0x0C && leAt o.req.payload 12 1 = 18) with
       | none => []
       | some o => [(.engineFenceAnswer p, { op := 0x8C, src := o.dst, tag := o.tag, arg0 := o.req.seq, port := some p, stamp := s.time })])
    ∀ c ∈ ks,
      let r := c.2
      let t : State := { s with answers := s.answers.erase r }
      (s.fabOp? r.tag = none → exec c.1 s = .next (t.strayAnswer r).sense) ∧
      (∀ o, s.fabOp? r.tag = some o →
        (r.op ≠ o.req.op + 128 ∨ o.unsent = true → exec c.1 s = .next (t.strayAnswer r).sense) ∧
        (r.op = o.req.op + 128 → o.unsent = false →
          (r.src ≠ o.dst → exec c.1 s = .next (t.violation r.port 7 true false).sense) ∧
          (r.src = o.dst → o.inTime r.stamp = false →
            exec c.1 s = .next (t.bump (if o.group.isSome then ⟨.fabMgLateCnt, 0, 0, 0⟩ else ⟨.fabLateCnt, 0, 0, 0⟩)).sense) ∧
          (r.src = o.dst → o.inTime r.stamp = true → r.status = 0x5E → o.retries < 4 →
            exec c.1 s = .next (t.modFab o.tag (fun o => { o with resendAt := some (t.time + 1000), again := true })).sense) ∧
          (r.src = o.dst → o.inTime r.stamp = true → r.status ≠ 0x5E ∨ 4 ≤ o.retries →
            let x := replyOf o r
            let u := (t.answerFaults o r x).seqLost o r.status
            let first := u.deliver o x (if o.tag = r.tag then .answered else .silent)
            exec c.1 s = .next ((u.covered o r).foldl (fun (v : State) q =>
              v.deliver q ⟨r, { poison := q.req.poison }, false⟩ (if q.tag = r.tag then .answered else .silent)) first).sense)))

/-- R185, R240, R241, R353, R357, R358: answers of ships, parity deltas, rebuilds and weight streams. A ship's answer goes to
its attention operation. A delta with every answer in installs the version, takes it back where a member failed, or refuses the
push. A rebuild takes its pages one by one and ends by telling the sources, and the owner if a page was lost. A weight stream
starts a layer while it may and ends with its last layer or its first failure. What it takes from log entries 24, 26 is the
model's choice. -/
def Obligations.CopiesAndStreams : Prop :=
  (∀ (r : Rsp) (s : State), let n : Rsp := { r with op := 0x87 }
    (s.answer n).1 = [] → exec (.qshipAnswer r) s = .next (s.answer n).2.sense) ∧
  (∀ (r : Rsp) (s : State) (o : FabOp) (x : Reply) (f id : Nat) (a : AsyncOp), let n : Rsp := { r with op := 0x87 }
    (s.answer n).1 = [(o, x)] → o.owner = .op f id →
    let t := (s.answer n).2.closeAnswered o r
    t.op? f id = some a → exec (.qshipAnswer r) s = .next (t.replyShip f a o x).sense) ∧
  (∀ (id : Nat) (s : State) (d : Delta), s.delta? id = some d → d.sent = true → d.waiting = [] →
    (∀ i, d.fail = 0 → s.holdFind d.slice d.request = some i → exec (.parityDeltaResolve id) s =
      .next ((s.installPage d.req (s.holdAt d.slice i) d.layer d.index d.frame d.made).nextDelta d).sense) ∧
    (d.fail = 0 → s.holdFind d.slice d.request = none → exec (.parityDeltaResolve id) s =
      .next (((if d.made then s.freeFrame d.frame else s).refuse d.req 0x26).nextDelta d).sense) ∧
    (d.fail ≠ 0 → d.back = false → d.applied ≠ [] → exec (.parityDeltaResolve id) s =
      .next ((s.modDelta id (fun d => { d with back := true })).sendDelta { d with back := true } d.applied).sense) ∧
    (d.fail ≠ 0 → d.back = true ∨ d.applied = [] →
      let t := (s.bump ⟨.fabMirRevertCnt, 0, 0, 0⟩).refuse d.req (if d.lost then 0x75 else d.fail)
      exec (.parityDeltaResolve id) s = .next ((if d.made then t.freeFrame d.frame else t).nextDelta d).sense)) ∧
  (∀ (id layer index : Nat) (s : State) (r : Rebuild) (q : List (Nat × Nat)), Table.find s.rebuilds id = some r → r.waiting = [] →
    r.todo = (layer, index) :: q → r.got.any (fun p => p.2 = .asked) = false →
    (∀ tag, r.d.need ≤ r.usable →
      (r.got.filter (fun p => p.2.usable)).findSome? (fun p => match p.2 with | .page t _ => some t | _ => none) = some tag →
      exec (.rebuildPage id) s = .next ((s.rebuildWrite id r layer index tag
        (r.d.decode ((r.got.filter (fun p => p.2.usable)).map (fun p => (p.1, p.2.bytes))))).rebuildNext id).sense) ∧
    (r.usable < r.d.need → r.fresh.length < r.d.need - r.usable →
      exec (.rebuildPage id) s = .next ((s.rebuildLost id r layer index 0x84).rebuildNext id).sense) ∧
    (r.usable < r.d.need → r.d.need - r.usable ≤ r.fresh.length → exec (.rebuildPage id) s =
      .next ((r.fresh.take (r.d.need - r.usable)).foldl (fun (t : State) m => t.rebuildAsk id r layer index m) s).sense)) ∧
  (∀ (id i : Nat) (s : State) (r : Rebuild), Table.find s.rebuilds id = some r → r.todo = [] → r.waiting = [] →
    let d := r.d
    let t : State := { s with rebuilds := Table.erase s.rebuilds id }
    t.holdFind r.slice d.request = some i →
    let covered := leastOf (r.covered.map Prod.snd)
    let u := t.setHold r.slice i { t.holdAt r.slice i with covered, rebuilding := false, fenced := false }
    let tell (v : State) (node kind : Nat) : State :=
      (v.errand .notice r.slice (hoAsk (nodeAddr node r.slice) { request := d.request, epoch := d.epoch, kind } [])).getD v
    let v := d.sources.foldl (fun (v : State) m => tell v m.2 17) u
    exec (.rebuildEnd id) s =
      .next ((if r.lost then tell v d.owner 15 else v).finish r.furrow r.op (if r.lost then { code := r.code, poison := true } else Done.ok)).sense) ∧
  (∀ (f : FurrowId) (k : Fin 4) (s : State) (x : WStream), s.stream? f.val k.val = some x →
    (x.mayStart = false → exec (.wstreamLayerStart f k) s = .next s.sense) ∧
    (x.mayStart = true →
      let d := windowDesc x.desc
      let l := x.next
      let m := s.weightMap d l
      let r := (List.range m.frames).foldl (fun (r : LayerRun) i => r.frame f.val x.slice x.ra d m i) { s }
      let us := chunks 4096 r.bytes
      let t := us.zipIdx.foldl (fun (t : State) p => t.sendUnit f.val x l p.2 (r.code = 0 && p.2 + 1 = us.length) p.1) r.s
      exec (.wstreamLayerStart f k) s = .next (t.modStream f.val x.op (fun y =>
        { y with next := l + 1, awaiting := if r.code = 0 then y.awaiting ++ [l] else y.awaiting,
                 fail := y.fail.or (if r.code = 0 then none else some { code := r.code, poison := r.code = 0x29 }) })).sense) ∧
    (
      let ends := x.ended = false ∧ (x.fail.isSome = true ∨ ((windowDesc x.desc).last < x.next ∧ x.unacked = 0))
      (¬ends → exec (.wstreamEnd f k) s = .next s.sense) ∧
      (ends →
        let d := x.fail.getD Done.ok
        exec (.wstreamEnd f k) s = .next ((s.modStream f.val x.op (fun y => { y with ended := true })).finish f.val x.op
          { d with poison := d.poison || x.poison }).sense)))

/-- R335 to R357: the messages of a handover and of mirrors, in their turn (Table 13-3), each served as its kind. A message of
another kind than the command names changes nothing. What each kind does at the record it names, where its epoch fits: an OFFER
enters the inbox; an ACCEPT by D moves the offer to COMMIT_SENT with the lease E and starts the COMMIT; a COMMIT admits the
sequence and starts the ACK; an ACK by E confirms; a CONFIRM or RELEASED confirms the receiver; a STEPPED releases the retained
copy; a RECLAIM discards the receiver's entry; its answer frees the journal record; EPOCH_SET, COVER, FENCE and DROP change the
hold record. What it takes from log entries 25, 27 is the model's choice. -/
def Obligations.HandoverMessages : Prop :=
  (∀ (m : Req) (s u : State) (t : Target),
    let n : Req := { m with op := 0x0C }
    let h := hoMsgOf m.payload
    ∀ p ∈ ([(1, .offer m, fun v => v.serveOffer n h), (2, .accept m, fun v => v.serveAccept n h), (3, .refuse m, fun v => v.serveRefuse n h),
        (4, .commit m, fun v => v.serveCommit n h), (5, .ack m, fun v => v.serveAck n h), (6, .confirm m, fun v => v.serveConfirm n h),
        (7, .stepped m, fun v => v.serveStepped n h), (8, .released m, fun v => v.serveReleased n h),
        (9, .reclaim m, fun v => v.serveReclaim n h), (10, .reclaimAck m, fun v => v.serveReclaimAck n h),
        (11, .epochSet m, fun v => v.serveEpochSet n h), (12, .cover m, fun v => v.serveCover n h), (13, .drop m, fun v => v.serveDrop n h),
        (14, .lookup m, fun v => v.serveLookup n h), (15, .loss m, fun v => v.serveLoss n h), (16, .pageOpen m, fun v => v.servePageOpen n h),
        (17, .holderFence m, fun v => v.serveFence n h)] : List (Nat × Instr × (State → State))),
      (leAt m.payload 12 1 = p.1 → s.inTurn n t u → exec p.2.1 s = .next (u.takesTurn n (fun _ v => p.2.2 v)).sense) ∧
      (leAt m.payload 12 1 ≠ p.1 → exec p.2.1 s = .next s.sense)) ∧
  (∀ (m : Req) (h : HoMsg) (v : State) (j : Nat),
    let sl := gaSlice m.addr
    let r := v.jnlAt sl j
    (∀ n, v.jnlOf sl h.request JnlRec.in' = none → v.fallow = false → v.sliceState sl ≠ 3 →
      (∀ i ∈ v.inboxSlots sl, ∀ g, v.inboxOffer sl i = some g → (g.1.request == h.request) = false) →
      v.inboxSize sl = some n → ((v.inboxEnds sl).2 + 1) % n ≠ (v.inboxEnds sl).1 % n →
      let rec' := m.payload.take 280 ++ toBytes 8 m.stamp ++ toBytes 8 m.src
      v.serveOffer m h = ((v.gwrite (v.inboxAddr sl (v.inboxEnds sl).2) (rec' ++ fillBytes (384 - rec'.length) 0) false).wrf
        ⟨.fabHoInboxCtl, 0, sl, 0⟩ 43 32 (((v.inboxEnds sl).2 + 1) % n)).ack m []) ∧
    (∀ i, v.jnlFor sl h.request JnlRec.out h.epoch 0 = some j → h.epoch = r.epoch → r.phase = 1 → m.stamp ≤ r.d → v.jnlEntry r = some i →
      let e := m.stamp + v.leaseOf sl j
      let w := ((v.setEntry i { v.entry i with lease := e }).setJnl sl j { r with phase := 2, e }).endExchange sl j 1
      v.serveAccept m h = (w.startExchange sl j r.addr { request := h.request, epoch := h.epoch, kind := 4, arg := e } [] e false).ack m []) ∧
    (∀ i, v.jnlFor sl h.request JnlRec.in' h.epoch 0 = some j → h.epoch = r.epoch → r.phase = 8 → v.jnlEntry r = some i →
      (v.entry i).state = .handoverIn →
      let e1 := epochPlus r.epoch 1
      let w := (v.setEntry i { v.entry i with epoch := e1, admitTime := v.time, epochRound := true }).transition i
        (if r.target = 3 then .parked else .decode) 0x35
      let x := (w.setJnl sl j { r with phase := 9, e := h.arg }).endExchange sl j 2
      v.serveCommit m h =
        (x.startExchange sl j r.addr { request := h.request, epoch := e1, kind := 5 } [] (h.arg + x.leaseOf sl j) false).ack m []) ∧
    (v.jnlFor sl h.request JnlRec.out h.epoch 1 = some j → h.epoch = epochPlus r.epoch 1 → r.phase = 2 → m.stamp ≤ r.e →
      v.serveAck m h = (((v.setPhase sl j 3).endExchange sl j 4).ack m []).hoSend sl r.addr
        { request := h.request, epoch := h.epoch, kind := 6 }) ∧
    (v.jnlFor sl h.request JnlRec.in' h.epoch 1 = some j → h.epoch = epochPlus r.epoch 1 → r.phase ≠ 8 → r.phase ≠ 10 →
      v.serveConfirm m h = (v.confirmIn sl j).ack m [] ∧ v.serveReleased m h = (v.confirmIn sl j).ack m []) ∧
    (v.jnlFor sl h.request JnlRec.out h.epoch 1 = some j → h.epoch = epochPlus r.epoch 1 → r.phase = 3 →
      v.serveStepped m h = ((v.releaseCopy sl j).ack m []).hoSend sl r.addr { request := h.request, epoch := h.epoch, kind := 8 }) ∧
    (v.jnlFor sl h.request JnlRec.in' h.epoch 2 = some j → h.epoch = epochPlus r.epoch 2 → r.phase ≠ 10 →
      v.serveReclaim m h = ((v.discard sl j).ack m []).hoSend sl r.addr { request := h.request, epoch := h.epoch, kind := 10 }) ∧
    (v.jnlFor sl h.request (fun r => r.phase = 4) h.epoch 2 = some j → h.epoch = epochPlus r.epoch 2 →
      v.serveReclaimAck m h = ((v.endExchange sl j 9).freeJnl sl j).ack m [])) ∧
  (∀ (m : Req) (h : HoMsg) (v : State) (i : Nat),
    let sl := gaSlice m.addr
    let r := v.holdAt sl i
    v.holdFind sl h.request = some i →
    (r.epoch < h.epoch → v.serveEpochSet m h = (v.setHold sl i { r with epoch := h.epoch, owner := m.src }).ack m []) ∧
    (h.epoch < r.epoch → v.serveEpochSet m h = v.staleEpoch m) ∧
    (h.epoch = r.epoch →
      v.serveCover m h = (v.setHold sl i { r with covered := max r.covered (bits h.arg 23 0), expiry := bits h.arg 63 32 }).ack m [] ∧
      v.serveFence m h = (v.setHold sl i { r with fenced := h.arg.testBit 0 }).ack m [] ∧
      v.serveDrop m h = (v.dropHold sl i).ack m []))

/-- R339, R344, R345, R348 to R350, R355, R486: what the clocks of handovers do. A message due is sent again until its limit,
and its exchange ends there (one of RECLAIM or STEPPED with its journal record). An offer past D goes back with OFFER_REFUSED's
reason; past E a CONFIRMED record releases its copy and a COMMIT_SENT one reclaims; an accepted offer is discarded a lease and
10 µs past D; a receiver that has heard nothing a lease past E is unresolved, counts it and interrupts its slice; a RELEASED
record is freed after a lease; a hold record is dropped at its EXPIRY. A resolved record leaves the list; with none left,
CLK_RST_STATUS.RESOLVING clears. What it takes from log entries 25, 34 is the model's choice. -/
def Obligations.HandoverTimers : Prop :=
  (∀ (id : Nat) (s : State) (x : Exchange), s.exchanges.find? (fun x => x.id = id) = some x →
    (exec (.hoResend id) s = .next (if x.next ≤ s.time && s.time < x.limit then
      { s with exchanges := s.exchanges.map (fun (y : Exchange) =>
          if y.id = id then { y with next := y.next + y.every } else y) }.sendExchange x
      else s).sense) ∧
    (s.time < x.limit → exec (.hoResendEnd id) s = .next s.sense) ∧
    (x.limit ≤ s.time →
      let t : State := { s with exchanges := s.exchanges.filter (fun (y : Exchange) => y.id != id) }
      exec (.hoResendEnd id) s = .next (if x.kind = 7 || x.kind = 9 then t.freeJnl x.slice x.jnl else t).sense)) ∧
  (∀ (sl : SliceId) (j : Nat) (s : State), (s.jnlSize sl.val).isSome = true →
    let r := s.jnlAt sl.val j
    exec (.offerDeadline sl j) s = .next (if r.phase = 1 ∧ r.d < s.time then s.revertOffer sl.val j 0x31 else s).sense ∧
    exec (.leaseExpiry sl j) s = .next (if s.time ≤ r.e then s else if r.phase = 3 then s.releaseCopy sl.val j
      else if r.phase = 2 then s.reclaim sl.val j else s).sense ∧
    exec (.acceptWindowExpiry sl j) s = .next
      (if r.phase = 8 ∧ r.d + s.leaseOf sl.val j + 10000 < s.time then s.discard sl.val j else s).sense ∧
    exec (.receiverUnresolved sl j) s = .next (if r.phase = 9 ∧ r.e + s.leaseOf sl.val j ≤ s.time then
      (((s.setPhase sl.val j 11).endExchange sl.val j 5).bump ⟨.fabHoUnresolvedCnt, 0, 0, 0⟩).assertIrq (73 + sl.val) else s).sense ∧
    exec (.journalRetainExpiry sl j) s = .next
      (if r.phase = 5 ∧ r.time + s.leaseOf sl.val j ≤ s.time then s.freeJnl sl.val j else s).sense) ∧
  (∀ (sl : SliceId) (h l : Nat) (s : State), s.holdSize sl.val = some l →
    let r := s.holdAt sl.val h
    exec (.holdExpiry sl h) s = .next (if h < 2 ^ l ∧ r.valid = true ∧ r.expiry ≠ 0 ∧ r.expiry ≤ s.time / 2 ^ 20 % 2 ^ 32 then
      s.dropHold sl.val h else s).sense) ∧
  (∀ (sl : SliceId) (j : Nat) (s : State),
    (s.resolving.contains (sl.val, j) = true → s.partnerUp (s.jnlAt sl.val j).partner = true →
      let t := { s with resolving := s.resolving.filter (fun (k : Nat × Nat) => k != (sl.val, j)) }.resolveRecord sl.val j
      exec (.journalResolve sl j) s = .next (if t.resolving.isEmpty then t.wrf ⟨.clkRstStatus, 0, 0, 0⟩ 1 1 0 else t).sense) ∧
    (s.resolving.contains (sl.val, j) = false → exec (.journalResolve sl j) s = .next s.sense))

/-- R303, R304, R307, R308, R319 to R322, R497: the states of a port (Table 12-5). PORT_ENABLE starts an enabled OFF port that
is on, not fenced, with its node ID written; PORT_DISABLE takes it OFF and its queue is lost; PORT_RETRAIN retrains an ACTIVE
port, restarts a FAILED one and counts. FEED_CHECK wants eight wavelengths at ALARM, or four with HALF_OK; PHY_TRAIN wants
wavelengths that lock, and lanes enough in both directions, fewer than eight only with HALF_OK at both ends; ALIGN passes or
fails; INIT records the partner, checks FEC mode and role, answers, and makes the port ACTIVE. A state that outlasts its limit
fails; a quarantine ends after 10 µs; AUTO retries a FAILED port after 100 ms, not after three failures. In any other state each
of these leaves the port as it is. What it takes from log entries 27, 39 is the model's choice. -/
def Obligations.PortTraining : Prop :=
  ∀ (p : PortId) (s : State),
    let q := p.val
    let st := s.portState q
    (
      let t := s.wrf ⟨.prtCtl, q, 0, 0⟩ 0 0 1
      exec (.portEnable p) s = .next (if t.portState q = 0 && t.portCtl q 0 && t.domainOn (72 + q) &&
        t.rdb ⟨.chpNodeId, 0, 0, 0⟩ 14 && !t.fenced (.port (Fin.ofNat 24 q)) then t.portGo q 1 1 else t).sense) ∧
    (
      let t := s.wrf ⟨.prtCtl, q, 0, 0⟩ 0 0 0
      exec (.portDisable p) s = .next (if t.portState q = 0 then t
        else (t.portGo q 0 0).modPort q (fun x => { x with dropped := true, queue := [], waiting := [], partialPkt := [] })).sense) ∧
    exec (.portRetrain p) s = .next
      (if st = 7 then ((s.portGo q 1 2).modPort q (fun x => { x with failures := 0 })).bump ⟨.prtRetrainCnt, q, 0, 0⟩
       else if st = 5 then (s.portGo q 2 2).bump ⟨.prtRetrainCnt, q, 0, 0⟩ else s).sense ∧
    (∀ power : List Nat,
      let t := (List.range 9).foldl (fun (t : State) k => t.wr ⟨.prtFeedPwr, q, k, 0⟩ (BitVec.ofNat 64 (power.getD k 0 % 65536))) s
      let alarm := t.rdf ⟨.prtFeedTh, q, 0, 0⟩ 31 16
      let good := ((List.range 9).filter (fun k => alarm ≤ power.getD k 0)).length
      exec (.feedCheckComplete p power) s = .next
        (if st ≠ 1 then s else if (if t.portCtl q 2 then 4 else 8) ≤ good then t.portGo q 2 0 else t.trainFail q 3).sense) ∧
    (∀ (tx rx : List Bool) (peerHalf : Bool),
      let good (l : List Bool) : List Nat := (List.range 9).filter (fun k => l.getD k false)
      let half := s.portCtl q 2 && peerHalf
      let t := s.wrf ⟨.prtLaneStatus, q, 0, 0⟩ 26 0 (((List.range 9).map (fun k => (if rx.getD k false then 1 else 4) * 2 ^ (3 * k))).sum)
      (st ≠ 2 → exec (.phyTrainComplete p tx ⟨rx, peerHalf⟩) s = .next s.sense) ∧
      (st = 2 → good tx = [] ∨ good rx = [] → exec (.phyTrainComplete p tx ⟨rx, peerHalf⟩) s = .next (t.trainFail q 4).sense) ∧
      (st = 2 → good tx ≠ [] → good rx ≠ [] →
        (laneChoice (good tx) half = none ∨ laneChoice (good rx) half = none →
          exec (.phyTrainComplete p tx ⟨rx, peerHalf⟩) s = .next (t.trainFail q 8).sense) ∧
        (∀ a b : List Nat × Nat, laneChoice (good tx) half = some a → laneChoice (good rx) half = some b →
          exec (.phyTrainComplete p tx ⟨rx, peerHalf⟩) s = .next
            ((((t.wr ⟨.prtLaneMap, q, 0, 0⟩ (laneMapWord b.1 b.2)).wrf ⟨.prtStatus, q, 0, 0⟩ 12 12
              (if (good rx).length < 8 then 1 else 0)).modPort q (fun x =>
                { x with coefficients := true, txMap := (a.1.zipIdx.map (fun (a, j) => (j, a))) ++ [(8, a.2)] })).portGo q 3 0).sense))) ∧
    (∀ ok : Bool, exec (.alignComplete p ok) s = .next
      (if st ≠ 3 then s else if ok then s.portGo q 4 0 else s.trainFail q 5).sense) ∧
    exec (.initSendTimer p) s = .next (if st = 4 then s.sendCtrl q 1 (s.initBody q) else s).sense ∧
    (∀ body : List Byte,
      let w := leAt body 0 8
      let r : Csr := ⟨.prtStatus, q, 0, 0⟩
      let t := (s.wrf r 27 14 (bits w 13 0)).wrf r 28 28 (bits w 14 14)
      (st ≠ 4 → exec (.ctrlInit p body) s = .next s.sense) ∧
      (st = 4 → w.testBit 15 ≠ (t.port q).lowFec → exec (.ctrlInit p body) s = .next (t.trainFail q 6).sense) ∧
      (st = 4 → w.testBit 15 = (t.port q).lowFec → w.testBit 14 ≠ t.hasEngine q →
        exec (.ctrlInit p body) s = .next (t.trainFail q 7).sense) ∧
      (st = 4 → w.testBit 15 = (t.port q).lowFec → w.testBit 14 = t.hasEngine q → exec (.ctrlInit p body) s =
        .next (((t.sendCtrl q 1 (t.initBody q)).wrf r 11 11 (bits w 16 16)).portActive q (bits w 13 0) (bits w 54 39) (bits w 28 17)).sense)) ∧
    (s.trainLimit q = none → exec (.trainingTimeout p) s = .next s.sense) ∧
    (∀ t reason : Nat, s.trainLimit q = some (t, reason) →
      exec (.trainingTimeout p) s = .next (if t ≤ s.portAge q then s.trainFail q reason else s).sense) ∧
    exec (.quarantineEnd p) s = .next (if st = 6 ∧ 10000 ≤ s.portAge q then s.portGo q 2 0 else s).sense ∧
    exec (.failedAutoRetry p) s = .next
      (if st = 7 ∧ s.portCtl q 3 = true ∧ (s.port q).failures < 3 ∧ 100000000 ≤ s.portAge q then s.portGo q 1 0 else s).sense

/-- R303, R305, R306, R309 to R316, R318, R323 to R330: wavelengths, laser feed and beacons. A wavelength fails when it loses
lock (LOCK falls), shows a symbol error ratio above 2 × 10^-4 (SER_HIGH) or cannot be kept in margin. A failed wavelength takes
the spare: if it is the spare, there is none left; if a lane uses it, the lane moves to the spare and asks the sender to, or
with no spare the port retrains. The request is taken from any lane of the receive direction. A measured power below a threshold
three times in a row warns, or fails the wavelength. A beacon, at most one every 10 µs, is answered with its time and the time
here; its answer gives delay and offset, and the mean offset that the upstream ports have measured steers system time. An ACK
frees the flits it covers; a CREDIT raises the partner's counts; a NAK sends again from the flit it names, the eighth of one
flit in a row retrains; ACKs and NAKs are sent when due; parts of a message that stay incomplete for the FAB_TIMEOUT of their
start are dropped and counted. A flit is received only in INIT and ACTIVE: a bad CRC is counted and NAKed once, a reserved flit
is counted, and data is taken in order. Codewords arrive on the lanes of an aligned port: one that is deskewed and decodes gives
its bits, corrected errors counted; one that does not is counted, its bits lost. The egress scheduler sends the packet its
classes' tags choose, or with none CREDIT; a port about to be quarantined sends its NAKs of class 7 first. What it takes from
log entries 27, 32, 39 is the model's choice. -/
def Obligations.LanesAndLinkLayer : Prop :=
  (
  ∀ (p : PortId) (s : State),
    let q := p.val
    let st := s.portState q
    (∀ k : Fin 9,
      let ls : Csr := ⟨.prtLaneStatus, q, 0, 0⟩
      exec (.wavelengthFail p ⟨k, .lockLost⟩) s = .next ((s.wrf ls (3 * k.val) (3 * k.val) 0).waveFailed q k.val).sense ∧
      exec (.wavelengthFail p ⟨k, .margin⟩) s = .next (s.waveFailed q k.val).sense ∧
      (∀ errors symbols : Nat, exec (.wavelengthFail p ⟨k, .symbolErrors errors symbols⟩) s = .next
        (if 2 * symbols < 10000 * errors then (s.wrf ls (3 * k.val + 1) (3 * k.val + 1) 1).waveFailed q k.val
         else s.wrf ls (3 * k.val + 1) (3 * k.val + 1) 0).sense) ∧
      (∀ v : State,
        let map : Csr := ⟨.prtLaneMap, q, 0, 0⟩
        let t := v.wrf ls (3 * k.val + 2) (3 * k.val + 2) 1
        let spare := t.rdf map 35 32
        let lane := firstBelow 8 (fun j => t.rdf map (4 * j + 3) (4 * j) = k.val)
        (t.portState q ≠ 5 → v.waveFailed q k.val = t) ∧
        (t.portState q = 5 → spare = k.val → v.waveFailed q k.val = t.wrf map 35 32 15) ∧
        (t.portState q = 5 → spare ≠ k.val → lane = none → v.waveFailed q k.val = t) ∧
        (∀ j, t.portState q = 5 → spare ≠ k.val → lane = some j →
          (spare = 15 → v.waveFailed q k.val = t.retrain q 0x0C) ∧
          (spare ≠ 15 →
            let w := ((t.wrf map (4 * j + 3) (4 * j) spare).wrf map 35 32 15).bump ⟨.prtRemapCnt, q, 0, 0⟩
            v.waveFailed q k.val = (w.modPort q (fun x =>
              { x with laneAsk := some (j, spare), askLanes := List.range (w.lanes q 11) })).portRecord q 1 j)))) ∧
    (∀ (lane : Fin 8) (heard : List Bool),
      let spare := Table.get 8 (s.port q).txMap 8
      let hears := (heard.take (s.lanes q 12)).any id
      (st ≠ 5 ∨ spare = 15 ∨ hears = false → exec (.laneRemapRequest p ⟨lane, heard⟩) s = .next s.sense) ∧
      (st = 5 → spare ≠ 15 → hears = true → exec (.laneRemapRequest p ⟨lane, heard⟩) s = .next
        (((s.modPort q (fun x => { x with txMap := Table.set (Table.set x.txMap lane.val spare) 8 15 })).bump
          ⟨.prtRemapCnt, q, 0, 0⟩).portRecord q 2 lane.val).sense)) ∧
    (exec (.ringTuning p) s = .next (if st = 5 then s.modPort q (fun x => { x with tunedAt := s.time }) else s).sense) ∧
    (∀ power : List Nat, exec (.feedMeasure p power) s =
      .next (if st = 0 then s else (List.range 9).foldl (fun (t : State) k => t.measureFeed q k (power.getD k 0)) s).sense) ∧
    (
      let n := s.time / 10000
      (Table.find s.paced (512 + q) = some n → exec (.beaconTimer p) s = .next s.sense) ∧
      (Table.find s.paced (512 + q) ≠ some n →
        let t : State := { s with paced := Table.set s.paced (512 + q) n }
        exec (.beaconTimer p) s =
          .next (if st = 5 ∧ s.rdb ⟨.prtTime, q, 0, 0⟩ 0 = true then t.sendCtrl q 5 (toBytes 8 s.time) else t).sense)) ∧
    (∀ body : List Byte,
      let t1 : Int := leAt body 0 8
      let t2 : Int := leAt body 8 8
      let t3 : Int := leAt body 16 8
      let t4 : Int := s.time
      exec (.beacon p body) s =
        .next (if st = 5 then s.sendCtrl q 6 (body.take 8 ++ toBytes 8 s.time ++ toBytes 8 s.time) else s).sense ∧
      (st ≠ 5 → exec (.beaconReply p body) s = .next s.sense) ∧
      (st = 5 →
        let off := ((t2 - t1) - (t4 - t3)) / 2
        let t := ((s.wr ⟨.prtTimeDelay, q, 0, 0⟩ (BitVec.ofNat 64 (unsigned 32 (((t4 - t1) - (t3 - t2)) / 2)))).wr
          ⟨.prtTimeOff, q, 0, 0⟩ (BitVec.ofNat 64 (unsigned 32 off))).modPort q (fun x => { x with offset := some off })
        let offs := t.upstream.filterMap (fun i => (t.port i).offset)
        exec (.beaconReply p body) s =
          .next (if t.upstream.contains q then t.steer (offs.foldl (· + ·) 0 / (offs.length : Int)) else t).sense))
  ) ∧ (
  ∀ (p : PortId) (s : State),
    let q := p.val
    let st := s.portState q
    (∀ body : List Byte,
      let n := leAt body 0 2 % 4096
      exec (.ctrlAck p body) s = .next (s.modPort q (fun x =>
        { x with replay := x.replay.filter (fun (f : Flit) => !decide ((n + 4096 - f.fseq) % 4096 < 2048)) })).sense ∧
      exec (.ctrlCredit p body) s = .next ((List.range 8).foldl (fun (t : State) v =>
        (t.modPort q (fun x => x.credited v (bits (leAt body 0 12) (12 * v + 11) (12 * v)))).showCredit q v) s).sense ∧
      (st ≠ 5 → exec (.ctrlNak p body) s = .next s.sense) ∧
      (st = 5 →
        let x := (s.port q).acked ((n + 4095) % 4096)
        let run := if x.nakRun.1 = n && x.nakRun.2 != 0 then x.nakRun.2 + 1 else 1
        let t := s.modPort q (fun _ => { x with nakRun := (n, run) })
        exec (.ctrlNak p body) s = .next (if 8 ≤ run then (t.modPort q (fun x => { x with nakRun := (0, 0) })).retrain q 0x0B
          else if x.replay.isEmpty then t
          else (t.modPort q (fun x => x.put x.replay)).bump ⟨.prtReplayCnt, q, 0, 0⟩).sense)) ∧
    (exec (.ackTimer p) s = .next (if st = 5 && (s.port q).toAck != 0 && (s.port q).ackSince + 100 ≤ s.time then
      s.sendCtrl q 2 (toBytes 2 (((s.port q).expect + 4095) % 4096)) else s).sense) ∧
    (∀ t, (s.port q).nakSince = some t →
      exec (.nakResend p) s = .next (if st = 5 && t ≤ s.time then s.sendNak q else s).sense) ∧
    (∀ (f : FieldId) (id : Nat) (r : Reassembly), s.reasm.find? (fun r => r.id = id && r.field = f.val) = some r →
      exec (.reassemblyTimeout f id) s = .next (if s.time < r.stamp + r.limit then s
        else { s with reasm := s.reasm.filter (fun (x : Reassembly) => x.id != id) }.bump ⟨.prtReasmDropCnt, 0, 0, 0⟩).sense) ∧
    (∀ bs : List Byte, let c : Instr := .flitReceive p (.flit bs)
      (st ≠ 4 → st ≠ 5 → exec c s = .next s.sense) ∧
      (crcOk bs = false → st = 4 → exec c s = .next (s.bump ⟨.prtCrcCnt, q, 0, 0⟩).sense) ∧
      (crcOk bs = false → st = 5 →
        let t := s.bump ⟨.prtCrcCnt, q, 0, 0⟩
        exec c s = .next (if (t.port q).nakSince.isNone then t.sendNak q else t).sense) ∧
      (st = 4 ∨ st = 5 → crcOk bs = true → flitReserved bs = true →
        exec c s = .next (s.bump ⟨.prtLinkErrCnt, q, 0, 0⟩).sense) ∧
      (st = 4 → crcOk bs = true → flitReserved bs = false →
        exec c s = .next ((if (flitOf bs).kind = 3 then s.ctrlReceive p (flitOf bs) else s).unblock p).sense) ∧
      (st = 5 → crcOk bs = true → flitReserved bs = false →
        let f := flitOf bs
        let t := s.flitReports q f
        (f.kind = 0 → exec c s = .next (t.unblock p).sense) ∧
        (f.kind = 3 → exec c s = .next ((t.ctrlReceive p f).unblock p).sense) ∧
        (f.kind ≠ 0 → f.kind ≠ 3 →
          ((t.port q).quarantineDue = true → exec c s = .next (t.unblock p).sense) ∧
          ((t.port q).quarantineDue = false → f.fseq = (t.port q).expect → exec c s = .next ((t.dataFlit p f).unblock p).sense) ∧
          ((t.port q).quarantineDue = false → f.fseq ≠ (t.port q).expect → exec c s =
            .next ((if (t.port q).nakSince.isSome then t else t.sendNak q).unblock p).sense)))) ∧
    (∀ lanes : List (Nat × List (BitVec 10)), let c : Instr := .flitReceive p (.codeword lanes)
      let low := (s.port q).lowFec
      let w := fromLanes (fecCode low).length (lanes.map (fun l => l.2.map BitVec.toNat))
      let gains (t : State) (bits : List (Option Bool)) := t.modPort q (fun x => { x with rxBits := x.rxBits ++ bits })
      let lost := gains (s.bump ⟨.prtFecUncorrCnt, q, 0, 0⟩) (List.replicate (10 * (fecCode low).message) none)
      (st < 4 ∨ 6 < st → exec c s = .next s.sense) ∧
      (st = 4 ∨ st = 5 ∨ st = 6 →
        (deskewed (lanes.map Prod.fst) = false ∨ (fecCode low).decode w = none → exec c s = .next (lost.flitsOut p 6).sense) ∧
        (∀ v places, deskewed (lanes.map Prod.fst) = true → (fecCode low).decode w = some (v, places) → exec c s =
          .next ((gains (if places = [] then s else s.bump ⟨.prtFecCorrCnt, q, 0, 0⟩) ((codewordBits low v).map some)).flitsOut p 6).sense))) ∧
    ((s.portUsable q = false → exec (.egressSchedule p) s = .next s.sense) ∧
     (s.portUsable q = true →
      let elig := (List.range 8).filter (fun c => (c = 7 || !(s.port q).quarantineDue) && (s.subQueue q c).isSome)
      let t := s.modPort q (fun x =>
        { (elig.filter (fun c => !x.awake.contains c)).foldl (fun (y : Port) c =>
            { y with start := Table.set y.start c (tagMax y.vtime (Table.get 0 y.finish c)) }) x with awake := elig })
      let x := t.port q
      let strict := t.rdb ⟨.prtSchedCtl, q, 0, 0⟩ 0 && elig.contains 7 && x.recent7 < 512
      let choice := if strict then some 7 else x.firstClass elig
      (choice = none → exec (.egressSchedule p) s = .next
        (t.sendCtrl q 4 (toBytes 12 ((List.range 8).map (fun v => Table.get 0 x.freed v % 4096 * 2 ^ (12 * v))).sum)).sense) ∧
      (∀ c k, choice = some c → t.subQueue q c = some k →
        let u := t.sendPacket q k !strict
        exec (.egressSchedule p) s = .next (if (u.port q).quarantineDue && !(u.port q).naks then u.quarantineNow q else u).sense)))
  )

/-- R389, R390, R393 to R397: slices and meters. A slice moves FREE, CREATED, ACTIVE, DRAINING and back as its commands say,
which a bound core, and under MGMT_LOCK any core, may not give; another state sets CMD_ERR (and answers an HMP command
SLICE_STATE). Slice 0 is neither drained nor torn down. TEARDOWN aborts the slice's programs and marks its in-step entries; once
no program of it runs, its entries, work, tables, frames, codebooks and adapters are cleared, a final snapshot is recorded, and
it is FREE. METER_SNAPSHOT, at a whole second of system time that has none, latches every slice's counters under the next
sequence number. CREATE zeroes every counter of the slice, the OVERFLOW counts of its ring and its inbox with them. What it
takes from log entry 30 is the model's choice. -/
def Obligations.SlicesAndMeters : Prop :=
  (∀ (who : Who) (sl : SliceId) (s : State),
    let n := sl.val
    let r := slcCtl n
    let moves (c : Instr) (a b : Nat) : Prop :=
      (s.sliceState n = a → exec c s = .next (s.wrf r 2 0 b).sense) ∧ (s.sliceState n ≠ a → exec c s = .next (s.sliceError who n).sense)
    (s.sliceSender who n = false → ∀ c ∈ [Instr.create who sl, .start who sl, .drain who sl, .resume who sl, .teardown who sl],
      exec c s = .next s.sense) ∧
    (n = 0 → exec (.drain who sl) s = .next s.sense ∧ exec (.teardown who sl) s = .next s.sense) ∧
    (s.sliceSender who n = true →
      moves (.start who sl) 1 2 ∧ moves (.resume who sl) 3 2 ∧ (n ≠ 0 → moves (.drain who sl) 2 3) ∧
      (s.sliceState n ≠ 0 → exec (.create who sl) s = .next (s.sliceError who n).sense) ∧
      (s.sliceState n = 0 → exec (.create who sl) s = .next (((((s.resetRegs (sliceCounters n)).wrf ⟨.shfRingCtl, 0, n, 0⟩ 47 16 0).wrf ⟨.fabHoInboxCtl, 0, n, 0⟩ 63 48 0).sliceMove who n 0 1).sense)) ∧
      (n ≠ 0 → s.sliceState n = 0 ∨ s.sliceState n = 4 ∨ 4 < s.sliceState n →
        exec (.teardown who sl) s = .next (s.sliceError who n).sense) ∧
      (n ≠ 0 → s.sliceState n = 1 ∨ s.sliceState n = 2 ∨ s.sliceState n = 3 →
        let t := (s.wrf r 2 0 4).abortSlice n
        exec (.teardown who sl) s = .next { t with sheaf := t.sheaf.map (fun (p : Nat × SheafEntry) =>
          (p.1, if p.2.slice = n && p.2.inStep then { p.2 with teardownRecorded := true } else p.2)) }.sense))) ∧
  (∀ (sl : SliceId) (s : State),
    let n := sl.val
    (s.sliceState n ≠ 4 ∨ s.sliceRuns n = true → exec (.teardownComplete sl) s = .next s.sense) ∧
    (s.sliceState n = 4 → s.sliceRuns n = false → exec (.teardownComplete sl) s = .next
      (((((((((s.clearEntries n).clearWork n).clearTables n).clearFrames n).clearBooks n).clearAdapters n).finalSnapshot n).wrf
        (slcCtl n) 2 0 0)).sense)) ∧
  (∀ s : State,
    let n := s.time / 1000000000
    let t := { s with hmpSent := [], snapped := some n }.bump ⟨.slcMtrSeq, 0, 0, 0⟩
    (10 ≤ s.time % 1000000000 ∨ s.snapped = some n → exec .meterSnapshot s = .next s.sense) ∧
    (s.time % 1000000000 < 10 → s.snapped ≠ some n → exec .meterSnapshot s = .next
      ((List.range 64).foldl (fun (u : State) sl => u.snapshot sl (t.rdf ⟨.slcMtrSeq, 0, 0, 0⟩ 31 0) false) t).sense))

/-- R136, R137, R401, R402, R408 to R411, R469, R516: Reeves and the views of units. A command waits behind those of its Reeve;
in Fallow mode a core's is answered so. A domain that has turned on brings its unit up fenced; a self-test ends with its result,
and a failed one is reported, as is a unit failed until the next cold boot; the comparison runs over every unit once a
millisecond outside minimal-power mode; a failed unit that still serves 20 µs after its FENCE loses its domain. What it takes
from log entries 28, 32 is the model's choice. -/
def Obligations.ReevesAndViews : Prop :=
  (∀ (f : FieldId) (u : UnitId) (s : State),
    ∀ p ∈ ([(1, fun w => .reeveStatus w f u), (2, fun w => .reevePowerOn w f u), (3, fun w => .reevePowerOff w f u),
        (4, fun w => .reeveFence w f u), (5, fun w => .reeveUnfence w f u), (6, fun w => .reeveSelftest w f u)] : List (Nat × (Who → Instr))),
      let q := Table.get [] s.reeves f.val
      let view : Option MgmtView := match p.1 with
        | 2 => some .fenced
        | 3 => some .off
        | 4 => some .fenced
        | 5 => some .inService
        | _ => none
      let sent (c : ReeveCmd) : State :=
        let t : State := { s with reeves := Table.set s.reeves f.val (q ++ [c]) }
        if q.isEmpty then t.reeveWork f.val 1 else t
      (∀ sl, exec (p.2 (.bound sl)) s = .next s.sense) ∧
      (s.fallow = true → exec (p.2 .supervisor) s =
        .next ((s.wrf ⟨.fldReeveRsp, f.val, 0, 0⟩ 7 0 0xB1).wrf ⟨.fldReeveRsp, f.val, 0, 0⟩ 8 8 1).sense) ∧
      (s.fallow = false → exec (p.2 .supervisor) s = .next (sent { code := p.1, unit := u, core := true }).sense) ∧
      exec (p.2 .hmp) s = .next (sent { code := p.1, unit := u, view }).sense) ∧
  (∀ (d : DomainId) (s : State),
    (s.turningOn.contains d.val = false → exec (.domainOnComplete d) s = .next s.sense) ∧
    (s.turningOn.contains d.val = true →
      let u := domainUnit d.val
      let o := { s with turningOn := s.turningOn.filter (fun (x : Nat) => x != d.val), domains := s.domains ++ [d.val] }
      let a := o.modUnit u
        (fun x => { x with fenced := true, failed := o.failedForGood u })
      let b := match u with | .core c => a.wrf ⟨.slcCore, 0, c.val, 0⟩ 7 7 1 | _ => a
      exec (.domainOnComplete d) s = .next ((((b.powerMessage u 1).startDomains 8).reeveDone 2 u 0).reconStep u).sense)) ∧
  (∀ (u : UnitId) (pass : Bool) (s : State),
    ((s.unit u).testing = false → exec (.selftestComplete u pass) s = .next s.sense) ∧
    ((s.unit u).testing = true →
      let pass' := pass && !s.failedForGood u
      let t := s.modUnit u (fun x => { x with testing := false, failed := !pass' })
      let v := if pass' then t else t.post ((unitFields u).headD 0) (2 + unitCode u * 2 ^ 8 + 2 * 2 ^ 24)
      exec (.selftestComplete u pass) s =
        .next (if (v.unit u).recon = 3 then v.reconEnd u pass' else v.reeveDone 6 u (if pass' then 0 else 7)).sense)) ∧
  (∀ s : State,
    let n := s.time / 1000000
    let t : State := { s with paced := Table.set s.paced 0 n }
    (Table.find s.paced 0 = some n → exec .viewCompare s = .next s.sense) ∧
    (Table.find s.paced 0 ≠ some n →
      (s.powered = true → s.minimal = false →
        exec .viewCompare s = .next (allUnits.foldl (fun (t : State) u => t.compareUnit u) t).sense) ∧
      (s.powered = false ∨ s.minimal = true → exec .viewCompare s = .next t.sense))) ∧
  (∀ (u : UnitId) (t : Nat) (s : State), (s.unit u).failFence = some t →
    let v := s.modUnit u (fun x => { x with failFence := none })
    exec (.failPowerCheck u) s =
      .next (if s.time < t + 20000 then s else if v.pathView u = .serving then
        (match u with | .furrow n => v.dropOps n | _ => v).switchOff u else v).sense)

/-- R412 to R415: heartbeats and Fallow mode. Once software has started, half a period without a heartbeat interrupts (source
139) and a whole one enters Fallow mode; so do a command, and machine checks of every active core. Entry latches every queue's
tail and records its cause; the supervisor's EXIT after a heartbeat leaves it. A core's machine check is recorded and reported.
What it takes from log entry 30 is the model's choice. -/
def Obligations.FallowMode : Prop :=
  (∀ s : State,
    let started := s.hartFrom.isSome
    exec .heartbeatHalfLapse s = .next (if started && s.beatAt + s.heartbeatPeriod / 2 ≤ s.time then s.assertIrq 139 else s).sense ∧
    exec .heartbeatExpiry s =
      .next (if started && s.beatAt + s.heartbeatPeriod ≤ s.time then s.enterFallow .heartbeat else s).sense ∧
    exec (.fallowEnter .heartbeat) s = exec .heartbeatExpiry s ∧
    exec (.fallowEnter .machineChecks) s = .next (if s.coresStopped then s.enterFallow .machineChecks else s).sense ∧
    (s.fallow = true → exec (.fallowEnter .command) s = .next s.sense) ∧
    (s.fallow = false →
      let tails := (List.range 256).foldl (fun t i => Table.set t i (s.rdf (cq .frwCqTail (i / 4) (i % 4)) 11 0)) []
      exec (.fallowEnter .command) s = .next (({ s with fallowTails := tails, beatSince := false }.wrf ⟨.chpFallow, 0, 0, 0⟩ 0 0 1).record
        0x12 2 0xFFFF [3]).sense)) ∧
  (∀ (who : Who) (s : State),
    (who = .supervisor → s.fallow = true → s.beatSince = true → exec (.fallowExit who) s =
      .next (({ s with fallowTails := [] }.wrf ⟨.chpFallow, 0, 0, 0⟩ 0 0 0).record 0x12 0 0xFFFF [0]).sense) ∧
    (who ≠ .supervisor ∨ s.fallow = false ∨ s.beatSince = false → exec (.fallowExit who) s = .next s.sense)) ∧
  (∀ (c : CoreId) (cause : Word) (s : State),
    let u : UnitId := .core c
    (s.domainOn (96 + c.val) = false → exec (.coreMachineCheck c cause) s = .next s.sense) ∧
    (s.domainOn (96 + c.val) = true →
      let t := ((s.modUnit u (fun x => { x with failed := true })).record 0x05 2 (unitCode u) (toBytes 8 cause.toNat)).post
        ((unitFields u).headD 0) (2 + unitCode u * 2 ^ 8 + 2 ^ 24)
      exec (.coreMachineCheck c cause) s = .next (if t.coresStopped then t.enterFallow .machineChecks else t).sense))

/-- R350, R397, R403, R406, R407, R408 to R411, R416, R422, R452, R464, R475, R482, R490: the HMP commands that read and set.
Without the session nothing happens; one that Headland does not serve now, or a session's seventeenth outstanding, is BUSY; a
body of another length is BAD_LENGTH; else each is answered, with the SEQ it came with, with what it names, and has its effect.
What it takes from log entry 35 is the model's choice. -/
def Obligations.HmpCommands : Prop :=
  ∀ (c : Sender) (body : List Byte) (s : State),
    let t : State := { s with hmpSent := [] }
    let gives (i : Instr) (type code : Nat) (out : List Byte) (u : State) : Prop :=
      exec i s = .next (u.hmpReply c type code out).sense
    let taken (type : Nat) : Prop := (s.session? c.val).isSome = true ∧ t.takes c.val type = true
    let rows : List (Nat × Nat × Instr) := [(0x01, 0, .hello c body), (0x02, 12, .csrRead c body), (0x03, 24, .csrWrite c body),
      (0x04, 16, .almanacRead c body), (0x06, 4, .unitStatus c body), (0x07, 8, .unitSet c body), (0x09, 12, .meterRead c body),
      (0x0A, 12, .journalRead c body), (0x0E, 4, .sessionCfg c body), (0x1F, 0, .challenge c body)]
    (∀ r ∈ (0x0B, 0, .powerCap c body) :: rows, s.session? c.val = none → exec r.2.2 s = .next s.sense) ∧
    (∀ r ∈ (0x0B, 0, .powerCap c body) :: rows, (s.session? c.val).isSome = true → t.takes c.val r.1 = false →
      gives r.2.2 r.1 5 [] t) ∧
    (∀ r ∈ rows, taken r.1 → body.length ≠ r.2.1 → gives r.2.2 r.1 2 [] t) ∧
    (taken 0x01 → body.length = 0 → gives (.hello c body) 0x01 0 (toBytes 8 (s.rd ⟨.chpId, 0, 0, 0⟩).toNat ++
      toBytes 8 (s.rd ⟨.chpSerial, 0, 0, 0⟩).toNat ++ toBytes 8 s.node ++ toBytes 8 s.almanac.boots ++
      bankTypes.flatMap (fun k => toBytes 8 (Table.get 0 s.versions k)) ++ Config.identityKeys) t) ∧
    (taken 0x02 → body.length = 12 →
      let off := leAt body 0 8
      let n := leAt body 8 4
      let bad := off % 8 != 0 || n < 1 || 64 < n || 0x6000000 < off + 8 * n
      let r := (List.range n).foldl (fun (r : List Byte × State) i =>
        (r.1 ++ toBytes 8 (r.2.hmpRead (off + 8 * i)).1.toNat, (r.2.hmpRead (off + 8 * i)).2)) ([], t)
      (bad = true → gives (.csrRead c body) 0x02 3 [] t) ∧ (bad = false → gives (.csrRead c body) 0x02 0 r.1 r.2)) ∧
    (taken 0x03 → body.length = 24 →
      let off := leAt body 0 8
      let m := wordAt body 16
      let bad := off % 8 != 0 || 0x6000000 ≤ off
      (bad = true → gives (.csrWrite c body) 0x03 3 [] t) ∧
      (bad = false → Csr.ofOffset off = none → gives (.csrWrite c body) 0x03 0 [] (t.strayAccess off true)) ∧
      (∀ r, bad = false → Csr.ofOffset off = some r →
        gives (.csrWrite c body) 0x03 (if t.lockedReg r && (r.reg.spec.maskOf (fun a => a = Access.rwl) &&& m) != 0 then 4 else 0) []
          (registerWrite .hmp r (t.masked r (wordAt body 8) m) t))) ∧
    (taken 0x04 → body.length = 16 →
      let region := leAt body 0 4
      let n := leAt body 12 4
      let r := t.almFetch region (leAt body 4 8) n
      (7 < region ∨ n < 1 ∨ 256 < n → gives (.almanacRead c body) 0x04 3 [] t) ∧
      (region ≤ 7 → 1 ≤ n → n ≤ 256 → gives (.almanacRead c body) 0x04 0 r.1.flatten r.2)) ∧
    (taken 0x06 → body.length = 4 →
      (unitOfCode (leAt body 0 4) = none → gives (.unitStatus c body) 0x06 3 [] t) ∧
      (∀ u, unitOfCode (leAt body 0 4) = some u → gives (.unitStatus c body) 0x06 0
        (toBytes 4 (t.unit u).mgmt.code ++ toBytes 4 (t.pathView u).code ++ toBytes 4 (bitVal (t.agrees u) 0) ++
          (s.almanac.exclusions.filter (fun e => e.1 = u)).flatMap (fun e => toBytes 4 e.2)) t)) ∧
    (taken 0x0E → body.length = 4 → gives (.sessionCfg c body) 0x0E 0 [] (t.modSession c.val (fun x =>
      { x with reports := (leAt body 0 4).testBit 0, events := (leAt body 0 4).testBit 1 }))) ∧
    (taken 0x07 → body.length = 8 →
      let v := leAt body 4 4
      (unitOfCode (leAt body 0 4) = none → gives (.unitSet c body) 0x07 3 [] t) ∧
      (∀ u, unitOfCode (leAt body 0 4) = some u →
        (2 < v → gives (.unitSet c body) 0x07 3 [] t) ∧
        (v ≤ 2 → (t.unit u).recon ≠ 0 → gives (.unitSet c body) 0x07 5 [] t) ∧
        (v ≤ 2 → (t.unit u).recon = 0 → (t.unit u).mgmt = .failed → gives (.unitSet c body) 0x07 7 [] t) ∧
        (v ≤ 2 → (t.unit u).recon = 0 → (t.unit u).mgmt ≠ .failed → gives (.unitSet c body) 0x07 0 [] (t.setView u v)))) ∧
    (taken 0x09 → body.length = 12 →
      let sl := leAt body 0 4
      (64 ≤ sl → gives (.meterRead c body) 0x09 3 [] t) ∧
      (sl < 64 → gives (.meterRead c body) 0x09 0
        ((((Table.get [] s.snapshots sl).filter (fun x => leAt body 4 4 ≤ x.seq)).take (leAt body 8 4)).flatMap (meterReport sl)) t)) ∧
    (taken 0x0A → body.length = 12 →
      let sl := leAt body 0 4
      let found := t.jnlFind sl (fun r => r.phase != 0 && r.request == wordAt body 4)
      (64 ≤ sl → gives (.journalRead c body) 0x0A 3 [] t) ∧
      (sl < 64 → found = none → gives (.journalRead c body) 0x0A 8 [] t) ∧
      (∀ j, sl < 64 → found = some j → gives (.journalRead c body) 0x0A 0
        (toBytes 8 (t.gword (t.jnlAddr sl j + 8)).toNat ++ toBytes 8 (t.gword (t.jnlAddr sl j + 0x20)).toNat) t)) ∧
    (taken 0x1F → body.length = 0 → gives (.challenge c body) 0x1F 0 (toBytes 48 (Config.randomNonce s.drawn).toNat)
      ({ t with drawn := s.drawn + 1 }.modSession c.val (fun x => { x with challenge := some (Config.randomNonce s.drawn, s.time) }))) ∧
    (taken 0x0B →
      let w := leAt body 0 4
      let n := bits w 31 24
      let cap := bits w 15 0
      (body.length < 4 → gives (.powerCap c body) 0x0B 2 [] t) ∧
      (4 ≤ body.length → w.testBit 16 = true → gives (.powerCap c body) 0x0B 0 [] (t.minimalPower 9)) ∧
      (4 ≤ body.length → w.testBit 16 = false →
        (64 < n → gives (.powerCap c body) 0x0B 3 [] t) ∧
        (n ≤ 64 → body.length ≠ 4 + 4 * n → gives (.powerCap c body) 0x0B 2 [] t) ∧
        (n ≤ 64 → body.length = 4 + 4 * n → cap < 300 ∨ 820 < cap → gives (.powerCap c body) 0x0B 3 [] t) ∧
        (n ≤ 64 → body.length = 4 + 4 * n → 300 ≤ cap → cap ≤ 820 →
          gives (.powerCap c body) 0x0B 0 [] ((t.wrf ⟨.tltPkgCap, 0, 0, 0⟩ 15 0 cap).setSliceCaps body n))))

/-- R397, R403 to R407, R411, R412, R430, R432: sessions and the operations that take their turn. A handshake that offers the
mode, group and suite, this node's identity and the present key opens the first free place of four; a failed one is counted and
recorded at most once a minute. Each message carries the SEQ of the command it answers, and the session's tag. Closing a session
drops what waits for it. A message of a reserved TYPE or another VERSION is BAD_TYPE, one too long BAD_LENGTH. A PTP offset
steers system time while no port does. A FAILED unit is reconciled and answered later. Attestation and protected commands join
the queue of operations, a protected one with the challenge it consumes. What it takes from log entries 4, 31, 35 is the model's
choice. -/
def Obligations.HmpSessions : Prop :=
  (∀ (toPort : Nat) (h : Handshake) (s : State),
    let port := if fld (Table.get 0 s.mgmtNet 7) 15 0 = 0 then 7346 else fld (Table.get 0 s.mgmtNet 7) 15 0
    let good := h.pskDhe = true ∧ h.p384 = true ∧ h.aes256 = true ∧ h.beyond = false ∧ h.key = s.almanac.key ∧
      h.identity = toBytes 8 (s.rd ⟨.chpSerial, 0, 0, 0⟩).toNat ++ toBytes 2 s.node
    let place := firstBelow 4 (fun c => !Table.has s.sessions c)
    (s.headlandUp = false ∨ toPort ≠ port ∨ place = none → exec (.sessionOpen toPort h) s = .next s.sense) ∧
    (∀ c, s.headlandUp = true → toPort = port → place = some c →
      (good →
        let x : Session := { key := s.almanac.key, secret := Config.sessionSecret s.almanac.key s.drawn }
        exec (.sessionOpen toPort h) s = .next { s with drawn := s.drawn + 1, sessions := Table.set s.sessions c x }.sense) ∧
      (¬ good →
        let t : State := { s with handshakeFails := s.handshakeFails + 1 }
        (∀ a, s.handshakeRec = some a → s.time < a + 60000000000 → exec (.sessionOpen toPort h) s = .next t.sense) ∧
        ((∀ a, s.handshakeRec = some a → a + 60000000000 ≤ s.time) →
          exec (.sessionOpen toPort h) s = .next ({ t with handshakeRec := some s.time }.record 0x0E 1 0xFFFF
            (toBytes 1 1 ++ toBytes 7 t.handshakeFails)).sense)))) ∧
  (∀ (c : Sender) (type code : Nat) (out : List Byte) (s : State) (x : Session), s.session? c.val = some x →
    (s.hmpReply c type code out).hmpSent = s.hmpSent ++
      [⟨c.val, type, code, c.seq, out, Config.sessionTag x.secret x.carried (hmpBytes type code c.seq out)⟩] ∧
    (s.hmpReply c type code out).session? c.val = some { x with carried := x.carried + 1 }) ∧
  (∀ (c : SessionId) (s : State),
    let q := s.secQueue.filter (fun (o : SecOp) => !o.ofSession c.val)
    let t : State := { s with sessions := Table.erase s.sessions c.val, secQueue := q, units := s.units.map (fun (p : UnitId × UnitState) =>
      (p.1, if p.2.reconFor.any (fun (x : Sender) => x.val = c.val) then { p.2 with reconFor := none } else p.2)) }
    exec (.sessionClose c) s = .next (t.secDrain q.length).sense) ∧
  (∀ (c : Sender) (type version length : Nat) (s : State),
    let replies (code : Nat) : Prop := exec (.hmpBadMessage c type version length) s =
      .next ({ s with hmpSent := [] }.hmpReply c type code []).sense
    let most := if type = 0x11 then 1048640 else 65536
    (s.session? c.val = none ∨ (hmpType type = true ∧ version = 1 ∧ length ≤ most) →
      exec (.hmpBadMessage c type version length) s = .next s.sense) ∧
    ((s.session? c.val).isSome = true →
      (hmpType type = false ∨ version ≠ 1 → replies 1) ∧ (hmpType type = true → version = 1 → most < length → replies 2))) ∧
  (∀ s : State, exec (.ptpMessage none) s = .next s.sense) ∧
  (∀ (d : Int) (s : State), exec (.ptpMessage (some d)) s = .next
    (if s.headlandUp ∧ (List.range 24).all (fun p => !s.rdb ⟨.prtTime, p, 0, 0⟩ 1) = true then s.steer d else s).sense) ∧
  (∀ (c : Sender) (body : List Byte) (s : State), (s.session? c.val).isSome = true →
    let t : State := { s with hmpSent := [] }
    let answered (code : Nat) : Prop := exec (.unitReconcile c body) s = .next (t.hmpReply c 0x08 code []).sense
    (t.takes c.val 0x08 = false → answered 5) ∧
    (t.takes c.val 0x08 = true →
      (body.length ≠ 4 → answered 2) ∧
      (body.length = 4 → unitOfCode (leAt body 0 4) = none → answered 3) ∧
      (∀ u, body.length = 4 → unitOfCode (leAt body 0 4) = some u →
        ((s.unit u).recon ≠ 0 → answered 5) ∧
        ((s.unit u).recon = 0 → (s.unit u).mgmt ≠ .failed → answered 3) ∧
        ((s.unit u).recon = 0 → (s.unit u).mgmt = .failed →
          exec (.unitReconcile c body) s = .next (t.reconcile u (some c)).sense)))) ∧
  (∀ (c : Sender) (body : List Byte) (s : State), (s.session? c.val).isSome = true →
    let t : State := { s with hmpSent := [] }
    (t.takes c.val 0x10 = false → exec (.attest c body) s = .next (t.hmpReply c 0x10 5 []).sense) ∧
    (t.takes c.val 0x10 = true → body.length ≠ 48 → exec (.attest c body) s = .next (t.hmpReply c 0x10 2 []).sense) ∧
    (t.takes c.val 0x10 = true → body.length = 48 → exec (.attest c body) s = .next (t.secSubmit (.report (some c) 0 body)).sense) ∧
    (∀ p ∈ [(0x11, Instr.imagePut c body), (0x12, .imageActivate c body), (0x13, .rollbackCommit c body), (0x14, .ownerKeySet c body),
        (0x15, .mgmtKeySet c body), (0x16, .zeroise c body)],
      let fits := body.length ≤ (if p.1 = 0x11 then 1048640 else 65536)
      (t.takes c.val p.1 = false → exec p.2 s = .next (t.hmpReply c p.1 5 []).sense) ∧
      (t.takes c.val p.1 = true → ¬ fits → exec p.2 s = .next (t.hmpReply c p.1 2 []).sense) ∧
      (t.takes c.val p.1 = true → fits → exec p.2 s = .next
        ((t.modSession c.val (fun x => { x with challenge := none })).secSubmit (.hmp c p.1 body (s.liveChallenge c.val))).sense)))

/-- R424 to R432: security. A mailbox command of a supervisor core runs when those before it have, or sets OVERRUN while BUSY.
What a command of an idle mailbox does, with the code and DONE at its end. The lock deadline sets the CONFIG lock. An
attestation report commits the next leaf before it is signed; a bottom tree is generated ahead. A challenge lapses after 60 s.
What it takes from log entries 4, 31 is the model's choice. -/
def Obligations.Security : Prop :=
  (∀ (who : Who) (s : State),
    let st : Csr := ⟨.secMboxStatus, 0, 0, 0⟩
    let arg := s.rd ⟨.secMboxArg, 0, 0, 0⟩
    let rows : List (Nat × Instr) := [(1, .verifyOs who), (2, .sowerLoad who), (3, .lockConfig who), (5, .measure who)]
    let t : State := { s.wrf st 8 8 1 with hmpSent := [] }
    (∀ r ∈ (4, .quote who) :: rows,
      (who ≠ .supervisor → exec r.2 s = .next s.sense) ∧
      (who = .supervisor → s.rdb st 8 = true → exec r.2 s = .next (s.wrf st 10 10 1).sense)) ∧
    (who = .supervisor → s.rdb st 8 = false →
      exec (.quote who) s = .next (t.secSubmit (.report none (arg.toNat + 48) (t.mem.readBytes arg.toNat 48))).sense ∧
      (∀ r ∈ rows, exec r.2 s = .next (t.secSubmit (.mbox r.1 arg)).sense) ∧
      (s.secQueue = [] → ∀ r ∈ rows,
        let v : State := { t with secQueue := [] }
        let u := match r.1 with
          | 1 => v.doVerifyOs arg.toNat
          | 2 => v.doSowerLoad arg.toNat
          | 3 => if v.locked then (0, v) else (0, v.setConfigLock)
          | _ => (0, v.extend 7 (BitVec.ofNat 384 (leAt (v.mem.readBytes arg.toNat 48) 0 48)))
        exec r.2 s = .next (u.2.wrf st 9 0 (u.1 % 256 + 2 ^ 9)).sense))) ∧
  (∀ (s : State) (a : Nat), s.hartFrom = some a →
    let due := a + s.rdf ⟨.secLockCtl, 0, 0, 0⟩ 15 0 * 1000000
    (s.locked = true ∨ s.time < due → exec .lockDeadlineExpiry s = .next s.sense) ∧
    (s.locked = false → due ≤ s.time → exec .lockDeadlineExpiry s = .next (s.setConfigLock.record 0x0E 1 0xFFFF [2]).sense)) ∧
  (∀ (s : State) (x : Option Sender) (addr : Nat) (nonce : List Byte) (q : List SecOp), s.secQueue = .report x addr nonce :: q →
    let l := s.almanac.leaf
    let t : State := { s with hmpSent := [] }
    let u : State := { t with secQueue := q }
    let failed := t.rdb ⟨.secStatus, 0, 0, 0⟩ 0
    (failed = true → exec .attestationReport s = .next ((u.reportTo x addr 0xC7 []).secDrain q.length).sense) ∧
    (failed = false → 1048576 ≤ l → exec .attestationReport s = .next ((u.reportTo x addr 0xC6 []).secDrain q.length).sense) ∧
    (failed = false → l < 1048576 → s.trees ≤ l / 1024 → exec .attestationReport s = .next t.sense) ∧
    (failed = false → l < 1048576 → l / 1024 < s.trees →
      let v := u.stateUpdate (fun a => { a with leaf := l + 1 })
      let body := v.reportBody x.isNone nonce l
      exec .attestationReport s =
        .next ((v.reportTo x addr 0 (body ++ Config.ecdsaSign (identityScalar v.almanac.boots) body ++ Config.hssSign (identityHss v.almanac.boots) l body)).secDrain q.length).sense)) ∧
  (∀ s : State, (∀ x addr nonce q, s.secQueue ≠ .report x addr nonce :: q) → exec .attestationReport s = .next s.sense) ∧
  (∀ s : State, s.hartFrom = none → exec .lockDeadlineExpiry s = .next s.sense) ∧
  (∀ s : State,
    let l := s.almanac.leaf
    exec .hssTreeGenerate s = .next (if s.trees < 1024 && (s.trees ≤ l / 1024 || (s.trees = l / 1024 + 1 && 512 ≤ l % 1024)) then
      { s with trees := s.trees + 1 } else s).sense) ∧
  (∀ (c : SessionId) (s : State) (x : Session) (n : BitVec 384) (a : Nat), s.session? c.val = some x → x.challenge = some (n, a) →
    exec (.challengeLapse c) s = .next (if a + 60000000000 ≤ s.time then s.modSession c.val (fun x => { x with challenge := none })
      else s).sense)

/-- R221, R438 to R442, R455: scrubs, refresh and repair of memory. The patrol visits the next line of a channel: a corrected
line is counted, an uncorrectable one takes the poison codeword and leaves an ECC_UE record, and a pass over every line ends
with a SCRUB record. An SRAM or cache line is repaired, poisoned or lost by what it holds. A refresh ends the rows refreshed
ahead; a row over its threshold has its two neighbours on each side refreshed. A row that is due takes one of 32 spares of its
bank; a channel with a failing pin one of 16 spares of its stack. What it takes from log entry 29 is the model's choice. -/
def Obligations.ScrubAndRepair : Prop :=
  (∀ (channel : Fin 1024) (errors : List (Fin 72 × BitVec 8)) (s : State),
    let ch := channel.val
    let i := Table.get 0 s.scrubbed ch
    let idle := !s.powered || s.minimal || decide (channelLines ≤ i)
    let a := channelLineAddr ch i
    let f := ch / 16
    let u : UnitId := .furrow (Fin.ofNat 64 f)
    let t : State := { s with scrubbed := Table.set s.scrubbed ch (i + 1) }
    let word := withErrors (s.lineWord a) errors
    let v : State := match (if word = poisonWord then some ([], []) else granaryCode.decode word) with
      | some (_, []) => t
      | some (x, places) =>
        let fixed := ({ t with scrubFixed := t.scrubFixed + 1 }.gwrite a (symbolLine (x.take 64)) false).rowCorrected ch (i / 64) places
        (((fixed.furrowCount .frwGrnCeCnt f).ceNote (64 + f)).eccEvent u (f / 16) (some ch)).2
      | none =>
        let lost := ({ t with scrubPoisoned := t.scrubPoisoned + 1 }.rowDue ch (i / 64)).granaryLost a
        let e := (lost.furrowCount .frwGrnUeCnt f).eccEvent u (f / 16) (some ch)
        e.2.ueRecord (unitCode u) 0 a e.1
    let done := (List.range 1024).all (fun c => decide (channelLines ≤ Table.get 0 v.scrubbed c))
    let w := v.count ⟨.chpRasScrubStatus, 0, 0, 0⟩ 31 0 1
    let r := w.record 0x13 0 0xFFFF
      (toBytes 8 (w.rdf ⟨.chpRasScrubStatus, 0, 0, 0⟩ 31 0) ++ toBytes 8 w.scrubFixed ++ toBytes 8 w.scrubPoisoned)
    (idle = true → exec (.patrolScrub channel errors) s = .next s.sense) ∧
    (idle = false → done = false → exec (.patrolScrub channel errors) s = .next v.sense) ∧
    (idle = false → done = true →
      exec (.patrolScrub channel errors) s = .next { r with scrubbed := [], scrubFixed := 0, scrubPoisoned := 0 }.sense)) ∧
  (∀ (a : SramLine) (outcome : EccOutcome) (s : State),
    let dom : Option Nat := match a with
      | .hull f _ | .glean f _ | .instruction f _ | .registers f => some f.val
      | .operand k _ => some (64 + k.val)
      | .coreCache c _ => some (96 + c.val)
      | .sheaf _ _ | .sharedCache _ => none
    let on := match dom with
      | some d => s.domainOn d
      | none => s.powered && !s.minimal
    (on = false ∨ outcome = .clean → exec (.sramScrub a outcome) s = .next s.sense) ∧
    (on = true → outcome = .corrected → exec (.sramScrub a outcome) s = .next (match a with
      | .hull f _ | .glean f _ | .instruction f _ | .registers f => (s.sramFixed (.furrow f) (f.val / 16)).sense
      | .operand k _ => (s.sramFixed (.thresher k) (k.val / 2)).sense
      | .sheaf e _ => (s.ceNote (1024 + e.val / 8192)).sense
      | .coreCache c _ => (s.ceNote (128 + unitCode (.core c))).sense
      | .sharedCache _ => (s.ceNote 1028).sense)) ∧
    (on = true → outcome = .uncorrectable → exec (.sramScrub a outcome) s = .next (match a with
      | .hull f l =>
        ((s.modHull f.val (fun m => if l < 49152 then m.markLines l 1 true else m)).sramLost (.furrow f) (f.val / 16) 1 (64 * l)).sense
      | .operand k l =>
        ((s.modArray k.val (fun x => if l < 131072 then { x with sram := x.sram.markLines l 1 true } else x)).sramLost (.thresher k)
          (k.val / 2) 2 (64 * l)).sense
      | .glean f x =>
        ((s.modFurrow f.val (fun r => { r with glean := r.glean.map (fun l =>
          if l.addr = x / 64 * 64 then
            { l with data := s.mem.readBytes (x / 64 * 64) 64, poison := s.mem.marked (x / 64 * 64), time := s.time }
          else l) })).sramFixed (.furrow f) (f.val / 16)).sense
      | .instruction f b => ((s.sramLost (.furrow f) (f.val / 16) 3 (64 * b.val)).machineCheck f.val b.val).sense
      | .registers f => ((s.sramLost (.furrow f) (f.val / 16) 4 0).machineCheck f.val 0).sense
      | .sheaf e w => (s.sheafLost e.val w.val).sense
      | .coreCache c l =>
        let dirty := (Table.get [] s.l2 c.val).any (fun x => x.line = l && x.dirty)
        let t := s.cacheLost (unitCode (.core c)) l dirty
        (if dirty then t.coreFault c.val false (64 * l) else t).sense
      | .sharedCache l => (s.cacheLost 0xFFFF l (s.l3.any (fun x => x.line = l && x.dirty))).sense))) ∧
  (∀ (channel : Fin 1024) (rank : Fin 4) (bank row : Nat) (s : State),
    let key := bankKey channel.val rank.val bank
    let spared := Table.get 0 s.spareRows key
    let near (rows : List Nat) : State :=
      { s with ahead := Table.set s.ahead key ((Table.get [] s.ahead key).filter (fun r => !rows.contains r) ++ rows) }
    exec (.granaryRefresh channel rank bank) s =
      .next { s with refreshed := Table.set s.refreshed key s.time, ahead := Table.erase s.ahead key }.sense ∧
    (2 ≤ row → exec (.rowActivationThreshold channel rank bank row) s = .next (near [row - 2, row - 1, row + 1, row + 2]).sense) ∧
    (row = 1 → exec (.rowActivationThreshold channel rank bank row) s = .next (near [0, 2, 3]).sense) ∧
    (row = 0 → exec (.rowActivationThreshold channel rank bank row) s = .next (near [1, 2]).sense) ∧
    let due := s.rowsDue.contains (channel.val, row) = true ∧ rank.val = row / 24576 ∧ bank = Config.lineBank (64 * row)
    (¬ due ∨ 32 ≤ spared → exec (.rowSpare channel rank bank row) s = .next s.sense) ∧
    (due → spared < 32 → exec (.rowSpare channel rank bank row) s =
      .next ({ s with
        spareRows := Table.set s.spareRows key (spared + 1)
        rowsDue := s.rowsDue.filter (· != (channel.val, row))
        rowErrors := s.rowErrors.filter (fun e => !(e.channel = channel.val && e.row = row)) }.record 0x09 1 0xFFFF (toBytes 1 1 ++
        toBytes 2 channel.val ++ toBytes 1 rank.val ++ toBytes 4 bank ++ toBytes 8 row ++ toBytes 4 spared)).sense)) ∧
  (∀ (channel : Fin 1024) (s : State),
    let ch := channel.val
    let used := Table.get 0 s.spareChannels (ch / 256)
    (s.failingPin ch = false ∨ 16 ≤ used ∨ s.migrating.contains ch = true → exec (.channelMigration channel) s = .next s.sense) ∧
    (s.failingPin ch = true → used < 16 → s.migrating.contains ch = false → exec (.channelMigration channel) s = .next { s with
      migrating := s.migrating ++ [ch]
      spareChannels := Table.set s.spareChannels (ch / 256) (used + 1) }.sense) ∧
    (s.migrating.contains ch = false → exec (.channelMigrationSwitch channel) s = .next s.sense) ∧
    (s.migrating.contains ch = true → exec (.channelMigrationSwitch channel) s =
      .next ({ s with migrating := s.migrating.filter (· != ch) }.record 0x09 1 0xFFFF
        (toBytes 1 2 ++ toBytes 2 ch ++ toBytes 2 (used - 1))).sense))

/-- R433, R450, R451, R454, R456 to R462: samples, exclusions and records, each sample and summary once in its period of system
time. A sample of a Field fences what lies inside an excluded bin; 100 ms outside, a unit returns. A commit takes the
LOST_RECORDS record after any drop, else the head of the queue: it is written with the next SEQ, source 138 is raised, and EVENT
goes to the sessions that ask. Power loss keeps the Almanac alone. What it takes from log entries 29, 32, 35 is the model's
choice. -/
def Obligations.BinsAndRecords : Prop :=
  (∀ (f : FieldId) (celsius : Int) (millivolt : Nat) (s : State),
    let p := (min 39 ((celsius + 40) / 5).toNat, min 100 (((millivolt : Int) - 500) / 5).toNat)
    let n := s.time / 1000000
    let t : State := { s with paced := Table.set s.paced (320 + f.val) n, binSample := Table.set s.binSample f.val p }
    let inside (u : UnitId) : Bool :=
      (match u with | .core _ => false | _ => true) && (unitFields u).contains f.val && t.insideBin f.val u
    (Table.find s.paced (320 + f.val) = some n → exec (.binSample f celsius millivolt) s = .next s.sense) ∧
    (Table.find s.paced (320 + f.val) ≠ some n →
      exec (.binSample f celsius millivolt) s = .next ((allUnits.filter inside).foldl (fun v u => v.enterBin u) t).sense)) ∧
  (∀ (u : UnitId) (s : State),
    ((s.unit u).inBin = none → exec (.exclusionRelease u) s = .next s.sense) ∧
    (∀ a, (s.unit u).inBin = some a →
      let t := s.modUnit u (fun x => { x with inBin := none, mgmt := .inService, lastCmd := some s.time })
      (s.time < a + 100000000 ∨ (s.unit u).mgmt ≠ .fenced → exec (.exclusionRelease u) s = .next s.sense) ∧
      (a + 100000000 ≤ s.time → (s.unit u).mgmt = .fenced →
        exec (.exclusionRelease u) s = .next ((if t.domainOn (unitDomain u) then t.unfenceUnit u else t).fenceRecord u 2).sense))) ∧
  (∀ (p : PortId) (feed heater errors : List Nat) (s : State),
    let row (k : Nat) : List Byte := toBytes 2 (feed.getD k 0) ++ toBytes 2 (heater.getD k 0) ++ toBytes 4 (errors.getD k 0)
    let n := s.time / (s.rdf ⟨.chpRasBin, 0, 0, 0⟩ 39 32 * 3600000000000)
    let z : State := { s with paced := Table.set s.paced (448 + p.val) n }
    let due := Table.find s.paced (448 + p.val) ≠ some n
    let t := z.record 0x0B 0 (0x200 + p.val) ((List.range 9).flatMap row)
    let v := (List.range 9).foldl (fun (u : State) (k : Nat) =>
      if Table.has u.trendFeed (9 * p.val + k) then u
      else { u with trendFeed := Table.set u.trendFeed (9 * p.val + k) (feed.getD k 0) }) t
    let drifted (k : Nat) : Bool := decide (90 < heater.getD k 0) ||
      (match Table.find t.trendFeed (9 * p.val + k) with
       | none => false
       | some w => decide (100 * feed.getD k 0 < 80 * w))
    let warn := (List.range 9).filter drifted
    (¬ due → exec (.trendRecord p feed heater errors) s = .next s.sense) ∧
    (due → s.domainOn (72 + p.val) = false → exec (.trendRecord p feed heater errors) s = .next z.sense) ∧
    (due → s.domainOn (72 + p.val) = true → warn = [] → exec (.trendRecord p feed heater errors) s = .next v.sense) ∧
    (due → s.domainOn (72 + p.val) = true → warn ≠ [] →
      exec (.trendRecord p feed heater errors) s = .next (v.record 0x0A 1 (0x200 + p.val) (warn.flatMap (fun k => toBytes 1 k))).sense)) ∧
  (∀ s : State,
    let body := (s.corrected.flatMap (fun p => toBytes 2 p.1 ++ toBytes 4 p.2)).take 204
    let n := s.time / 3600000000000
    (Table.find s.paced 384 = some n → exec .eccCeSummary s = .next s.sense) ∧
    (Table.find s.paced 384 ≠ some n → exec .eccCeSummary s =
      .next { ({ s with paced := Table.set s.paced 384 n }.record 0x04 0 0xFFFF body) with corrected := [] }.sense)) ∧
  (∀ s : State,
    let committed (r : AlmRec) (u : State) : Prop :=
      let a := s.almanac.commit s.node r
      let t : State := { u with hmpSent := [], almanac := a }.assertIrq 138
      exec .almanacCommit s = .next ((s.sessions.filter (fun p => p.2.events)).foldl
        (fun (v : State) p => v.hmpTell p.1 0x81 (almRecord a.seq s.node a.boots r)) t).sense
    (s.almDrops = [] → s.almQueue = [] → exec .almanacCommit s = .next s.sense) ∧
    (∀ r q, s.almDrops = [] → s.almQueue = r :: q → committed r { s with almQueue := q }) ∧
    (s.almDrops ≠ [] → committed
      { type := 0x14, severity := 1, time := s.time, body := s.almDrops.flatMap (fun p => toBytes 4 p.1 ++ toBytes 4 p.2) }
      { s with almDrops := [] })) ∧
  (∀ s : State, exec .powerLoss s = .next { State.reset with
    pending := s.pending
    freeCount := s.freeCount
    nextId := s.nextId
    drawn := s.drawn
    almanac := s.almanac }.sense)

/-- R466, R467, R470 to R477, R481, R482, Table 18-4: power. Retries that all fail leave a record; a vital rail that has failed
for 100 ms, a fault of one, a step of power-up over its time and three samples at TJ_TRIP enter minimal-power mode. Estimates,
taken every 10 µs, keep the last ms and show in the registers. One evaluation runs the four limiters, then the clocks. VDD_CORE
falls once every Field has been slow for 10 ms. A droop counts. What it takes from log entry 32 is the model's choice. -/
def Obligations.PowerCommands : Prop :=
  (∀ (rail : Fin 8) (first : Bool) (retries : List Bool) (s : State),
    let ok := first || (retries.take 3).any id
    let since := (Table.find s.railBad rail.val).getD s.time
    let failed : State := (s.bump ⟨.tltPmbErrCnt, 0, 0, 0⟩).powerRecord 8 rail.val 0xFF 0
    let t : State := { failed with railBad := Table.set s.railBad rail.val since }
    let vital : Bool := rail.val = 0 || rail.val = 2 || rail.val = 3
    (ok = true → exec (.pmbusTransaction rail first retries) s = .next { s with railBad := Table.erase s.railBad rail.val }.sense) ∧
    (ok = false → vital = false ∨ s.time < since + 100000000 → exec (.pmbusTransaction rail first retries) s = .next t.sense) ∧
    (ok = false → vital = true → since + 100000000 ≤ s.time → exec (.pmbusTransaction rail first retries) s = .next (t.minimalPower 8).sense)) ∧
  (∀ (rail : Fin 8) (status : Word) (s : State),
    let vital : Bool := rail.val = 0 || rail.val = 2 || rail.val = 3
    let t := s.powerRecord 7 rail.val 0xFF (fld status 15 0)
    (fld status 15 0 = 0 → exec (.smbalert rail status) s = .next s.sense) ∧
    (fld status 15 0 ≠ 0 → exec (.smbalert rail status) s = .next (if vital then t.minimalPower 7 else t).sense)) ∧
  (∀ (domains slices : List Nat) (s : State),
    let ds := (List.range 120).map (fun d => domains.getD d 0 * s.calibration / 1000)
    let ss := (List.range 64).map (fun i => slices.getD i 0 * s.calibration / 1000)
    let n := s.time / 10000
    let t : State := { s with paced := Table.set s.paced 128 n, estimates := ((ds, ss) :: s.estimates).take 100 }
    let shown := BitVec.ofNat 64 (min 65535 ((ds.take 119).sum / 1000) + min 65535 (ds.getD 119 0 / 1000) * 2 ^ 16)
    (Table.find s.paced 128 = some n → exec (.tilthEstimate domains slices) s = .next s.sense) ∧
    (Table.find s.paced 128 ≠ some n → exec (.tilthEstimate domains slices) s = .next (ss.zipIdx.foldl
      (fun u p => u.wr ⟨.tltSliceEst, 0, p.2, 0⟩ (BitVec.ofNat 64 (min 65535 (p.1 / 1000)))) (t.wr ⟨.tltEst, 0, 0, 0⟩ shown)).sense)) ∧
  (∀ (milliamp : List Nat) (s : State),
    let real := ((List.range 7).map (fun r => milliamp.getD r 0 * s.railMillivolt r / 1000)).sum
    let n := s.time / 10000000
    let t : State := { s with paced := Table.set s.paced 192 n }
    let due := Table.find s.paced 192 ≠ some n
    (¬ due → exec (.tilthCalibrate milliamp) s = .next s.sense) ∧
    (due → s.packageNow = 0 ∨ real = 0 → exec (.tilthCalibrate milliamp) s = .next t.sense) ∧
    (due → s.packageNow ≠ 0 → real ≠ 0 → exec (.tilthCalibrate milliamp) s =
      .next { t with calibration := max 1 (s.calibration * real / s.packageNow) }.sense)) ∧
  (∀ s : State,
    let n := s.time / 100000
    (Table.find s.paced 64 = some n → exec .tilthEvaluate s = .next s.sense) ∧
    (Table.find s.paced 64 ≠ some n → exec .tilthEvaluate s = .next
      { s with paced := Table.set s.paced 64 n }.limitDomains.limitSlices.limitPackage.setClocks.showLimits.sense)) ∧
  (∀ s : State,
    let r : Csr := ⟨.clkVcore, 0, 0, 0⟩
    let back := !s.rdb r 1 || (List.range 4).any (fun f => s.aclkWanted f = 0)
    (s.rdb r 0 = true → back = true → exec .vcoreSettingChange s = .next ((s.wrf r 0 0 0).powerRecord 4 0 0xFF 750).setClocks.sense) ∧
    (s.rdb r 0 = true → back = false → exec .vcoreSettingChange s = .next s.sense) ∧
    (s.rdb r 0 = false → s.slowSince = none → exec .vcoreSettingChange s = .next s.sense) ∧
    (∀ a, s.rdb r 0 = false → s.slowSince = some a →
      (s.rdb r 1 = false ∨ s.time < a + 10000000 → exec .vcoreSettingChange s = .next s.sense) ∧
      (s.rdb r 1 = true → a + 10000000 ≤ s.time →
        exec .vcoreSettingChange s = .next ((s.wrf r 0 0 1).powerRecord 4 0 0xFF 700).sense))) ∧
  (∀ (f : FieldId) (s : State), exec (.droopDetect f) s = .next (s.bump ⟨.tltDroopCnt, 0, f.val, 0⟩).sense) ∧
  (∀ (celsius : List Int) (s : State),
    let r : Csr := ⟨.tltTherm, 0, 0, 0⟩
    let n := s.time / 1000000
    let due := Table.find s.paced 256 ≠ some n
    let hot := celsius.foldl (fun (m x : Int) => max m x) 0
    let t := ((celsius.take 4).zipIdx.foldl (fun (u : State) (p : Int × Nat) => u.limitHeat p.2 p.1)
      ({ s with paced := Table.set s.paced 256 n }.wrf r 23 16 (min 255 hot.toNat))).setClocks.showLimits
    let v : State := { t with trips := t.trips + 1 }
    (¬ due → exec (.thermalSample celsius) s = .next s.sense) ∧
    (due → hot < (t.rdf r 15 8 : Int) → exec (.thermalSample celsius) s = .next { t with trips := 0 }.sense) ∧
    (due → (t.rdf r 15 8 : Int) ≤ hot → v.trips < 3 → exec (.thermalSample celsius) s = .next v.sense) ∧
    (due → (t.rdf r 15 8 : Int) ≤ hot → 3 ≤ v.trips →
      exec (.thermalSample celsius) s = .next ((v.powerRecord 6 3 0xFF hot.toNat).minimalPower 6).sense)) ∧
  (∀ (cause step : Nat) (s : State),
    (s.minimal = true → exec (.minimalPowerEntry cause) s = .next s.sense) ∧
    (s.minimal = false → exec (.minimalPowerEntry cause) s = .next (s.powerRecord 9 0 0xFF cause).railsOff.sense) ∧
    exec (.powerUpStepOverrun step) s = .next ((s.powerRecord 10 step 0xFF 0).minimalPower 10).sense)

/-- R399, R415, R416, R422, R423, R481, R483 to R485: resets. A cold reset keeps the Almanac alone, counts the boot and runs the
chain until an image is missing: then recovery. A device that runs takes a warm reset, which saves the stores where an area is
given and loses them else, and a cluster reset, which holds every core and runs the loader. What it takes from log entry 34 is
the model's choice. -/
def Obligations.ResetCommands : Prop :=
  (∀ (cause : Nat) (s : State),
    let t := s.unpowered.bootStage1.resetRecord 2 cause false
    let image (type : Nat) (u : State) : Option Image × State := u.bootImage type
    let first := image 1 t
    (first.1 = none → exec (.coldReset cause) s = .next { first.2 with recovery := true }.sense) ∧
    (∀ i, first.1 = some i →
      let u := ((first.2.boots 1 1 i).powerUp).selfTest (first.2.boots 1 1 i).almanac.boots
      let second := image 5 u
      (second.1 = none → exec (.coldReset cause) s = .next { second.2 with recovery := true }.sense) ∧
      (∀ j, second.1 = some j →
        let third := image 2 (second.2.boots 5 2 j).applyConfig
        (third.1 = none → exec (.coldReset cause) s = .next { third.2 with recovery := true }.sense) ∧
        (∀ k, third.1 = some k → exec (.coldReset cause) s = .next (third.2.boots 2 4 k).runLoader.sense)))) ∧
  (∀ (cause : Nat) (s : State),
    let up := s.powered && !s.minimal && !s.recovery
    (up = false → exec (.warmReset cause) s = .next s.sense ∧ exec (.clusterReset cause) s = .next s.sense) ∧
    (up = true →
      let settled (u : State) : State := (u.sheaf.map (·.1)).foldl (fun v i => v.warmEntry i) u
      let ended (saved : Bool) (u : State) : State :=
        let v := (u.wrf ⟨.clkRstStatus, 0, 0, 0⟩ 0 0 (bitVal saved 0)).count ⟨.clkRstStatus, 0, 0, 0⟩ 63 32 1
        let w : State := { v with resolving := v.openRecords }
        ((((w.wrf ⟨.clkRstStatus, 0, 0, 0⟩ 1 1 (bitVal (!w.resolving.isEmpty) 0)).resetRecord 1 cause saved).restartPorts).applyConfig).runLoader
      (s.saveArea = none → exec (.warmReset cause) s =
        .next (ended false (settled s.warmTables).warmUnits.resetCores.leaveFallow.loseStores).sense) ∧
      (∀ a, s.saveArea = some a → exec (.warmReset cause) s =
        .next (ended true (settled (s.saveStores a).warmTables).warmUnits.resetCores.leaveFallow).sense) ∧
      exec (.clusterReset cause) s = .next ((((List.finRange 18).foldl (fun (v : State) (c : CoreId) =>
        (v.wrf ⟨.slcCore, 0, c.val, 0⟩ 7 7 1).modUnit (.core c) (fun x =>
          { x with fenced := true, failed := x.failed && decide (x.mgmt = .failed) })) s).dropCluster.resetRecord 3 cause false).raiseHandovers).runLoader.sense))

/-- R99: predicates. Predicate 0 is always true, and a write of it is discarded, as a write of g0 is (R98). A slot of legal
encoding whose predicate is false has no effect, but that the counter it names, if any, falls by one (R102: no further than its
least value) with its status kept. This holds of every command of one slot. -/
def Obligations.PredicatedSlots : Prop :=
  ∀ (f : FurrowId) (o : Slot) (s : State),
    (s.furrow f.val).pr 0 = true ∧ (∀ b, s.setP f.val 0 b = s) ∧ (∀ v, s.setG f.val 0 v = s) ∧
    ∀ c op, Instr.asSlot c = some (op, f, o) → ∀ p, s.running f.val = some p → op.enc.fault o = none → (s.furrow f.val).pr o.pred.val = false →
      exec c s = .next (match o.ctr with
        | none => s
        | some n => s.setA f.val n.val ⟨max (((s.furrow f.val).ar n.val).val - 1) (-2147483648), ((s.furrow f.val).ar n.val).stat⟩).sense

/-- R97, R98, R107, R362 to R365, R368: how a slot comes to its instruction's effect, for every command of one slot: nothing
where no program runs (log entry 9); an illegal encoding raises its exception, whatever the predicate; a slot that must wait, or
whose class is full, or that names a register awaiting its result, waits from then on; else the first failing check of Table
14-5 raises its exception, or an uncorrectable error that its read finds in an unmarked line is recorded and raises
MACHINE_CHECK; else the instruction has its effect. Of another exception nothing else changes than the program's phase. What it
takes from log entries 9, 11 is the model's choice. -/
def Obligations.SlotOutcomes : Prop :=
  ∀ (f : FurrowId) (o : Slot) (s : State),
    let raises (c : Instr) (op : SlotOp) (p : Program) (code : Nat) (info : Word) : Prop :=
      exec c s = .next { s with furrows := Table.set s.furrows f.val { s.furrow f.val with
        prog := some { p with phase := .excepting ⟨code, slotOf op.enc.opc, p.pc, info⟩, stallSince := none } } }.sense
    ∀ c op, Instr.asSlot c = some (op, f, o) →
      (s.running f.val = none → exec c s = .next s.sense) ∧
      (∀ p, s.running f.val = some p →
        (∀ code, op.enc.fault o = some code → raises c op p code (op.enc.word o)) ∧
        (op.enc.fault o = none → (s.furrow f.val).pr o.pred.val = true →
          let x := s.ctx f o p
          let waits := op.stalls x s || (op.enc.gregs o).any (s.awaited f.val) || !op.room (s.furrow f.val)
          let fails := firstFailure (op.checks x s ++ op.upsets x s)
          (waits = true → exec c s = .next { s with furrows := Table.set s.furrows f.val { s.furrow f.val with
            prog := some { p with stallSince := p.stallSince.or (some s.time) } } }.sense) ∧
          (∀ e, waits = false → fails = some e →
            (e.1 ≠ 0x0B → raises c op p e.1 e.2) ∧
            (e.1 = 0x0B → exec c s = .next ((s.upsetFound f.val e.2.toNat).raise f.val 0x0B 0 e.2).sense)) ∧
          (waits = false → fails = none → exec c s = .next (op.run x (s.unstalled f)).sense)))

/-- R491: an access by a core that runs to an offset of the window that no register has. A read returns zero, a write is
ignored; CHP_CSR_ERR_CNT counts it and CHP_CSR_ERR records the offset. A bound core's access is decided before (R393): it raises
an access fault and changes nothing else. (A counter that is full: RegisterReads.) -/
def Obligations.ReservedOffsets : Prop :=
  ∀ (c : CoreId) (off : Nat) (data : Option Word) (s : State), s.coreRuns c = true → Csr.ofOffset off = none → off % 8 = 0 →
    off < 0x6000000 →
    let x : CoreAccess := ⟨c, 0xF000000000 + off, 8, data⟩
    let cnt : Csr := ⟨.chpCsrErrCnt, 0, 0, 0⟩
    let n := s.rdf cnt 31 0 + 1
    let t : State := { s with csrData := if data.isSome then s.csrData else [0] }
    let u := t.wr ⟨.chpCsrErr, 0, 0, 0⟩ (BitVec.ofNat 64 (off + bitVal data.isSome 27 + 2 ^ 28))
    ((s.coreSlice c).isSome = true → exec (.reservedOffsetAccess x.core x.addr ⟨x.size, x.data⟩) s =
      .next { s with coreTraps := Table.set s.coreTraps c.val ⟨data.isSome, x.addr⟩ }.sense) ∧
    (s.coreSlice c = none → n < 2 ^ 32 → exec (.reservedOffsetAccess x.core x.addr ⟨x.size, x.data⟩) s = .next (u.wrf cnt 31 0 n).sense)

/-- One step takes the command at the front of the queue: its effect is that of the command on the rest of the queue. What it
takes from log entry 1 is the model's choice. -/
def Obligations.StepRunsFront : Prop :=
  ∀ (c : Instr) (rest : List Instr) (s : State), s.pending = c :: rest → step s = exec c { s with pending := rest }

/-- R30, R32, Table 15-4: time. That an empty queue lets a nanosecond pass is the model's choice (log entry 1). Before the
power-up nothing happens; else system time advances by 1 ns, or stands while a correction backwards is due, and the meters of
slices and cores count each microsecond that system time passes, by a tick or by a correction forward. What it takes from log
entry 1 is the model's choice. -/
def Obligations.TimePasses : Prop :=
  ∀ s : State, s.pending = [] →
    let t := s.meterFurrows s.time
    (s.powered = false → step s = .next s.sense) ∧
    (s.powered = true → s.timeHold ≠ 0 →
      step s = .next { t with timeHold := s.timeHold - 1 }.sense) ∧
    (s.powered = true → s.timeHold = 0 → (s.time + 1) % 1000 ≠ 0 → step s = .next { t with time := s.time + 1 }.sense) ∧
    (s.powered = true → s.timeHold = 0 → (s.time + 1) % 1000 = 0 →
      step s = .next (({ t with time := s.time + 1 }.meterSlices 1).meterCores 1).sense) ∧
    (∀ later : Nat, s.time ≤ later →
      let us := later / 1000 - s.time / 1000
      s.passTo later = if us = 0 then { s with time := later } else ({ s with time := later }.meterSlices us).meterCores us)

/-- R480, R493: the block right after reset. That the supplies are off until COLD_RESET, and that memory nothing has written
reads zero, are the model's choices (log entries 1 and 7). Every register holds its Reset column's value; system time is 0; no
command, request, operation, record, message or interrupt is pending; memory is empty and in its canonical form; level-sensitive
sources follow their status; every general register of a Furrow reads 0 and every predicate but p0 is false. What it takes from
log entries 1, 7 is the model's choice. -/
def Obligations.ResetState : Prop :=
  let s := State.reset
  (∀ r : Csr, s.rd r = r.reg.spec.reset) ∧ s.time = 0 ∧ s.powered = false ∧ s.pending = [] ∧ s.irqs = [] ∧ s.almQueue = [] ∧
  s.fabOps = [] ∧ s.arrived = [] ∧ s.answers = [] ∧ s.secQueue = [] ∧ s.sessions = [] ∧
  s.mem.wf = true ∧ (∀ a, s.mem.read a = 0) ∧ s.LevelsOk ∧
  (∀ f n, (s.furrow f).prog = none ∧ (s.furrow f).gr n = 0 ∧ (s.furrow f).pr n = decide (n = 0)) ∧
  (∀ i, (s.entry i).state = .free)

/-- R400: every step keeps the level-sensitive interrupt sources at their status. In whatever state the block is, its next step
ends in a state in which each of them is asserted exactly while its status stands. What it takes from log entry 33 is the
model's choice. -/
def Obligations.LevelsStand : Prop :=
  ∀ s : State, s.LevelsOk → ∀ t, step s = .next t → t.LevelsOk

/-- R400: runs. From any state, with any commands pending, a run of any length goes on (no command faults or is refused), and
after its first step every level-sensitive source stands at its status. What it takes from log entries 1, 33 is the model's
choice. -/
def Obligations.EveryRunGoesOn : Prop :=
  ∀ (n : Nat) (s : State), ∃ t, Host.Core.run Sys2Proof.core n s = .next t ∧ (0 < n → t.LevelsOk) ∧ (s.LevelsOk → t.LevelsOk)
end

