-- ==== Sys2Proof/Laws/Bits.lean ====
section
/-! SUPPORT. What a table holds after a write; bytes of a little-endian number. -/

namespace Sys2Proof.Table

variable {α : Type} (d : α) (t : Table α)

@[simp] theorem get_nil (k : Nat) : get d [] k = d := rfl

@[simp] theorem get_set_self (k : Nat) (v : α) : get d (set t k v) k = v := by
  induction t with
  | nil => simp [set, get]
  | cons p t ih =>
    obtain ⟨j, u⟩ := p
    simp only [set]
    split
    · simp [get]
    · split
      · simp [get]
      · rename_i hj _; simp [get, hj, ih]

theorem get_set_ne {k j : Nat} (v : α) (h : j ≠ k) : get d (set t k v) j = get d t j := by
  induction t with
  | nil => simp [set, get, Ne.symm h]
  | cons p t ih =>
    obtain ⟨i, u⟩ := p
    simp only [set]
    split
    · rename_i hi; subst hi; simp [get, Ne.symm h]
    · split
      · simp [get, Ne.symm h]
      · simp only [get, ih]

theorem get_set (k j : Nat) (v : α) : get d (set t k v) j = if j = k then v else get d t j := by
  split
  · rename_i h; subst h; simp
  · rename_i h; exact get_set_ne d t v h

end Sys2Proof.Table

namespace Sys2Proof.Machine

/-- Byte k of a little-endian number. -/
theorem fromBytes_byte (bs : List Byte) (k : Nat) : fromBytes bs / 2 ^ (8 * k) % 256 = fromBytes ((bs.drop k).take 1) := by
  induction bs generalizing k with
  | nil => simp [fromBytes]
  | cons b bs ih =>
    have hb : b.toNat < 256 := b.isLt
    cases k with
    | zero => simp [fromBytes]; omega
    | succ k =>
      have e : 2 ^ (8 * (k + 1)) = 256 * 2 ^ (8 * k) := by rw [Nat.mul_add, Nat.pow_add]; norm_num [Nat.mul_comm]
      rw [List.drop_succ_cons, ← ih k, fromBytes, e, ← Nat.div_div_eq_div_mul]
      congr 2
      omega

/-- Byte k of a field of a byte string. -/
theorem leAt_byte (bs : List Byte) (off : Nat) {n k : Nat} (h : k < n) :
    leAt bs off n / 2 ^ (8 * k) % 256 = leAt bs (off + k) 1 := by
  unfold leAt
  rw [fromBytes_byte, List.drop_take, List.take_take, List.drop_drop, Nat.min_eq_left (by omega)]

end Sys2Proof.Machine
end

