-- ==== Sys2Proof/Laws/State.lean ====
section
/-! SUPPORT. What each named update of the state leaves and sets, one lemma per field. -/

namespace Sys2Proof.Machine

variable (s : State)

/-! ### `State.wr` -/

@[simp] theorem State.wr_pending (r : Csr) (v : Word) : (s.wr r v).pending = s.pending := rfl
@[simp] theorem State.wr_powered (r : Csr) (v : Word) : (s.wr r v).powered = s.powered := rfl
@[simp] theorem State.wr_time (r : Csr) (v : Word) : (s.wr r v).time = s.time := rfl
@[simp] theorem State.wr_timeHold (r : Csr) (v : Word) : (s.wr r v).timeHold = s.timeHold := rfl
@[simp] theorem State.wr_steeredAt (r : Csr) (v : Word) : (s.wr r v).steeredAt = s.steeredAt := rfl
@[simp] theorem State.wr_aged (r : Csr) (v : Word) : (s.wr r v).aged = s.aged := rfl
@[simp] theorem State.wr_paced (r : Csr) (v : Word) : (s.wr r v).paced = s.paced := rfl
@[simp] theorem State.wr_leases (r : Csr) (v : Word) : (s.wr r v).leases = s.leases := rfl
@[simp] theorem State.wr_freeCount (r : Csr) (v : Word) : (s.wr r v).freeCount = s.freeCount := rfl
@[simp] theorem State.wr_nextId (r : Csr) (v : Word) : (s.wr r v).nextId = s.nextId := rfl
@[simp] theorem State.wr_csrData (r : Csr) (v : Word) : (s.wr r v).csrData = s.csrData := rfl
@[simp] theorem State.wr_msgLatch (r : Csr) (v : Word) : (s.wr r v).msgLatch = s.msgLatch := rfl
@[simp] theorem State.wr_measLatch (r : Csr) (v : Word) : (s.wr r v).measLatch = s.measLatch := rfl
@[simp] theorem State.wr_mem (r : Csr) (v : Word) : (s.wr r v).mem = s.mem := rfl
@[simp] theorem State.wr_desc (r : Csr) (v : Word) : (s.wr r v).desc = s.desc := rfl
@[simp] theorem State.wr_spareRows (r : Csr) (v : Word) : (s.wr r v).spareRows = s.spareRows := rfl
@[simp] theorem State.wr_zeroing (r : Csr) (v : Word) : (s.wr r v).zeroing = s.zeroing := rfl
@[simp] theorem State.wr_retired (r : Csr) (v : Word) : (s.wr r v).retired = s.retired := rfl
@[simp] theorem State.wr_sysFrames (r : Csr) (v : Word) : (s.wr r v).sysFrames = s.sysFrames := rfl
@[simp] theorem State.wr_cbFrames (r : Csr) (v : Word) : (s.wr r v).cbFrames = s.cbFrames := rfl
@[simp] theorem State.wr_lastGroup (r : Csr) (v : Word) : (s.wr r v).lastGroup = s.lastGroup := rfl
@[simp] theorem State.wr_demoting (r : Csr) (v : Word) : (s.wr r v).demoting = s.demoting := rfl
@[simp] theorem State.wr_evicting (r : Csr) (v : Word) : (s.wr r v).evicting = s.evicting := rfl
@[simp] theorem State.wr_furrows (r : Csr) (v : Word) : (s.wr r v).furrows = s.furrows := rfl
@[simp] theorem State.wr_sheaf (r : Csr) (v : Word) : (s.wr r v).sheaf = s.sheaf := rfl
@[simp] theorem State.wr_batchTag (r : Csr) (v : Word) : (s.wr r v).batchTag = s.batchTag := rfl
@[simp] theorem State.wr_walks (r : Csr) (v : Word) : (s.wr r v).walks = s.walks := rfl
@[simp] theorem State.wr_deferred (r : Csr) (v : Word) : (s.wr r v).deferred = s.deferred := rfl
@[simp] theorem State.wr_fallowTails (r : Csr) (v : Word) : (s.wr r v).fallowTails = s.fallowTails := rfl
@[simp] theorem State.wr_units (r : Csr) (v : Word) : (s.wr r v).units = s.units := rfl
@[simp] theorem State.wr_almQueue (r : Csr) (v : Word) : (s.wr r v).almQueue = s.almQueue := rfl
@[simp] theorem State.wr_almDrops (r : Csr) (v : Word) : (s.wr r v).almDrops = s.almDrops := rfl
@[simp] theorem State.wr_irqs (r : Csr) (v : Word) : (s.wr r v).irqs = s.irqs := rfl
@[simp] theorem State.wr_reeveMsgs (r : Csr) (v : Word) : (s.wr r v).reeveMsgs = s.reeveMsgs := rfl
@[simp] theorem State.wr_domains (r : Csr) (v : Word) : (s.wr r v).domains = s.domains := rfl
@[simp] theorem State.wr_fabOps (r : Csr) (v : Word) : (s.wr r v).fabOps = s.fabOps := rfl
@[simp] theorem State.wr_closedTags (r : Csr) (v : Word) : (s.wr r v).closedTags = s.closedTags := rfl
@[simp] theorem State.wr_nextTag (r : Csr) (v : Word) : (s.wr r v).nextTag = s.nextTag := rfl
@[simp] theorem State.wr_tx (r : Csr) (v : Word) : (s.wr r v).tx = s.tx := rfl
@[simp] theorem State.wr_rx (r : Csr) (v : Word) : (s.wr r v).rx = s.rx := rfl
@[simp] theorem State.wr_arrived (r : Csr) (v : Word) : (s.wr r v).arrived = s.arrived := rfl
@[simp] theorem State.wr_answers (r : Csr) (v : Word) : (s.wr r v).answers = s.answers := rfl
@[simp] theorem State.wr_refusalTimes (r : Csr) (v : Word) : (s.wr r v).refusalTimes = s.refusalTimes := rfl
@[simp] theorem State.wr_spread (r : Csr) (v : Word) : (s.wr r v).spread = s.spread := rfl
@[simp] theorem State.wr_stt (r : Csr) (v : Word) : (s.wr r v).stt = s.stt := rfl
@[simp] theorem State.wr_groups (r : Csr) (v : Word) : (s.wr r v).groups = s.groups := rfl
@[simp] theorem State.wr_abortFilter (r : Csr) (v : Word) : (s.wr r v).abortFilter = s.abortFilter := rfl
@[simp] theorem State.wr_ports (r : Csr) (v : Word) : (s.wr r v).ports = s.ports := rfl
@[simp] theorem State.wr_reasm (r : Csr) (v : Word) : (s.wr r v).reasm = s.reasm := rfl
@[simp] theorem State.wr_arrays (r : Csr) (v : Word) : (s.wr r v).arrays = s.arrays := rfl
@[simp] theorem State.wr_winnow (r : Csr) (v : Word) : (s.wr r v).winnow = s.winnow := rfl
@[simp] theorem State.wr_sieve (r : Csr) (v : Word) : (s.wr r v).sieve = s.sieve := rfl
@[simp] theorem State.wr_jobs (r : Csr) (v : Word) : (s.wr r v).jobs = s.jobs := rfl
@[simp] theorem State.wr_rowSenders (r : Csr) (v : Word) : (s.wr r v).rowSenders = s.rowSenders := rfl
@[simp] theorem State.wr_exchanges (r : Csr) (v : Word) : (s.wr r v).exchanges = s.exchanges := rfl
@[simp] theorem State.wr_adoptions (r : Csr) (v : Word) : (s.wr r v).adoptions = s.adoptions := rfl
@[simp] theorem State.wr_pushes (r : Csr) (v : Word) : (s.wr r v).pushes = s.pushes := rfl
@[simp] theorem State.wr_deltas (r : Csr) (v : Word) : (s.wr r v).deltas = s.deltas := rfl
@[simp] theorem State.wr_rebuilds (r : Csr) (v : Word) : (s.wr r v).rebuilds = s.rebuilds := rfl
@[simp] theorem State.wr_resolving (r : Csr) (v : Word) : (s.wr r v).resolving = s.resolving := rfl
@[simp] theorem State.wr_reeves (r : Csr) (v : Word) : (s.wr r v).reeves = s.reeves := rfl
@[simp] theorem State.wr_turningOn (r : Csr) (v : Word) : (s.wr r v).turningOn = s.turningOn := rfl
@[simp] theorem State.wr_onWaiting (r : Csr) (v : Word) : (s.wr r v).onWaiting = s.onWaiting := rfl
@[simp] theorem State.wr_binSample (r : Csr) (v : Word) : (s.wr r v).binSample = s.binSample := rfl
@[simp] theorem State.wr_binEvents (r : Csr) (v : Word) : (s.wr r v).binEvents = s.binEvents := rfl
@[simp] theorem State.wr_scrubbed (r : Csr) (v : Word) : (s.wr r v).scrubbed = s.scrubbed := rfl
@[simp] theorem State.wr_scrubFixed (r : Csr) (v : Word) : (s.wr r v).scrubFixed = s.scrubFixed := rfl
@[simp] theorem State.wr_scrubPoisoned (r : Csr) (v : Word) : (s.wr r v).scrubPoisoned = s.scrubPoisoned := rfl
@[simp] theorem State.wr_corrected (r : Csr) (v : Word) : (s.wr r v).corrected = s.corrected := rfl
@[simp] theorem State.wr_rowErrors (r : Csr) (v : Word) : (s.wr r v).rowErrors = s.rowErrors := rfl
@[simp] theorem State.wr_rowsDue (r : Csr) (v : Word) : (s.wr r v).rowsDue = s.rowsDue := rfl
@[simp] theorem State.wr_migrating (r : Csr) (v : Word) : (s.wr r v).migrating = s.migrating := rfl
@[simp] theorem State.wr_spareChannels (r : Csr) (v : Word) : (s.wr r v).spareChannels = s.spareChannels := rfl
@[simp] theorem State.wr_trendFeed (r : Csr) (v : Word) : (s.wr r v).trendFeed = s.trendFeed := rfl
@[simp] theorem State.wr_almanac (r : Csr) (v : Word) : (s.wr r v).almanac = s.almanac := rfl
@[simp] theorem State.wr_harts (r : Csr) (v : Word) : (s.wr r v).harts = s.harts := rfl
@[simp] theorem State.wr_hartFrom (r : Csr) (v : Word) : (s.wr r v).hartFrom = s.hartFrom := rfl
@[simp] theorem State.wr_started (r : Csr) (v : Word) : (s.wr r v).started = s.started := rfl
@[simp] theorem State.wr_plic (r : Csr) (v : Word) : (s.wr r v).plic = s.plic := rfl
@[simp] theorem State.wr_l2 (r : Csr) (v : Word) : (s.wr r v).l2 = s.l2 := rfl
@[simp] theorem State.wr_l3 (r : Csr) (v : Word) : (s.wr r v).l3 = s.l3 := rfl
@[simp] theorem State.wr_coreTraps (r : Csr) (v : Word) : (s.wr r v).coreTraps = s.coreTraps := rfl
@[simp] theorem State.wr_beatAt (r : Csr) (v : Word) : (s.wr r v).beatAt = s.beatAt := rfl
@[simp] theorem State.wr_beatSince (r : Csr) (v : Word) : (s.wr r v).beatSince = s.beatSince := rfl
@[simp] theorem State.wr_sessions (r : Csr) (v : Word) : (s.wr r v).sessions = s.sessions := rfl
@[simp] theorem State.wr_snapped (r : Csr) (v : Word) : (s.wr r v).snapped = s.snapped := rfl
@[simp] theorem State.wr_hmpSent (r : Csr) (v : Word) : (s.wr r v).hmpSent = s.hmpSent := rfl
@[simp] theorem State.wr_snapshots (r : Csr) (v : Word) : (s.wr r v).snapshots = s.snapshots := rfl
@[simp] theorem State.wr_handshakeFails (r : Csr) (v : Word) : (s.wr r v).handshakeFails = s.handshakeFails := rfl
@[simp] theorem State.wr_handshakeRec (r : Csr) (v : Word) : (s.wr r v).handshakeRec = s.handshakeRec := rfl
@[simp] theorem State.wr_osDigests (r : Csr) (v : Word) : (s.wr r v).osDigests = s.osDigests := rfl
@[simp] theorem State.wr_sowerDigests (r : Csr) (v : Word) : (s.wr r v).sowerDigests = s.sowerDigests := rfl
@[simp] theorem State.wr_secQueue (r : Csr) (v : Word) : (s.wr r v).secQueue = s.secQueue := rfl
@[simp] theorem State.wr_trees (r : Csr) (v : Word) : (s.wr r v).trees = s.trees := rfl
@[simp] theorem State.wr_drawn (r : Csr) (v : Word) : (s.wr r v).drawn = s.drawn := rfl
@[simp] theorem State.wr_recovery (r : Csr) (v : Word) : (s.wr r v).recovery = s.recovery := rfl
@[simp] theorem State.wr_mgmtNet (r : Csr) (v : Word) : (s.wr r v).mgmtNet = s.mgmtNet := rfl
@[simp] theorem State.wr_versions (r : Csr) (v : Word) : (s.wr r v).versions = s.versions := rfl
@[simp] theorem State.wr_minimal (r : Csr) (v : Word) : (s.wr r v).minimal = s.minimal := rfl
@[simp] theorem State.wr_rails (r : Csr) (v : Word) : (s.wr r v).rails = s.rails := rfl
@[simp] theorem State.wr_railBad (r : Csr) (v : Word) : (s.wr r v).railBad = s.railBad := rfl
@[simp] theorem State.wr_estimates (r : Csr) (v : Word) : (s.wr r v).estimates = s.estimates := rfl
@[simp] theorem State.wr_calibration (r : Csr) (v : Word) : (s.wr r v).calibration = s.calibration := rfl
@[simp] theorem State.wr_domDuty (r : Csr) (v : Word) : (s.wr r v).domDuty = s.domDuty := rfl
@[simp] theorem State.wr_sliceDuty (r : Csr) (v : Word) : (s.wr r v).sliceDuty = s.sliceDuty := rfl
@[simp] theorem State.wr_pkgDuty (r : Csr) (v : Word) : (s.wr r v).pkgDuty = s.pkgDuty := rfl
@[simp] theorem State.wr_pkgSlow (r : Csr) (v : Word) : (s.wr r v).pkgSlow = s.pkgSlow := rfl
@[simp] theorem State.wr_heatSlow (r : Csr) (v : Word) : (s.wr r v).heatSlow = s.heatSlow := rfl
@[simp] theorem State.wr_coolSince (r : Csr) (v : Word) : (s.wr r v).coolSince = s.coolSince := rfl
@[simp] theorem State.wr_pkgStepAt (r : Csr) (v : Word) : (s.wr r v).pkgStepAt = s.pkgStepAt := rfl
@[simp] theorem State.wr_trips (r : Csr) (v : Word) : (s.wr r v).trips = s.trips := rfl
@[simp] theorem State.wr_slowSince (r : Csr) (v : Word) : (s.wr r v).slowSince = s.slowSince := rfl
@[simp] theorem State.wr_powerRec (r : Csr) (v : Word) : (s.wr r v).powerRec = s.powerRec := rfl
@[simp] theorem State.wr_refreshed (r : Csr) (v : Word) : (s.wr r v).refreshed = s.refreshed := rfl
@[simp] theorem State.wr_ahead (r : Csr) (v : Word) : (s.wr r v).ahead = s.ahead := rfl
@[simp] theorem State.wr_bootImages (r : Csr) (v : Word) : (s.wr r v).bootImages = s.bootImages := rfl

/-! ### `State.wrf` -/

@[simp] theorem State.wrf_pending (r : Csr) (hi lo v : Nat) : (s.wrf r hi lo v).pending = s.pending := rfl
@[simp] theorem State.wrf_powered (r : Csr) (hi lo v : Nat) : (s.wrf r hi lo v).powered = s.powered := rfl
@[simp] theorem State.wrf_time (r : Csr) (hi lo v : Nat) : (s.wrf r hi lo v).time = s.time := rfl
@[simp] theorem State.wrf_timeHold (r : Csr) (hi lo v : Nat) : (s.wrf r hi lo v).timeHold = s.timeHold := rfl
@[simp] theorem State.wrf_steeredAt (r : Csr) (hi lo v : Nat) : (s.wrf r hi lo v).steeredAt = s.steeredAt := rfl
@[simp] theorem State.wrf_aged (r : Csr) (hi lo v : Nat) : (s.wrf r hi lo v).aged = s.aged := rfl
@[simp] theorem State.wrf_paced (r : Csr) (hi lo v : Nat) : (s.wrf r hi lo v).paced = s.paced := rfl
@[simp] theorem State.wrf_leases (r : Csr) (hi lo v : Nat) : (s.wrf r hi lo v).leases = s.leases := rfl
@[simp] theorem State.wrf_freeCount (r : Csr) (hi lo v : Nat) : (s.wrf r hi lo v).freeCount = s.freeCount := rfl
@[simp] theorem State.wrf_nextId (r : Csr) (hi lo v : Nat) : (s.wrf r hi lo v).nextId = s.nextId := rfl
@[simp] theorem State.wrf_csrData (r : Csr) (hi lo v : Nat) : (s.wrf r hi lo v).csrData = s.csrData := rfl
@[simp] theorem State.wrf_msgLatch (r : Csr) (hi lo v : Nat) : (s.wrf r hi lo v).msgLatch = s.msgLatch := rfl
@[simp] theorem State.wrf_measLatch (r : Csr) (hi lo v : Nat) : (s.wrf r hi lo v).measLatch = s.measLatch := rfl
@[simp] theorem State.wrf_mem (r : Csr) (hi lo v : Nat) : (s.wrf r hi lo v).mem = s.mem := rfl
@[simp] theorem State.wrf_desc (r : Csr) (hi lo v : Nat) : (s.wrf r hi lo v).desc = s.desc := rfl
@[simp] theorem State.wrf_spareRows (r : Csr) (hi lo v : Nat) : (s.wrf r hi lo v).spareRows = s.spareRows := rfl
@[simp] theorem State.wrf_zeroing (r : Csr) (hi lo v : Nat) : (s.wrf r hi lo v).zeroing = s.zeroing := rfl
@[simp] theorem State.wrf_retired (r : Csr) (hi lo v : Nat) : (s.wrf r hi lo v).retired = s.retired := rfl
@[simp] theorem State.wrf_sysFrames (r : Csr) (hi lo v : Nat) : (s.wrf r hi lo v).sysFrames = s.sysFrames := rfl
@[simp] theorem State.wrf_cbFrames (r : Csr) (hi lo v : Nat) : (s.wrf r hi lo v).cbFrames = s.cbFrames := rfl
@[simp] theorem State.wrf_lastGroup (r : Csr) (hi lo v : Nat) : (s.wrf r hi lo v).lastGroup = s.lastGroup := rfl
@[simp] theorem State.wrf_demoting (r : Csr) (hi lo v : Nat) : (s.wrf r hi lo v).demoting = s.demoting := rfl
@[simp] theorem State.wrf_evicting (r : Csr) (hi lo v : Nat) : (s.wrf r hi lo v).evicting = s.evicting := rfl
@[simp] theorem State.wrf_furrows (r : Csr) (hi lo v : Nat) : (s.wrf r hi lo v).furrows = s.furrows := rfl
@[simp] theorem State.wrf_sheaf (r : Csr) (hi lo v : Nat) : (s.wrf r hi lo v).sheaf = s.sheaf := rfl
@[simp] theorem State.wrf_batchTag (r : Csr) (hi lo v : Nat) : (s.wrf r hi lo v).batchTag = s.batchTag := rfl
@[simp] theorem State.wrf_walks (r : Csr) (hi lo v : Nat) : (s.wrf r hi lo v).walks = s.walks := rfl
@[simp] theorem State.wrf_deferred (r : Csr) (hi lo v : Nat) : (s.wrf r hi lo v).deferred = s.deferred := rfl
@[simp] theorem State.wrf_fallowTails (r : Csr) (hi lo v : Nat) : (s.wrf r hi lo v).fallowTails = s.fallowTails := rfl
@[simp] theorem State.wrf_units (r : Csr) (hi lo v : Nat) : (s.wrf r hi lo v).units = s.units := rfl
@[simp] theorem State.wrf_almQueue (r : Csr) (hi lo v : Nat) : (s.wrf r hi lo v).almQueue = s.almQueue := rfl
@[simp] theorem State.wrf_almDrops (r : Csr) (hi lo v : Nat) : (s.wrf r hi lo v).almDrops = s.almDrops := rfl
@[simp] theorem State.wrf_irqs (r : Csr) (hi lo v : Nat) : (s.wrf r hi lo v).irqs = s.irqs := rfl
@[simp] theorem State.wrf_reeveMsgs (r : Csr) (hi lo v : Nat) : (s.wrf r hi lo v).reeveMsgs = s.reeveMsgs := rfl
@[simp] theorem State.wrf_domains (r : Csr) (hi lo v : Nat) : (s.wrf r hi lo v).domains = s.domains := rfl
@[simp] theorem State.wrf_fabOps (r : Csr) (hi lo v : Nat) : (s.wrf r hi lo v).fabOps = s.fabOps := rfl
@[simp] theorem State.wrf_closedTags (r : Csr) (hi lo v : Nat) : (s.wrf r hi lo v).closedTags = s.closedTags := rfl
@[simp] theorem State.wrf_nextTag (r : Csr) (hi lo v : Nat) : (s.wrf r hi lo v).nextTag = s.nextTag := rfl
@[simp] theorem State.wrf_tx (r : Csr) (hi lo v : Nat) : (s.wrf r hi lo v).tx = s.tx := rfl
@[simp] theorem State.wrf_rx (r : Csr) (hi lo v : Nat) : (s.wrf r hi lo v).rx = s.rx := rfl
@[simp] theorem State.wrf_arrived (r : Csr) (hi lo v : Nat) : (s.wrf r hi lo v).arrived = s.arrived := rfl
@[simp] theorem State.wrf_answers (r : Csr) (hi lo v : Nat) : (s.wrf r hi lo v).answers = s.answers := rfl
@[simp] theorem State.wrf_refusalTimes (r : Csr) (hi lo v : Nat) : (s.wrf r hi lo v).refusalTimes = s.refusalTimes := rfl
@[simp] theorem State.wrf_spread (r : Csr) (hi lo v : Nat) : (s.wrf r hi lo v).spread = s.spread := rfl
@[simp] theorem State.wrf_stt (r : Csr) (hi lo v : Nat) : (s.wrf r hi lo v).stt = s.stt := rfl
@[simp] theorem State.wrf_groups (r : Csr) (hi lo v : Nat) : (s.wrf r hi lo v).groups = s.groups := rfl
@[simp] theorem State.wrf_abortFilter (r : Csr) (hi lo v : Nat) : (s.wrf r hi lo v).abortFilter = s.abortFilter := rfl
@[simp] theorem State.wrf_ports (r : Csr) (hi lo v : Nat) : (s.wrf r hi lo v).ports = s.ports := rfl
@[simp] theorem State.wrf_reasm (r : Csr) (hi lo v : Nat) : (s.wrf r hi lo v).reasm = s.reasm := rfl
@[simp] theorem State.wrf_arrays (r : Csr) (hi lo v : Nat) : (s.wrf r hi lo v).arrays = s.arrays := rfl
@[simp] theorem State.wrf_winnow (r : Csr) (hi lo v : Nat) : (s.wrf r hi lo v).winnow = s.winnow := rfl
@[simp] theorem State.wrf_sieve (r : Csr) (hi lo v : Nat) : (s.wrf r hi lo v).sieve = s.sieve := rfl
@[simp] theorem State.wrf_jobs (r : Csr) (hi lo v : Nat) : (s.wrf r hi lo v).jobs = s.jobs := rfl
@[simp] theorem State.wrf_rowSenders (r : Csr) (hi lo v : Nat) : (s.wrf r hi lo v).rowSenders = s.rowSenders := rfl
@[simp] theorem State.wrf_exchanges (r : Csr) (hi lo v : Nat) : (s.wrf r hi lo v).exchanges = s.exchanges := rfl
@[simp] theorem State.wrf_adoptions (r : Csr) (hi lo v : Nat) : (s.wrf r hi lo v).adoptions = s.adoptions := rfl
@[simp] theorem State.wrf_pushes (r : Csr) (hi lo v : Nat) : (s.wrf r hi lo v).pushes = s.pushes := rfl
@[simp] theorem State.wrf_deltas (r : Csr) (hi lo v : Nat) : (s.wrf r hi lo v).deltas = s.deltas := rfl
@[simp] theorem State.wrf_rebuilds (r : Csr) (hi lo v : Nat) : (s.wrf r hi lo v).rebuilds = s.rebuilds := rfl
@[simp] theorem State.wrf_resolving (r : Csr) (hi lo v : Nat) : (s.wrf r hi lo v).resolving = s.resolving := rfl
@[simp] theorem State.wrf_reeves (r : Csr) (hi lo v : Nat) : (s.wrf r hi lo v).reeves = s.reeves := rfl
@[simp] theorem State.wrf_turningOn (r : Csr) (hi lo v : Nat) : (s.wrf r hi lo v).turningOn = s.turningOn := rfl
@[simp] theorem State.wrf_onWaiting (r : Csr) (hi lo v : Nat) : (s.wrf r hi lo v).onWaiting = s.onWaiting := rfl
@[simp] theorem State.wrf_binSample (r : Csr) (hi lo v : Nat) : (s.wrf r hi lo v).binSample = s.binSample := rfl
@[simp] theorem State.wrf_binEvents (r : Csr) (hi lo v : Nat) : (s.wrf r hi lo v).binEvents = s.binEvents := rfl
@[simp] theorem State.wrf_scrubbed (r : Csr) (hi lo v : Nat) : (s.wrf r hi lo v).scrubbed = s.scrubbed := rfl
@[simp] theorem State.wrf_scrubFixed (r : Csr) (hi lo v : Nat) : (s.wrf r hi lo v).scrubFixed = s.scrubFixed := rfl
@[simp] theorem State.wrf_scrubPoisoned (r : Csr) (hi lo v : Nat) : (s.wrf r hi lo v).scrubPoisoned = s.scrubPoisoned := rfl
@[simp] theorem State.wrf_corrected (r : Csr) (hi lo v : Nat) : (s.wrf r hi lo v).corrected = s.corrected := rfl
@[simp] theorem State.wrf_rowErrors (r : Csr) (hi lo v : Nat) : (s.wrf r hi lo v).rowErrors = s.rowErrors := rfl
@[simp] theorem State.wrf_rowsDue (r : Csr) (hi lo v : Nat) : (s.wrf r hi lo v).rowsDue = s.rowsDue := rfl
@[simp] theorem State.wrf_migrating (r : Csr) (hi lo v : Nat) : (s.wrf r hi lo v).migrating = s.migrating := rfl
@[simp] theorem State.wrf_spareChannels (r : Csr) (hi lo v : Nat) : (s.wrf r hi lo v).spareChannels = s.spareChannels := rfl
@[simp] theorem State.wrf_trendFeed (r : Csr) (hi lo v : Nat) : (s.wrf r hi lo v).trendFeed = s.trendFeed := rfl
@[simp] theorem State.wrf_almanac (r : Csr) (hi lo v : Nat) : (s.wrf r hi lo v).almanac = s.almanac := rfl
@[simp] theorem State.wrf_harts (r : Csr) (hi lo v : Nat) : (s.wrf r hi lo v).harts = s.harts := rfl
@[simp] theorem State.wrf_hartFrom (r : Csr) (hi lo v : Nat) : (s.wrf r hi lo v).hartFrom = s.hartFrom := rfl
@[simp] theorem State.wrf_started (r : Csr) (hi lo v : Nat) : (s.wrf r hi lo v).started = s.started := rfl
@[simp] theorem State.wrf_plic (r : Csr) (hi lo v : Nat) : (s.wrf r hi lo v).plic = s.plic := rfl
@[simp] theorem State.wrf_l2 (r : Csr) (hi lo v : Nat) : (s.wrf r hi lo v).l2 = s.l2 := rfl
@[simp] theorem State.wrf_l3 (r : Csr) (hi lo v : Nat) : (s.wrf r hi lo v).l3 = s.l3 := rfl
@[simp] theorem State.wrf_coreTraps (r : Csr) (hi lo v : Nat) : (s.wrf r hi lo v).coreTraps = s.coreTraps := rfl
@[simp] theorem State.wrf_beatAt (r : Csr) (hi lo v : Nat) : (s.wrf r hi lo v).beatAt = s.beatAt := rfl
@[simp] theorem State.wrf_beatSince (r : Csr) (hi lo v : Nat) : (s.wrf r hi lo v).beatSince = s.beatSince := rfl
@[simp] theorem State.wrf_sessions (r : Csr) (hi lo v : Nat) : (s.wrf r hi lo v).sessions = s.sessions := rfl
@[simp] theorem State.wrf_snapped (r : Csr) (hi lo v : Nat) : (s.wrf r hi lo v).snapped = s.snapped := rfl
@[simp] theorem State.wrf_hmpSent (r : Csr) (hi lo v : Nat) : (s.wrf r hi lo v).hmpSent = s.hmpSent := rfl
@[simp] theorem State.wrf_snapshots (r : Csr) (hi lo v : Nat) : (s.wrf r hi lo v).snapshots = s.snapshots := rfl
@[simp] theorem State.wrf_handshakeFails (r : Csr) (hi lo v : Nat) : (s.wrf r hi lo v).handshakeFails = s.handshakeFails := rfl
@[simp] theorem State.wrf_handshakeRec (r : Csr) (hi lo v : Nat) : (s.wrf r hi lo v).handshakeRec = s.handshakeRec := rfl
@[simp] theorem State.wrf_osDigests (r : Csr) (hi lo v : Nat) : (s.wrf r hi lo v).osDigests = s.osDigests := rfl
@[simp] theorem State.wrf_sowerDigests (r : Csr) (hi lo v : Nat) : (s.wrf r hi lo v).sowerDigests = s.sowerDigests := rfl
@[simp] theorem State.wrf_secQueue (r : Csr) (hi lo v : Nat) : (s.wrf r hi lo v).secQueue = s.secQueue := rfl
@[simp] theorem State.wrf_trees (r : Csr) (hi lo v : Nat) : (s.wrf r hi lo v).trees = s.trees := rfl
@[simp] theorem State.wrf_drawn (r : Csr) (hi lo v : Nat) : (s.wrf r hi lo v).drawn = s.drawn := rfl
@[simp] theorem State.wrf_recovery (r : Csr) (hi lo v : Nat) : (s.wrf r hi lo v).recovery = s.recovery := rfl
@[simp] theorem State.wrf_mgmtNet (r : Csr) (hi lo v : Nat) : (s.wrf r hi lo v).mgmtNet = s.mgmtNet := rfl
@[simp] theorem State.wrf_versions (r : Csr) (hi lo v : Nat) : (s.wrf r hi lo v).versions = s.versions := rfl
@[simp] theorem State.wrf_minimal (r : Csr) (hi lo v : Nat) : (s.wrf r hi lo v).minimal = s.minimal := rfl
@[simp] theorem State.wrf_rails (r : Csr) (hi lo v : Nat) : (s.wrf r hi lo v).rails = s.rails := rfl
@[simp] theorem State.wrf_railBad (r : Csr) (hi lo v : Nat) : (s.wrf r hi lo v).railBad = s.railBad := rfl
@[simp] theorem State.wrf_estimates (r : Csr) (hi lo v : Nat) : (s.wrf r hi lo v).estimates = s.estimates := rfl
@[simp] theorem State.wrf_calibration (r : Csr) (hi lo v : Nat) : (s.wrf r hi lo v).calibration = s.calibration := rfl
@[simp] theorem State.wrf_domDuty (r : Csr) (hi lo v : Nat) : (s.wrf r hi lo v).domDuty = s.domDuty := rfl
@[simp] theorem State.wrf_sliceDuty (r : Csr) (hi lo v : Nat) : (s.wrf r hi lo v).sliceDuty = s.sliceDuty := rfl
@[simp] theorem State.wrf_pkgDuty (r : Csr) (hi lo v : Nat) : (s.wrf r hi lo v).pkgDuty = s.pkgDuty := rfl
@[simp] theorem State.wrf_pkgSlow (r : Csr) (hi lo v : Nat) : (s.wrf r hi lo v).pkgSlow = s.pkgSlow := rfl
@[simp] theorem State.wrf_heatSlow (r : Csr) (hi lo v : Nat) : (s.wrf r hi lo v).heatSlow = s.heatSlow := rfl
@[simp] theorem State.wrf_coolSince (r : Csr) (hi lo v : Nat) : (s.wrf r hi lo v).coolSince = s.coolSince := rfl
@[simp] theorem State.wrf_pkgStepAt (r : Csr) (hi lo v : Nat) : (s.wrf r hi lo v).pkgStepAt = s.pkgStepAt := rfl
@[simp] theorem State.wrf_trips (r : Csr) (hi lo v : Nat) : (s.wrf r hi lo v).trips = s.trips := rfl
@[simp] theorem State.wrf_slowSince (r : Csr) (hi lo v : Nat) : (s.wrf r hi lo v).slowSince = s.slowSince := rfl
@[simp] theorem State.wrf_powerRec (r : Csr) (hi lo v : Nat) : (s.wrf r hi lo v).powerRec = s.powerRec := rfl
@[simp] theorem State.wrf_refreshed (r : Csr) (hi lo v : Nat) : (s.wrf r hi lo v).refreshed = s.refreshed := rfl
@[simp] theorem State.wrf_ahead (r : Csr) (hi lo v : Nat) : (s.wrf r hi lo v).ahead = s.ahead := rfl
@[simp] theorem State.wrf_bootImages (r : Csr) (hi lo v : Nat) : (s.wrf r hi lo v).bootImages = s.bootImages := rfl

/-! ### `State.sense` -/

@[simp] theorem State.sense_pending : s.sense.pending = s.pending := rfl
@[simp] theorem State.sense_powered : s.sense.powered = s.powered := rfl
@[simp] theorem State.sense_time : s.sense.time = s.time := rfl
@[simp] theorem State.sense_timeHold : s.sense.timeHold = s.timeHold := rfl
@[simp] theorem State.sense_steeredAt : s.sense.steeredAt = s.steeredAt := rfl
@[simp] theorem State.sense_aged : s.sense.aged = s.aged := rfl
@[simp] theorem State.sense_paced : s.sense.paced = s.paced := rfl
@[simp] theorem State.sense_leases : s.sense.leases = s.leases := rfl
@[simp] theorem State.sense_freeCount : s.sense.freeCount = s.freeCount := rfl
@[simp] theorem State.sense_nextId : s.sense.nextId = s.nextId := rfl
@[simp] theorem State.sense_csr : s.sense.csr = s.csr := rfl
@[simp] theorem State.sense_csrData : s.sense.csrData = s.csrData := rfl
@[simp] theorem State.sense_msgLatch : s.sense.msgLatch = s.msgLatch := rfl
@[simp] theorem State.sense_measLatch : s.sense.measLatch = s.measLatch := rfl
@[simp] theorem State.sense_mem : s.sense.mem = s.mem := rfl
@[simp] theorem State.sense_desc : s.sense.desc = s.desc := rfl
@[simp] theorem State.sense_spareRows : s.sense.spareRows = s.spareRows := rfl
@[simp] theorem State.sense_zeroing : s.sense.zeroing = s.zeroing := rfl
@[simp] theorem State.sense_retired : s.sense.retired = s.retired := rfl
@[simp] theorem State.sense_sysFrames : s.sense.sysFrames = s.sysFrames := rfl
@[simp] theorem State.sense_cbFrames : s.sense.cbFrames = s.cbFrames := rfl
@[simp] theorem State.sense_lastGroup : s.sense.lastGroup = s.lastGroup := rfl
@[simp] theorem State.sense_demoting : s.sense.demoting = s.demoting := rfl
@[simp] theorem State.sense_evicting : s.sense.evicting = s.evicting := rfl
@[simp] theorem State.sense_furrows : s.sense.furrows = s.furrows := rfl
@[simp] theorem State.sense_sheaf : s.sense.sheaf = s.sheaf := rfl
@[simp] theorem State.sense_batchTag : s.sense.batchTag = s.batchTag := rfl
@[simp] theorem State.sense_walks : s.sense.walks = s.walks := rfl
@[simp] theorem State.sense_deferred : s.sense.deferred = s.deferred := rfl
@[simp] theorem State.sense_fallowTails : s.sense.fallowTails = s.fallowTails := rfl
@[simp] theorem State.sense_units : s.sense.units = s.units := rfl
@[simp] theorem State.sense_almQueue : s.sense.almQueue = s.almQueue := rfl
@[simp] theorem State.sense_almDrops : s.sense.almDrops = s.almDrops := rfl
@[simp] theorem State.sense_reeveMsgs : s.sense.reeveMsgs = s.reeveMsgs := rfl
@[simp] theorem State.sense_domains : s.sense.domains = s.domains := rfl
@[simp] theorem State.sense_fabOps : s.sense.fabOps = s.fabOps := rfl
@[simp] theorem State.sense_closedTags : s.sense.closedTags = s.closedTags := rfl
@[simp] theorem State.sense_nextTag : s.sense.nextTag = s.nextTag := rfl
@[simp] theorem State.sense_tx : s.sense.tx = s.tx := rfl
@[simp] theorem State.sense_rx : s.sense.rx = s.rx := rfl
@[simp] theorem State.sense_arrived : s.sense.arrived = s.arrived := rfl
@[simp] theorem State.sense_answers : s.sense.answers = s.answers := rfl
@[simp] theorem State.sense_refusalTimes : s.sense.refusalTimes = s.refusalTimes := rfl
@[simp] theorem State.sense_spread : s.sense.spread = s.spread := rfl
@[simp] theorem State.sense_stt : s.sense.stt = s.stt := rfl
@[simp] theorem State.sense_groups : s.sense.groups = s.groups := rfl
@[simp] theorem State.sense_abortFilter : s.sense.abortFilter = s.abortFilter := rfl
@[simp] theorem State.sense_ports : s.sense.ports = s.ports := rfl
@[simp] theorem State.sense_reasm : s.sense.reasm = s.reasm := rfl
@[simp] theorem State.sense_arrays : s.sense.arrays = s.arrays := rfl
@[simp] theorem State.sense_winnow : s.sense.winnow = s.winnow := rfl
@[simp] theorem State.sense_sieve : s.sense.sieve = s.sieve := rfl
@[simp] theorem State.sense_jobs : s.sense.jobs = s.jobs := rfl
@[simp] theorem State.sense_rowSenders : s.sense.rowSenders = s.rowSenders := rfl
@[simp] theorem State.sense_exchanges : s.sense.exchanges = s.exchanges := rfl
@[simp] theorem State.sense_adoptions : s.sense.adoptions = s.adoptions := rfl
@[simp] theorem State.sense_pushes : s.sense.pushes = s.pushes := rfl
@[simp] theorem State.sense_deltas : s.sense.deltas = s.deltas := rfl
@[simp] theorem State.sense_rebuilds : s.sense.rebuilds = s.rebuilds := rfl
@[simp] theorem State.sense_resolving : s.sense.resolving = s.resolving := rfl
@[simp] theorem State.sense_reeves : s.sense.reeves = s.reeves := rfl
@[simp] theorem State.sense_turningOn : s.sense.turningOn = s.turningOn := rfl
@[simp] theorem State.sense_onWaiting : s.sense.onWaiting = s.onWaiting := rfl
@[simp] theorem State.sense_binSample : s.sense.binSample = s.binSample := rfl
@[simp] theorem State.sense_binEvents : s.sense.binEvents = s.binEvents := rfl
@[simp] theorem State.sense_scrubbed : s.sense.scrubbed = s.scrubbed := rfl
@[simp] theorem State.sense_scrubFixed : s.sense.scrubFixed = s.scrubFixed := rfl
@[simp] theorem State.sense_scrubPoisoned : s.sense.scrubPoisoned = s.scrubPoisoned := rfl
@[simp] theorem State.sense_corrected : s.sense.corrected = s.corrected := rfl
@[simp] theorem State.sense_rowErrors : s.sense.rowErrors = s.rowErrors := rfl
@[simp] theorem State.sense_rowsDue : s.sense.rowsDue = s.rowsDue := rfl
@[simp] theorem State.sense_migrating : s.sense.migrating = s.migrating := rfl
@[simp] theorem State.sense_spareChannels : s.sense.spareChannels = s.spareChannels := rfl
@[simp] theorem State.sense_trendFeed : s.sense.trendFeed = s.trendFeed := rfl
@[simp] theorem State.sense_almanac : s.sense.almanac = s.almanac := rfl
@[simp] theorem State.sense_harts : s.sense.harts = s.harts := rfl
@[simp] theorem State.sense_hartFrom : s.sense.hartFrom = s.hartFrom := rfl
@[simp] theorem State.sense_started : s.sense.started = s.started := rfl
@[simp] theorem State.sense_l2 : s.sense.l2 = s.l2 := rfl
@[simp] theorem State.sense_l3 : s.sense.l3 = s.l3 := rfl
@[simp] theorem State.sense_coreTraps : s.sense.coreTraps = s.coreTraps := rfl
@[simp] theorem State.sense_beatAt : s.sense.beatAt = s.beatAt := rfl
@[simp] theorem State.sense_beatSince : s.sense.beatSince = s.beatSince := rfl
@[simp] theorem State.sense_sessions : s.sense.sessions = s.sessions := rfl
@[simp] theorem State.sense_snapped : s.sense.snapped = s.snapped := rfl
@[simp] theorem State.sense_hmpSent : s.sense.hmpSent = s.hmpSent := rfl
@[simp] theorem State.sense_snapshots : s.sense.snapshots = s.snapshots := rfl
@[simp] theorem State.sense_handshakeFails : s.sense.handshakeFails = s.handshakeFails := rfl
@[simp] theorem State.sense_handshakeRec : s.sense.handshakeRec = s.handshakeRec := rfl
@[simp] theorem State.sense_osDigests : s.sense.osDigests = s.osDigests := rfl
@[simp] theorem State.sense_sowerDigests : s.sense.sowerDigests = s.sowerDigests := rfl
@[simp] theorem State.sense_secQueue : s.sense.secQueue = s.secQueue := rfl
@[simp] theorem State.sense_trees : s.sense.trees = s.trees := rfl
@[simp] theorem State.sense_drawn : s.sense.drawn = s.drawn := rfl
@[simp] theorem State.sense_recovery : s.sense.recovery = s.recovery := rfl
@[simp] theorem State.sense_mgmtNet : s.sense.mgmtNet = s.mgmtNet := rfl
@[simp] theorem State.sense_versions : s.sense.versions = s.versions := rfl
@[simp] theorem State.sense_minimal : s.sense.minimal = s.minimal := rfl
@[simp] theorem State.sense_rails : s.sense.rails = s.rails := rfl
@[simp] theorem State.sense_railBad : s.sense.railBad = s.railBad := rfl
@[simp] theorem State.sense_estimates : s.sense.estimates = s.estimates := rfl
@[simp] theorem State.sense_calibration : s.sense.calibration = s.calibration := rfl
@[simp] theorem State.sense_domDuty : s.sense.domDuty = s.domDuty := rfl
@[simp] theorem State.sense_sliceDuty : s.sense.sliceDuty = s.sliceDuty := rfl
@[simp] theorem State.sense_pkgDuty : s.sense.pkgDuty = s.pkgDuty := rfl
@[simp] theorem State.sense_pkgSlow : s.sense.pkgSlow = s.pkgSlow := rfl
@[simp] theorem State.sense_heatSlow : s.sense.heatSlow = s.heatSlow := rfl
@[simp] theorem State.sense_coolSince : s.sense.coolSince = s.coolSince := rfl
@[simp] theorem State.sense_pkgStepAt : s.sense.pkgStepAt = s.pkgStepAt := rfl
@[simp] theorem State.sense_trips : s.sense.trips = s.trips := rfl
@[simp] theorem State.sense_slowSince : s.sense.slowSince = s.slowSince := rfl
@[simp] theorem State.sense_powerRec : s.sense.powerRec = s.powerRec := rfl
@[simp] theorem State.sense_refreshed : s.sense.refreshed = s.refreshed := rfl
@[simp] theorem State.sense_ahead : s.sense.ahead = s.ahead := rfl
@[simp] theorem State.sense_bootImages : s.sense.bootImages = s.bootImages := rfl

/-! ### `State.modFurrow` -/

@[simp] theorem State.modFurrow_pending (f : Nat) (g : Furrow → Furrow) : (s.modFurrow f g).pending = s.pending := rfl
@[simp] theorem State.modFurrow_powered (f : Nat) (g : Furrow → Furrow) : (s.modFurrow f g).powered = s.powered := rfl
@[simp] theorem State.modFurrow_time (f : Nat) (g : Furrow → Furrow) : (s.modFurrow f g).time = s.time := rfl
@[simp] theorem State.modFurrow_timeHold (f : Nat) (g : Furrow → Furrow) : (s.modFurrow f g).timeHold = s.timeHold := rfl
@[simp] theorem State.modFurrow_steeredAt (f : Nat) (g : Furrow → Furrow) : (s.modFurrow f g).steeredAt = s.steeredAt := rfl
@[simp] theorem State.modFurrow_aged (f : Nat) (g : Furrow → Furrow) : (s.modFurrow f g).aged = s.aged := rfl
@[simp] theorem State.modFurrow_paced (f : Nat) (g : Furrow → Furrow) : (s.modFurrow f g).paced = s.paced := rfl
@[simp] theorem State.modFurrow_leases (f : Nat) (g : Furrow → Furrow) : (s.modFurrow f g).leases = s.leases := rfl
@[simp] theorem State.modFurrow_freeCount (f : Nat) (g : Furrow → Furrow) : (s.modFurrow f g).freeCount = s.freeCount := rfl
@[simp] theorem State.modFurrow_nextId (f : Nat) (g : Furrow → Furrow) : (s.modFurrow f g).nextId = s.nextId := rfl
@[simp] theorem State.modFurrow_csr (f : Nat) (g : Furrow → Furrow) : (s.modFurrow f g).csr = s.csr := rfl
@[simp] theorem State.modFurrow_csrData (f : Nat) (g : Furrow → Furrow) : (s.modFurrow f g).csrData = s.csrData := rfl
@[simp] theorem State.modFurrow_msgLatch (f : Nat) (g : Furrow → Furrow) : (s.modFurrow f g).msgLatch = s.msgLatch := rfl
@[simp] theorem State.modFurrow_measLatch (f : Nat) (g : Furrow → Furrow) : (s.modFurrow f g).measLatch = s.measLatch := rfl
@[simp] theorem State.modFurrow_mem (f : Nat) (g : Furrow → Furrow) : (s.modFurrow f g).mem = s.mem := rfl
@[simp] theorem State.modFurrow_desc (f : Nat) (g : Furrow → Furrow) : (s.modFurrow f g).desc = s.desc := rfl
@[simp] theorem State.modFurrow_spareRows (f : Nat) (g : Furrow → Furrow) : (s.modFurrow f g).spareRows = s.spareRows := rfl
@[simp] theorem State.modFurrow_zeroing (f : Nat) (g : Furrow → Furrow) : (s.modFurrow f g).zeroing = s.zeroing := rfl
@[simp] theorem State.modFurrow_retired (f : Nat) (g : Furrow → Furrow) : (s.modFurrow f g).retired = s.retired := rfl
@[simp] theorem State.modFurrow_sysFrames (f : Nat) (g : Furrow → Furrow) : (s.modFurrow f g).sysFrames = s.sysFrames := rfl
@[simp] theorem State.modFurrow_cbFrames (f : Nat) (g : Furrow → Furrow) : (s.modFurrow f g).cbFrames = s.cbFrames := rfl
@[simp] theorem State.modFurrow_lastGroup (f : Nat) (g : Furrow → Furrow) : (s.modFurrow f g).lastGroup = s.lastGroup := rfl
@[simp] theorem State.modFurrow_demoting (f : Nat) (g : Furrow → Furrow) : (s.modFurrow f g).demoting = s.demoting := rfl
@[simp] theorem State.modFurrow_evicting (f : Nat) (g : Furrow → Furrow) : (s.modFurrow f g).evicting = s.evicting := rfl
@[simp] theorem State.modFurrow_sheaf (f : Nat) (g : Furrow → Furrow) : (s.modFurrow f g).sheaf = s.sheaf := rfl
@[simp] theorem State.modFurrow_batchTag (f : Nat) (g : Furrow → Furrow) : (s.modFurrow f g).batchTag = s.batchTag := rfl
@[simp] theorem State.modFurrow_walks (f : Nat) (g : Furrow → Furrow) : (s.modFurrow f g).walks = s.walks := rfl
@[simp] theorem State.modFurrow_deferred (f : Nat) (g : Furrow → Furrow) : (s.modFurrow f g).deferred = s.deferred := rfl
@[simp] theorem State.modFurrow_fallowTails (f : Nat) (g : Furrow → Furrow) : (s.modFurrow f g).fallowTails = s.fallowTails := rfl
@[simp] theorem State.modFurrow_units (f : Nat) (g : Furrow → Furrow) : (s.modFurrow f g).units = s.units := rfl
@[simp] theorem State.modFurrow_almQueue (f : Nat) (g : Furrow → Furrow) : (s.modFurrow f g).almQueue = s.almQueue := rfl
@[simp] theorem State.modFurrow_almDrops (f : Nat) (g : Furrow → Furrow) : (s.modFurrow f g).almDrops = s.almDrops := rfl
@[simp] theorem State.modFurrow_irqs (f : Nat) (g : Furrow → Furrow) : (s.modFurrow f g).irqs = s.irqs := rfl
@[simp] theorem State.modFurrow_reeveMsgs (f : Nat) (g : Furrow → Furrow) : (s.modFurrow f g).reeveMsgs = s.reeveMsgs := rfl
@[simp] theorem State.modFurrow_domains (f : Nat) (g : Furrow → Furrow) : (s.modFurrow f g).domains = s.domains := rfl
@[simp] theorem State.modFurrow_fabOps (f : Nat) (g : Furrow → Furrow) : (s.modFurrow f g).fabOps = s.fabOps := rfl
@[simp] theorem State.modFurrow_closedTags (f : Nat) (g : Furrow → Furrow) : (s.modFurrow f g).closedTags = s.closedTags := rfl
@[simp] theorem State.modFurrow_nextTag (f : Nat) (g : Furrow → Furrow) : (s.modFurrow f g).nextTag = s.nextTag := rfl
@[simp] theorem State.modFurrow_tx (f : Nat) (g : Furrow → Furrow) : (s.modFurrow f g).tx = s.tx := rfl
@[simp] theorem State.modFurrow_rx (f : Nat) (g : Furrow → Furrow) : (s.modFurrow f g).rx = s.rx := rfl
@[simp] theorem State.modFurrow_arrived (f : Nat) (g : Furrow → Furrow) : (s.modFurrow f g).arrived = s.arrived := rfl
@[simp] theorem State.modFurrow_answers (f : Nat) (g : Furrow → Furrow) : (s.modFurrow f g).answers = s.answers := rfl
@[simp] theorem State.modFurrow_refusalTimes (f : Nat) (g : Furrow → Furrow) : (s.modFurrow f g).refusalTimes = s.refusalTimes := rfl
@[simp] theorem State.modFurrow_spread (f : Nat) (g : Furrow → Furrow) : (s.modFurrow f g).spread = s.spread := rfl
@[simp] theorem State.modFurrow_stt (f : Nat) (g : Furrow → Furrow) : (s.modFurrow f g).stt = s.stt := rfl
@[simp] theorem State.modFurrow_groups (f : Nat) (g : Furrow → Furrow) : (s.modFurrow f g).groups = s.groups := rfl
@[simp] theorem State.modFurrow_abortFilter (f : Nat) (g : Furrow → Furrow) : (s.modFurrow f g).abortFilter = s.abortFilter := rfl
@[simp] theorem State.modFurrow_ports (f : Nat) (g : Furrow → Furrow) : (s.modFurrow f g).ports = s.ports := rfl
@[simp] theorem State.modFurrow_reasm (f : Nat) (g : Furrow → Furrow) : (s.modFurrow f g).reasm = s.reasm := rfl
@[simp] theorem State.modFurrow_arrays (f : Nat) (g : Furrow → Furrow) : (s.modFurrow f g).arrays = s.arrays := rfl
@[simp] theorem State.modFurrow_winnow (f : Nat) (g : Furrow → Furrow) : (s.modFurrow f g).winnow = s.winnow := rfl
@[simp] theorem State.modFurrow_sieve (f : Nat) (g : Furrow → Furrow) : (s.modFurrow f g).sieve = s.sieve := rfl
@[simp] theorem State.modFurrow_jobs (f : Nat) (g : Furrow → Furrow) : (s.modFurrow f g).jobs = s.jobs := rfl
@[simp] theorem State.modFurrow_rowSenders (f : Nat) (g : Furrow → Furrow) : (s.modFurrow f g).rowSenders = s.rowSenders := rfl
@[simp] theorem State.modFurrow_exchanges (f : Nat) (g : Furrow → Furrow) : (s.modFurrow f g).exchanges = s.exchanges := rfl
@[simp] theorem State.modFurrow_adoptions (f : Nat) (g : Furrow → Furrow) : (s.modFurrow f g).adoptions = s.adoptions := rfl
@[simp] theorem State.modFurrow_pushes (f : Nat) (g : Furrow → Furrow) : (s.modFurrow f g).pushes = s.pushes := rfl
@[simp] theorem State.modFurrow_deltas (f : Nat) (g : Furrow → Furrow) : (s.modFurrow f g).deltas = s.deltas := rfl
@[simp] theorem State.modFurrow_rebuilds (f : Nat) (g : Furrow → Furrow) : (s.modFurrow f g).rebuilds = s.rebuilds := rfl
@[simp] theorem State.modFurrow_resolving (f : Nat) (g : Furrow → Furrow) : (s.modFurrow f g).resolving = s.resolving := rfl
@[simp] theorem State.modFurrow_reeves (f : Nat) (g : Furrow → Furrow) : (s.modFurrow f g).reeves = s.reeves := rfl
@[simp] theorem State.modFurrow_turningOn (f : Nat) (g : Furrow → Furrow) : (s.modFurrow f g).turningOn = s.turningOn := rfl
@[simp] theorem State.modFurrow_onWaiting (f : Nat) (g : Furrow → Furrow) : (s.modFurrow f g).onWaiting = s.onWaiting := rfl
@[simp] theorem State.modFurrow_binSample (f : Nat) (g : Furrow → Furrow) : (s.modFurrow f g).binSample = s.binSample := rfl
@[simp] theorem State.modFurrow_binEvents (f : Nat) (g : Furrow → Furrow) : (s.modFurrow f g).binEvents = s.binEvents := rfl
@[simp] theorem State.modFurrow_scrubbed (f : Nat) (g : Furrow → Furrow) : (s.modFurrow f g).scrubbed = s.scrubbed := rfl
@[simp] theorem State.modFurrow_scrubFixed (f : Nat) (g : Furrow → Furrow) : (s.modFurrow f g).scrubFixed = s.scrubFixed := rfl
@[simp] theorem State.modFurrow_scrubPoisoned (f : Nat) (g : Furrow → Furrow) : (s.modFurrow f g).scrubPoisoned = s.scrubPoisoned := rfl
@[simp] theorem State.modFurrow_corrected (f : Nat) (g : Furrow → Furrow) : (s.modFurrow f g).corrected = s.corrected := rfl
@[simp] theorem State.modFurrow_rowErrors (f : Nat) (g : Furrow → Furrow) : (s.modFurrow f g).rowErrors = s.rowErrors := rfl
@[simp] theorem State.modFurrow_rowsDue (f : Nat) (g : Furrow → Furrow) : (s.modFurrow f g).rowsDue = s.rowsDue := rfl
@[simp] theorem State.modFurrow_migrating (f : Nat) (g : Furrow → Furrow) : (s.modFurrow f g).migrating = s.migrating := rfl
@[simp] theorem State.modFurrow_spareChannels (f : Nat) (g : Furrow → Furrow) : (s.modFurrow f g).spareChannels = s.spareChannels := rfl
@[simp] theorem State.modFurrow_trendFeed (f : Nat) (g : Furrow → Furrow) : (s.modFurrow f g).trendFeed = s.trendFeed := rfl
@[simp] theorem State.modFurrow_almanac (f : Nat) (g : Furrow → Furrow) : (s.modFurrow f g).almanac = s.almanac := rfl
@[simp] theorem State.modFurrow_harts (f : Nat) (g : Furrow → Furrow) : (s.modFurrow f g).harts = s.harts := rfl
@[simp] theorem State.modFurrow_hartFrom (f : Nat) (g : Furrow → Furrow) : (s.modFurrow f g).hartFrom = s.hartFrom := rfl
@[simp] theorem State.modFurrow_started (f : Nat) (g : Furrow → Furrow) : (s.modFurrow f g).started = s.started := rfl
@[simp] theorem State.modFurrow_plic (f : Nat) (g : Furrow → Furrow) : (s.modFurrow f g).plic = s.plic := rfl
@[simp] theorem State.modFurrow_l2 (f : Nat) (g : Furrow → Furrow) : (s.modFurrow f g).l2 = s.l2 := rfl
@[simp] theorem State.modFurrow_l3 (f : Nat) (g : Furrow → Furrow) : (s.modFurrow f g).l3 = s.l3 := rfl
@[simp] theorem State.modFurrow_coreTraps (f : Nat) (g : Furrow → Furrow) : (s.modFurrow f g).coreTraps = s.coreTraps := rfl
@[simp] theorem State.modFurrow_beatAt (f : Nat) (g : Furrow → Furrow) : (s.modFurrow f g).beatAt = s.beatAt := rfl
@[simp] theorem State.modFurrow_beatSince (f : Nat) (g : Furrow → Furrow) : (s.modFurrow f g).beatSince = s.beatSince := rfl
@[simp] theorem State.modFurrow_sessions (f : Nat) (g : Furrow → Furrow) : (s.modFurrow f g).sessions = s.sessions := rfl
@[simp] theorem State.modFurrow_snapped (f : Nat) (g : Furrow → Furrow) : (s.modFurrow f g).snapped = s.snapped := rfl
@[simp] theorem State.modFurrow_hmpSent (f : Nat) (g : Furrow → Furrow) : (s.modFurrow f g).hmpSent = s.hmpSent := rfl
@[simp] theorem State.modFurrow_snapshots (f : Nat) (g : Furrow → Furrow) : (s.modFurrow f g).snapshots = s.snapshots := rfl
@[simp] theorem State.modFurrow_handshakeFails (f : Nat) (g : Furrow → Furrow) : (s.modFurrow f g).handshakeFails = s.handshakeFails := rfl
@[simp] theorem State.modFurrow_handshakeRec (f : Nat) (g : Furrow → Furrow) : (s.modFurrow f g).handshakeRec = s.handshakeRec := rfl
@[simp] theorem State.modFurrow_osDigests (f : Nat) (g : Furrow → Furrow) : (s.modFurrow f g).osDigests = s.osDigests := rfl
@[simp] theorem State.modFurrow_sowerDigests (f : Nat) (g : Furrow → Furrow) : (s.modFurrow f g).sowerDigests = s.sowerDigests := rfl
@[simp] theorem State.modFurrow_secQueue (f : Nat) (g : Furrow → Furrow) : (s.modFurrow f g).secQueue = s.secQueue := rfl
@[simp] theorem State.modFurrow_trees (f : Nat) (g : Furrow → Furrow) : (s.modFurrow f g).trees = s.trees := rfl
@[simp] theorem State.modFurrow_drawn (f : Nat) (g : Furrow → Furrow) : (s.modFurrow f g).drawn = s.drawn := rfl
@[simp] theorem State.modFurrow_recovery (f : Nat) (g : Furrow → Furrow) : (s.modFurrow f g).recovery = s.recovery := rfl
@[simp] theorem State.modFurrow_mgmtNet (f : Nat) (g : Furrow → Furrow) : (s.modFurrow f g).mgmtNet = s.mgmtNet := rfl
@[simp] theorem State.modFurrow_versions (f : Nat) (g : Furrow → Furrow) : (s.modFurrow f g).versions = s.versions := rfl
@[simp] theorem State.modFurrow_minimal (f : Nat) (g : Furrow → Furrow) : (s.modFurrow f g).minimal = s.minimal := rfl
@[simp] theorem State.modFurrow_rails (f : Nat) (g : Furrow → Furrow) : (s.modFurrow f g).rails = s.rails := rfl
@[simp] theorem State.modFurrow_railBad (f : Nat) (g : Furrow → Furrow) : (s.modFurrow f g).railBad = s.railBad := rfl
@[simp] theorem State.modFurrow_estimates (f : Nat) (g : Furrow → Furrow) : (s.modFurrow f g).estimates = s.estimates := rfl
@[simp] theorem State.modFurrow_calibration (f : Nat) (g : Furrow → Furrow) : (s.modFurrow f g).calibration = s.calibration := rfl
@[simp] theorem State.modFurrow_domDuty (f : Nat) (g : Furrow → Furrow) : (s.modFurrow f g).domDuty = s.domDuty := rfl
@[simp] theorem State.modFurrow_sliceDuty (f : Nat) (g : Furrow → Furrow) : (s.modFurrow f g).sliceDuty = s.sliceDuty := rfl
@[simp] theorem State.modFurrow_pkgDuty (f : Nat) (g : Furrow → Furrow) : (s.modFurrow f g).pkgDuty = s.pkgDuty := rfl
@[simp] theorem State.modFurrow_pkgSlow (f : Nat) (g : Furrow → Furrow) : (s.modFurrow f g).pkgSlow = s.pkgSlow := rfl
@[simp] theorem State.modFurrow_heatSlow (f : Nat) (g : Furrow → Furrow) : (s.modFurrow f g).heatSlow = s.heatSlow := rfl
@[simp] theorem State.modFurrow_coolSince (f : Nat) (g : Furrow → Furrow) : (s.modFurrow f g).coolSince = s.coolSince := rfl
@[simp] theorem State.modFurrow_pkgStepAt (f : Nat) (g : Furrow → Furrow) : (s.modFurrow f g).pkgStepAt = s.pkgStepAt := rfl
@[simp] theorem State.modFurrow_trips (f : Nat) (g : Furrow → Furrow) : (s.modFurrow f g).trips = s.trips := rfl
@[simp] theorem State.modFurrow_slowSince (f : Nat) (g : Furrow → Furrow) : (s.modFurrow f g).slowSince = s.slowSince := rfl
@[simp] theorem State.modFurrow_powerRec (f : Nat) (g : Furrow → Furrow) : (s.modFurrow f g).powerRec = s.powerRec := rfl
@[simp] theorem State.modFurrow_refreshed (f : Nat) (g : Furrow → Furrow) : (s.modFurrow f g).refreshed = s.refreshed := rfl
@[simp] theorem State.modFurrow_ahead (f : Nat) (g : Furrow → Furrow) : (s.modFurrow f g).ahead = s.ahead := rfl
@[simp] theorem State.modFurrow_bootImages (f : Nat) (g : Furrow → Furrow) : (s.modFurrow f g).bootImages = s.bootImages := rfl

/-! ### `State.modUnit` -/

@[simp] theorem State.modUnit_pending (u : UnitId) (g : UnitState → UnitState) : (s.modUnit u g).pending = s.pending := rfl
@[simp] theorem State.modUnit_powered (u : UnitId) (g : UnitState → UnitState) : (s.modUnit u g).powered = s.powered := rfl
@[simp] theorem State.modUnit_time (u : UnitId) (g : UnitState → UnitState) : (s.modUnit u g).time = s.time := rfl
@[simp] theorem State.modUnit_timeHold (u : UnitId) (g : UnitState → UnitState) : (s.modUnit u g).timeHold = s.timeHold := rfl
@[simp] theorem State.modUnit_steeredAt (u : UnitId) (g : UnitState → UnitState) : (s.modUnit u g).steeredAt = s.steeredAt := rfl
@[simp] theorem State.modUnit_aged (u : UnitId) (g : UnitState → UnitState) : (s.modUnit u g).aged = s.aged := rfl
@[simp] theorem State.modUnit_paced (u : UnitId) (g : UnitState → UnitState) : (s.modUnit u g).paced = s.paced := rfl
@[simp] theorem State.modUnit_leases (u : UnitId) (g : UnitState → UnitState) : (s.modUnit u g).leases = s.leases := rfl
@[simp] theorem State.modUnit_freeCount (u : UnitId) (g : UnitState → UnitState) : (s.modUnit u g).freeCount = s.freeCount := rfl
@[simp] theorem State.modUnit_nextId (u : UnitId) (g : UnitState → UnitState) : (s.modUnit u g).nextId = s.nextId := rfl
@[simp] theorem State.modUnit_csr (u : UnitId) (g : UnitState → UnitState) : (s.modUnit u g).csr = s.csr := rfl
@[simp] theorem State.modUnit_csrData (u : UnitId) (g : UnitState → UnitState) : (s.modUnit u g).csrData = s.csrData := rfl
@[simp] theorem State.modUnit_msgLatch (u : UnitId) (g : UnitState → UnitState) : (s.modUnit u g).msgLatch = s.msgLatch := rfl
@[simp] theorem State.modUnit_measLatch (u : UnitId) (g : UnitState → UnitState) : (s.modUnit u g).measLatch = s.measLatch := rfl
@[simp] theorem State.modUnit_mem (u : UnitId) (g : UnitState → UnitState) : (s.modUnit u g).mem = s.mem := rfl
@[simp] theorem State.modUnit_desc (u : UnitId) (g : UnitState → UnitState) : (s.modUnit u g).desc = s.desc := rfl
@[simp] theorem State.modUnit_spareRows (u : UnitId) (g : UnitState → UnitState) : (s.modUnit u g).spareRows = s.spareRows := rfl
@[simp] theorem State.modUnit_zeroing (u : UnitId) (g : UnitState → UnitState) : (s.modUnit u g).zeroing = s.zeroing := rfl
@[simp] theorem State.modUnit_retired (u : UnitId) (g : UnitState → UnitState) : (s.modUnit u g).retired = s.retired := rfl
@[simp] theorem State.modUnit_sysFrames (u : UnitId) (g : UnitState → UnitState) : (s.modUnit u g).sysFrames = s.sysFrames := rfl
@[simp] theorem State.modUnit_cbFrames (u : UnitId) (g : UnitState → UnitState) : (s.modUnit u g).cbFrames = s.cbFrames := rfl
@[simp] theorem State.modUnit_lastGroup (u : UnitId) (g : UnitState → UnitState) : (s.modUnit u g).lastGroup = s.lastGroup := rfl
@[simp] theorem State.modUnit_demoting (u : UnitId) (g : UnitState → UnitState) : (s.modUnit u g).demoting = s.demoting := rfl
@[simp] theorem State.modUnit_evicting (u : UnitId) (g : UnitState → UnitState) : (s.modUnit u g).evicting = s.evicting := rfl
@[simp] theorem State.modUnit_furrows (u : UnitId) (g : UnitState → UnitState) : (s.modUnit u g).furrows = s.furrows := rfl
@[simp] theorem State.modUnit_sheaf (u : UnitId) (g : UnitState → UnitState) : (s.modUnit u g).sheaf = s.sheaf := rfl
@[simp] theorem State.modUnit_batchTag (u : UnitId) (g : UnitState → UnitState) : (s.modUnit u g).batchTag = s.batchTag := rfl
@[simp] theorem State.modUnit_walks (u : UnitId) (g : UnitState → UnitState) : (s.modUnit u g).walks = s.walks := rfl
@[simp] theorem State.modUnit_deferred (u : UnitId) (g : UnitState → UnitState) : (s.modUnit u g).deferred = s.deferred := rfl
@[simp] theorem State.modUnit_fallowTails (u : UnitId) (g : UnitState → UnitState) : (s.modUnit u g).fallowTails = s.fallowTails := rfl
@[simp] theorem State.modUnit_almQueue (u : UnitId) (g : UnitState → UnitState) : (s.modUnit u g).almQueue = s.almQueue := rfl
@[simp] theorem State.modUnit_almDrops (u : UnitId) (g : UnitState → UnitState) : (s.modUnit u g).almDrops = s.almDrops := rfl
@[simp] theorem State.modUnit_irqs (u : UnitId) (g : UnitState → UnitState) : (s.modUnit u g).irqs = s.irqs := rfl
@[simp] theorem State.modUnit_reeveMsgs (u : UnitId) (g : UnitState → UnitState) : (s.modUnit u g).reeveMsgs = s.reeveMsgs := rfl
@[simp] theorem State.modUnit_domains (u : UnitId) (g : UnitState → UnitState) : (s.modUnit u g).domains = s.domains := rfl
@[simp] theorem State.modUnit_fabOps (u : UnitId) (g : UnitState → UnitState) : (s.modUnit u g).fabOps = s.fabOps := rfl
@[simp] theorem State.modUnit_closedTags (u : UnitId) (g : UnitState → UnitState) : (s.modUnit u g).closedTags = s.closedTags := rfl
@[simp] theorem State.modUnit_nextTag (u : UnitId) (g : UnitState → UnitState) : (s.modUnit u g).nextTag = s.nextTag := rfl
@[simp] theorem State.modUnit_tx (u : UnitId) (g : UnitState → UnitState) : (s.modUnit u g).tx = s.tx := rfl
@[simp] theorem State.modUnit_rx (u : UnitId) (g : UnitState → UnitState) : (s.modUnit u g).rx = s.rx := rfl
@[simp] theorem State.modUnit_arrived (u : UnitId) (g : UnitState → UnitState) : (s.modUnit u g).arrived = s.arrived := rfl
@[simp] theorem State.modUnit_answers (u : UnitId) (g : UnitState → UnitState) : (s.modUnit u g).answers = s.answers := rfl
@[simp] theorem State.modUnit_refusalTimes (u : UnitId) (g : UnitState → UnitState) : (s.modUnit u g).refusalTimes = s.refusalTimes := rfl
@[simp] theorem State.modUnit_spread (u : UnitId) (g : UnitState → UnitState) : (s.modUnit u g).spread = s.spread := rfl
@[simp] theorem State.modUnit_stt (u : UnitId) (g : UnitState → UnitState) : (s.modUnit u g).stt = s.stt := rfl
@[simp] theorem State.modUnit_groups (u : UnitId) (g : UnitState → UnitState) : (s.modUnit u g).groups = s.groups := rfl
@[simp] theorem State.modUnit_abortFilter (u : UnitId) (g : UnitState → UnitState) : (s.modUnit u g).abortFilter = s.abortFilter := rfl
@[simp] theorem State.modUnit_ports (u : UnitId) (g : UnitState → UnitState) : (s.modUnit u g).ports = s.ports := rfl
@[simp] theorem State.modUnit_reasm (u : UnitId) (g : UnitState → UnitState) : (s.modUnit u g).reasm = s.reasm := rfl
@[simp] theorem State.modUnit_arrays (u : UnitId) (g : UnitState → UnitState) : (s.modUnit u g).arrays = s.arrays := rfl
@[simp] theorem State.modUnit_winnow (u : UnitId) (g : UnitState → UnitState) : (s.modUnit u g).winnow = s.winnow := rfl
@[simp] theorem State.modUnit_sieve (u : UnitId) (g : UnitState → UnitState) : (s.modUnit u g).sieve = s.sieve := rfl
@[simp] theorem State.modUnit_jobs (u : UnitId) (g : UnitState → UnitState) : (s.modUnit u g).jobs = s.jobs := rfl
@[simp] theorem State.modUnit_rowSenders (u : UnitId) (g : UnitState → UnitState) : (s.modUnit u g).rowSenders = s.rowSenders := rfl
@[simp] theorem State.modUnit_exchanges (u : UnitId) (g : UnitState → UnitState) : (s.modUnit u g).exchanges = s.exchanges := rfl
@[simp] theorem State.modUnit_adoptions (u : UnitId) (g : UnitState → UnitState) : (s.modUnit u g).adoptions = s.adoptions := rfl
@[simp] theorem State.modUnit_pushes (u : UnitId) (g : UnitState → UnitState) : (s.modUnit u g).pushes = s.pushes := rfl
@[simp] theorem State.modUnit_deltas (u : UnitId) (g : UnitState → UnitState) : (s.modUnit u g).deltas = s.deltas := rfl
@[simp] theorem State.modUnit_rebuilds (u : UnitId) (g : UnitState → UnitState) : (s.modUnit u g).rebuilds = s.rebuilds := rfl
@[simp] theorem State.modUnit_resolving (u : UnitId) (g : UnitState → UnitState) : (s.modUnit u g).resolving = s.resolving := rfl
@[simp] theorem State.modUnit_reeves (u : UnitId) (g : UnitState → UnitState) : (s.modUnit u g).reeves = s.reeves := rfl
@[simp] theorem State.modUnit_turningOn (u : UnitId) (g : UnitState → UnitState) : (s.modUnit u g).turningOn = s.turningOn := rfl
@[simp] theorem State.modUnit_onWaiting (u : UnitId) (g : UnitState → UnitState) : (s.modUnit u g).onWaiting = s.onWaiting := rfl
@[simp] theorem State.modUnit_binSample (u : UnitId) (g : UnitState → UnitState) : (s.modUnit u g).binSample = s.binSample := rfl
@[simp] theorem State.modUnit_binEvents (u : UnitId) (g : UnitState → UnitState) : (s.modUnit u g).binEvents = s.binEvents := rfl
@[simp] theorem State.modUnit_scrubbed (u : UnitId) (g : UnitState → UnitState) : (s.modUnit u g).scrubbed = s.scrubbed := rfl
@[simp] theorem State.modUnit_scrubFixed (u : UnitId) (g : UnitState → UnitState) : (s.modUnit u g).scrubFixed = s.scrubFixed := rfl
@[simp] theorem State.modUnit_scrubPoisoned (u : UnitId) (g : UnitState → UnitState) : (s.modUnit u g).scrubPoisoned = s.scrubPoisoned := rfl
@[simp] theorem State.modUnit_corrected (u : UnitId) (g : UnitState → UnitState) : (s.modUnit u g).corrected = s.corrected := rfl
@[simp] theorem State.modUnit_rowErrors (u : UnitId) (g : UnitState → UnitState) : (s.modUnit u g).rowErrors = s.rowErrors := rfl
@[simp] theorem State.modUnit_rowsDue (u : UnitId) (g : UnitState → UnitState) : (s.modUnit u g).rowsDue = s.rowsDue := rfl
@[simp] theorem State.modUnit_migrating (u : UnitId) (g : UnitState → UnitState) : (s.modUnit u g).migrating = s.migrating := rfl
@[simp] theorem State.modUnit_spareChannels (u : UnitId) (g : UnitState → UnitState) : (s.modUnit u g).spareChannels = s.spareChannels := rfl
@[simp] theorem State.modUnit_trendFeed (u : UnitId) (g : UnitState → UnitState) : (s.modUnit u g).trendFeed = s.trendFeed := rfl
@[simp] theorem State.modUnit_almanac (u : UnitId) (g : UnitState → UnitState) : (s.modUnit u g).almanac = s.almanac := rfl
@[simp] theorem State.modUnit_harts (u : UnitId) (g : UnitState → UnitState) : (s.modUnit u g).harts = s.harts := rfl
@[simp] theorem State.modUnit_hartFrom (u : UnitId) (g : UnitState → UnitState) : (s.modUnit u g).hartFrom = s.hartFrom := rfl
@[simp] theorem State.modUnit_started (u : UnitId) (g : UnitState → UnitState) : (s.modUnit u g).started = s.started := rfl
@[simp] theorem State.modUnit_plic (u : UnitId) (g : UnitState → UnitState) : (s.modUnit u g).plic = s.plic := rfl
@[simp] theorem State.modUnit_l2 (u : UnitId) (g : UnitState → UnitState) : (s.modUnit u g).l2 = s.l2 := rfl
@[simp] theorem State.modUnit_l3 (u : UnitId) (g : UnitState → UnitState) : (s.modUnit u g).l3 = s.l3 := rfl
@[simp] theorem State.modUnit_coreTraps (u : UnitId) (g : UnitState → UnitState) : (s.modUnit u g).coreTraps = s.coreTraps := rfl
@[simp] theorem State.modUnit_beatAt (u : UnitId) (g : UnitState → UnitState) : (s.modUnit u g).beatAt = s.beatAt := rfl
@[simp] theorem State.modUnit_beatSince (u : UnitId) (g : UnitState → UnitState) : (s.modUnit u g).beatSince = s.beatSince := rfl
@[simp] theorem State.modUnit_sessions (u : UnitId) (g : UnitState → UnitState) : (s.modUnit u g).sessions = s.sessions := rfl
@[simp] theorem State.modUnit_snapped (u : UnitId) (g : UnitState → UnitState) : (s.modUnit u g).snapped = s.snapped := rfl
@[simp] theorem State.modUnit_hmpSent (u : UnitId) (g : UnitState → UnitState) : (s.modUnit u g).hmpSent = s.hmpSent := rfl
@[simp] theorem State.modUnit_snapshots (u : UnitId) (g : UnitState → UnitState) : (s.modUnit u g).snapshots = s.snapshots := rfl
@[simp] theorem State.modUnit_handshakeFails (u : UnitId) (g : UnitState → UnitState) : (s.modUnit u g).handshakeFails = s.handshakeFails := rfl
@[simp] theorem State.modUnit_handshakeRec (u : UnitId) (g : UnitState → UnitState) : (s.modUnit u g).handshakeRec = s.handshakeRec := rfl
@[simp] theorem State.modUnit_osDigests (u : UnitId) (g : UnitState → UnitState) : (s.modUnit u g).osDigests = s.osDigests := rfl
@[simp] theorem State.modUnit_sowerDigests (u : UnitId) (g : UnitState → UnitState) : (s.modUnit u g).sowerDigests = s.sowerDigests := rfl
@[simp] theorem State.modUnit_secQueue (u : UnitId) (g : UnitState → UnitState) : (s.modUnit u g).secQueue = s.secQueue := rfl
@[simp] theorem State.modUnit_trees (u : UnitId) (g : UnitState → UnitState) : (s.modUnit u g).trees = s.trees := rfl
@[simp] theorem State.modUnit_drawn (u : UnitId) (g : UnitState → UnitState) : (s.modUnit u g).drawn = s.drawn := rfl
@[simp] theorem State.modUnit_recovery (u : UnitId) (g : UnitState → UnitState) : (s.modUnit u g).recovery = s.recovery := rfl
@[simp] theorem State.modUnit_mgmtNet (u : UnitId) (g : UnitState → UnitState) : (s.modUnit u g).mgmtNet = s.mgmtNet := rfl
@[simp] theorem State.modUnit_versions (u : UnitId) (g : UnitState → UnitState) : (s.modUnit u g).versions = s.versions := rfl
@[simp] theorem State.modUnit_minimal (u : UnitId) (g : UnitState → UnitState) : (s.modUnit u g).minimal = s.minimal := rfl
@[simp] theorem State.modUnit_rails (u : UnitId) (g : UnitState → UnitState) : (s.modUnit u g).rails = s.rails := rfl
@[simp] theorem State.modUnit_railBad (u : UnitId) (g : UnitState → UnitState) : (s.modUnit u g).railBad = s.railBad := rfl
@[simp] theorem State.modUnit_estimates (u : UnitId) (g : UnitState → UnitState) : (s.modUnit u g).estimates = s.estimates := rfl
@[simp] theorem State.modUnit_calibration (u : UnitId) (g : UnitState → UnitState) : (s.modUnit u g).calibration = s.calibration := rfl
@[simp] theorem State.modUnit_domDuty (u : UnitId) (g : UnitState → UnitState) : (s.modUnit u g).domDuty = s.domDuty := rfl
@[simp] theorem State.modUnit_sliceDuty (u : UnitId) (g : UnitState → UnitState) : (s.modUnit u g).sliceDuty = s.sliceDuty := rfl
@[simp] theorem State.modUnit_pkgDuty (u : UnitId) (g : UnitState → UnitState) : (s.modUnit u g).pkgDuty = s.pkgDuty := rfl
@[simp] theorem State.modUnit_pkgSlow (u : UnitId) (g : UnitState → UnitState) : (s.modUnit u g).pkgSlow = s.pkgSlow := rfl
@[simp] theorem State.modUnit_heatSlow (u : UnitId) (g : UnitState → UnitState) : (s.modUnit u g).heatSlow = s.heatSlow := rfl
@[simp] theorem State.modUnit_coolSince (u : UnitId) (g : UnitState → UnitState) : (s.modUnit u g).coolSince = s.coolSince := rfl
@[simp] theorem State.modUnit_pkgStepAt (u : UnitId) (g : UnitState → UnitState) : (s.modUnit u g).pkgStepAt = s.pkgStepAt := rfl
@[simp] theorem State.modUnit_trips (u : UnitId) (g : UnitState → UnitState) : (s.modUnit u g).trips = s.trips := rfl
@[simp] theorem State.modUnit_slowSince (u : UnitId) (g : UnitState → UnitState) : (s.modUnit u g).slowSince = s.slowSince := rfl
@[simp] theorem State.modUnit_powerRec (u : UnitId) (g : UnitState → UnitState) : (s.modUnit u g).powerRec = s.powerRec := rfl
@[simp] theorem State.modUnit_refreshed (u : UnitId) (g : UnitState → UnitState) : (s.modUnit u g).refreshed = s.refreshed := rfl
@[simp] theorem State.modUnit_ahead (u : UnitId) (g : UnitState → UnitState) : (s.modUnit u g).ahead = s.ahead := rfl
@[simp] theorem State.modUnit_bootImages (u : UnitId) (g : UnitState → UnitState) : (s.modUnit u g).bootImages = s.bootImages := rfl

/-! ### `State.setEntry` -/

@[simp] theorem State.setEntry_pending (i : Nat) (e : SheafEntry) : (s.setEntry i e).pending = s.pending := rfl
@[simp] theorem State.setEntry_powered (i : Nat) (e : SheafEntry) : (s.setEntry i e).powered = s.powered := rfl
@[simp] theorem State.setEntry_time (i : Nat) (e : SheafEntry) : (s.setEntry i e).time = s.time := rfl
@[simp] theorem State.setEntry_timeHold (i : Nat) (e : SheafEntry) : (s.setEntry i e).timeHold = s.timeHold := rfl
@[simp] theorem State.setEntry_steeredAt (i : Nat) (e : SheafEntry) : (s.setEntry i e).steeredAt = s.steeredAt := rfl
@[simp] theorem State.setEntry_aged (i : Nat) (e : SheafEntry) : (s.setEntry i e).aged = s.aged := rfl
@[simp] theorem State.setEntry_paced (i : Nat) (e : SheafEntry) : (s.setEntry i e).paced = s.paced := rfl
@[simp] theorem State.setEntry_leases (i : Nat) (e : SheafEntry) : (s.setEntry i e).leases = s.leases := rfl
@[simp] theorem State.setEntry_freeCount (i : Nat) (e : SheafEntry) : (s.setEntry i e).freeCount = s.freeCount := rfl
@[simp] theorem State.setEntry_nextId (i : Nat) (e : SheafEntry) : (s.setEntry i e).nextId = s.nextId := rfl
@[simp] theorem State.setEntry_csr (i : Nat) (e : SheafEntry) : (s.setEntry i e).csr = s.csr := rfl
@[simp] theorem State.setEntry_csrData (i : Nat) (e : SheafEntry) : (s.setEntry i e).csrData = s.csrData := rfl
@[simp] theorem State.setEntry_msgLatch (i : Nat) (e : SheafEntry) : (s.setEntry i e).msgLatch = s.msgLatch := rfl
@[simp] theorem State.setEntry_measLatch (i : Nat) (e : SheafEntry) : (s.setEntry i e).measLatch = s.measLatch := rfl
@[simp] theorem State.setEntry_mem (i : Nat) (e : SheafEntry) : (s.setEntry i e).mem = s.mem := rfl
@[simp] theorem State.setEntry_desc (i : Nat) (e : SheafEntry) : (s.setEntry i e).desc = s.desc := rfl
@[simp] theorem State.setEntry_spareRows (i : Nat) (e : SheafEntry) : (s.setEntry i e).spareRows = s.spareRows := rfl
@[simp] theorem State.setEntry_zeroing (i : Nat) (e : SheafEntry) : (s.setEntry i e).zeroing = s.zeroing := rfl
@[simp] theorem State.setEntry_retired (i : Nat) (e : SheafEntry) : (s.setEntry i e).retired = s.retired := rfl
@[simp] theorem State.setEntry_sysFrames (i : Nat) (e : SheafEntry) : (s.setEntry i e).sysFrames = s.sysFrames := rfl
@[simp] theorem State.setEntry_cbFrames (i : Nat) (e : SheafEntry) : (s.setEntry i e).cbFrames = s.cbFrames := rfl
@[simp] theorem State.setEntry_lastGroup (i : Nat) (e : SheafEntry) : (s.setEntry i e).lastGroup = s.lastGroup := rfl
@[simp] theorem State.setEntry_demoting (i : Nat) (e : SheafEntry) : (s.setEntry i e).demoting = s.demoting := rfl
@[simp] theorem State.setEntry_evicting (i : Nat) (e : SheafEntry) : (s.setEntry i e).evicting = s.evicting := rfl
@[simp] theorem State.setEntry_furrows (i : Nat) (e : SheafEntry) : (s.setEntry i e).furrows = s.furrows := rfl
@[simp] theorem State.setEntry_batchTag (i : Nat) (e : SheafEntry) : (s.setEntry i e).batchTag = s.batchTag := rfl
@[simp] theorem State.setEntry_walks (i : Nat) (e : SheafEntry) : (s.setEntry i e).walks = s.walks := rfl
@[simp] theorem State.setEntry_deferred (i : Nat) (e : SheafEntry) : (s.setEntry i e).deferred = s.deferred := rfl
@[simp] theorem State.setEntry_fallowTails (i : Nat) (e : SheafEntry) : (s.setEntry i e).fallowTails = s.fallowTails := rfl
@[simp] theorem State.setEntry_units (i : Nat) (e : SheafEntry) : (s.setEntry i e).units = s.units := rfl
@[simp] theorem State.setEntry_almQueue (i : Nat) (e : SheafEntry) : (s.setEntry i e).almQueue = s.almQueue := rfl
@[simp] theorem State.setEntry_almDrops (i : Nat) (e : SheafEntry) : (s.setEntry i e).almDrops = s.almDrops := rfl
@[simp] theorem State.setEntry_irqs (i : Nat) (e : SheafEntry) : (s.setEntry i e).irqs = s.irqs := rfl
@[simp] theorem State.setEntry_reeveMsgs (i : Nat) (e : SheafEntry) : (s.setEntry i e).reeveMsgs = s.reeveMsgs := rfl
@[simp] theorem State.setEntry_domains (i : Nat) (e : SheafEntry) : (s.setEntry i e).domains = s.domains := rfl
@[simp] theorem State.setEntry_fabOps (i : Nat) (e : SheafEntry) : (s.setEntry i e).fabOps = s.fabOps := rfl
@[simp] theorem State.setEntry_closedTags (i : Nat) (e : SheafEntry) : (s.setEntry i e).closedTags = s.closedTags := rfl
@[simp] theorem State.setEntry_nextTag (i : Nat) (e : SheafEntry) : (s.setEntry i e).nextTag = s.nextTag := rfl
@[simp] theorem State.setEntry_tx (i : Nat) (e : SheafEntry) : (s.setEntry i e).tx = s.tx := rfl
@[simp] theorem State.setEntry_rx (i : Nat) (e : SheafEntry) : (s.setEntry i e).rx = s.rx := rfl
@[simp] theorem State.setEntry_arrived (i : Nat) (e : SheafEntry) : (s.setEntry i e).arrived = s.arrived := rfl
@[simp] theorem State.setEntry_answers (i : Nat) (e : SheafEntry) : (s.setEntry i e).answers = s.answers := rfl
@[simp] theorem State.setEntry_refusalTimes (i : Nat) (e : SheafEntry) : (s.setEntry i e).refusalTimes = s.refusalTimes := rfl
@[simp] theorem State.setEntry_spread (i : Nat) (e : SheafEntry) : (s.setEntry i e).spread = s.spread := rfl
@[simp] theorem State.setEntry_stt (i : Nat) (e : SheafEntry) : (s.setEntry i e).stt = s.stt := rfl
@[simp] theorem State.setEntry_groups (i : Nat) (e : SheafEntry) : (s.setEntry i e).groups = s.groups := rfl
@[simp] theorem State.setEntry_abortFilter (i : Nat) (e : SheafEntry) : (s.setEntry i e).abortFilter = s.abortFilter := rfl
@[simp] theorem State.setEntry_ports (i : Nat) (e : SheafEntry) : (s.setEntry i e).ports = s.ports := rfl
@[simp] theorem State.setEntry_reasm (i : Nat) (e : SheafEntry) : (s.setEntry i e).reasm = s.reasm := rfl
@[simp] theorem State.setEntry_arrays (i : Nat) (e : SheafEntry) : (s.setEntry i e).arrays = s.arrays := rfl
@[simp] theorem State.setEntry_winnow (i : Nat) (e : SheafEntry) : (s.setEntry i e).winnow = s.winnow := rfl
@[simp] theorem State.setEntry_sieve (i : Nat) (e : SheafEntry) : (s.setEntry i e).sieve = s.sieve := rfl
@[simp] theorem State.setEntry_jobs (i : Nat) (e : SheafEntry) : (s.setEntry i e).jobs = s.jobs := rfl
@[simp] theorem State.setEntry_rowSenders (i : Nat) (e : SheafEntry) : (s.setEntry i e).rowSenders = s.rowSenders := rfl
@[simp] theorem State.setEntry_exchanges (i : Nat) (e : SheafEntry) : (s.setEntry i e).exchanges = s.exchanges := rfl
@[simp] theorem State.setEntry_adoptions (i : Nat) (e : SheafEntry) : (s.setEntry i e).adoptions = s.adoptions := rfl
@[simp] theorem State.setEntry_pushes (i : Nat) (e : SheafEntry) : (s.setEntry i e).pushes = s.pushes := rfl
@[simp] theorem State.setEntry_deltas (i : Nat) (e : SheafEntry) : (s.setEntry i e).deltas = s.deltas := rfl
@[simp] theorem State.setEntry_rebuilds (i : Nat) (e : SheafEntry) : (s.setEntry i e).rebuilds = s.rebuilds := rfl
@[simp] theorem State.setEntry_resolving (i : Nat) (e : SheafEntry) : (s.setEntry i e).resolving = s.resolving := rfl
@[simp] theorem State.setEntry_reeves (i : Nat) (e : SheafEntry) : (s.setEntry i e).reeves = s.reeves := rfl
@[simp] theorem State.setEntry_turningOn (i : Nat) (e : SheafEntry) : (s.setEntry i e).turningOn = s.turningOn := rfl
@[simp] theorem State.setEntry_onWaiting (i : Nat) (e : SheafEntry) : (s.setEntry i e).onWaiting = s.onWaiting := rfl
@[simp] theorem State.setEntry_binSample (i : Nat) (e : SheafEntry) : (s.setEntry i e).binSample = s.binSample := rfl
@[simp] theorem State.setEntry_binEvents (i : Nat) (e : SheafEntry) : (s.setEntry i e).binEvents = s.binEvents := rfl
@[simp] theorem State.setEntry_scrubbed (i : Nat) (e : SheafEntry) : (s.setEntry i e).scrubbed = s.scrubbed := rfl
@[simp] theorem State.setEntry_scrubFixed (i : Nat) (e : SheafEntry) : (s.setEntry i e).scrubFixed = s.scrubFixed := rfl
@[simp] theorem State.setEntry_scrubPoisoned (i : Nat) (e : SheafEntry) : (s.setEntry i e).scrubPoisoned = s.scrubPoisoned := rfl
@[simp] theorem State.setEntry_corrected (i : Nat) (e : SheafEntry) : (s.setEntry i e).corrected = s.corrected := rfl
@[simp] theorem State.setEntry_rowErrors (i : Nat) (e : SheafEntry) : (s.setEntry i e).rowErrors = s.rowErrors := rfl
@[simp] theorem State.setEntry_rowsDue (i : Nat) (e : SheafEntry) : (s.setEntry i e).rowsDue = s.rowsDue := rfl
@[simp] theorem State.setEntry_migrating (i : Nat) (e : SheafEntry) : (s.setEntry i e).migrating = s.migrating := rfl
@[simp] theorem State.setEntry_spareChannels (i : Nat) (e : SheafEntry) : (s.setEntry i e).spareChannels = s.spareChannels := rfl
@[simp] theorem State.setEntry_trendFeed (i : Nat) (e : SheafEntry) : (s.setEntry i e).trendFeed = s.trendFeed := rfl
@[simp] theorem State.setEntry_almanac (i : Nat) (e : SheafEntry) : (s.setEntry i e).almanac = s.almanac := rfl
@[simp] theorem State.setEntry_harts (i : Nat) (e : SheafEntry) : (s.setEntry i e).harts = s.harts := rfl
@[simp] theorem State.setEntry_hartFrom (i : Nat) (e : SheafEntry) : (s.setEntry i e).hartFrom = s.hartFrom := rfl
@[simp] theorem State.setEntry_started (i : Nat) (e : SheafEntry) : (s.setEntry i e).started = s.started := rfl
@[simp] theorem State.setEntry_plic (i : Nat) (e : SheafEntry) : (s.setEntry i e).plic = s.plic := rfl
@[simp] theorem State.setEntry_l2 (i : Nat) (e : SheafEntry) : (s.setEntry i e).l2 = s.l2 := rfl
@[simp] theorem State.setEntry_l3 (i : Nat) (e : SheafEntry) : (s.setEntry i e).l3 = s.l3 := rfl
@[simp] theorem State.setEntry_coreTraps (i : Nat) (e : SheafEntry) : (s.setEntry i e).coreTraps = s.coreTraps := rfl
@[simp] theorem State.setEntry_beatAt (i : Nat) (e : SheafEntry) : (s.setEntry i e).beatAt = s.beatAt := rfl
@[simp] theorem State.setEntry_beatSince (i : Nat) (e : SheafEntry) : (s.setEntry i e).beatSince = s.beatSince := rfl
@[simp] theorem State.setEntry_sessions (i : Nat) (e : SheafEntry) : (s.setEntry i e).sessions = s.sessions := rfl
@[simp] theorem State.setEntry_snapped (i : Nat) (e : SheafEntry) : (s.setEntry i e).snapped = s.snapped := rfl
@[simp] theorem State.setEntry_hmpSent (i : Nat) (e : SheafEntry) : (s.setEntry i e).hmpSent = s.hmpSent := rfl
@[simp] theorem State.setEntry_snapshots (i : Nat) (e : SheafEntry) : (s.setEntry i e).snapshots = s.snapshots := rfl
@[simp] theorem State.setEntry_handshakeFails (i : Nat) (e : SheafEntry) : (s.setEntry i e).handshakeFails = s.handshakeFails := rfl
@[simp] theorem State.setEntry_handshakeRec (i : Nat) (e : SheafEntry) : (s.setEntry i e).handshakeRec = s.handshakeRec := rfl
@[simp] theorem State.setEntry_osDigests (i : Nat) (e : SheafEntry) : (s.setEntry i e).osDigests = s.osDigests := rfl
@[simp] theorem State.setEntry_sowerDigests (i : Nat) (e : SheafEntry) : (s.setEntry i e).sowerDigests = s.sowerDigests := rfl
@[simp] theorem State.setEntry_secQueue (i : Nat) (e : SheafEntry) : (s.setEntry i e).secQueue = s.secQueue := rfl
@[simp] theorem State.setEntry_trees (i : Nat) (e : SheafEntry) : (s.setEntry i e).trees = s.trees := rfl
@[simp] theorem State.setEntry_drawn (i : Nat) (e : SheafEntry) : (s.setEntry i e).drawn = s.drawn := rfl
@[simp] theorem State.setEntry_recovery (i : Nat) (e : SheafEntry) : (s.setEntry i e).recovery = s.recovery := rfl
@[simp] theorem State.setEntry_mgmtNet (i : Nat) (e : SheafEntry) : (s.setEntry i e).mgmtNet = s.mgmtNet := rfl
@[simp] theorem State.setEntry_versions (i : Nat) (e : SheafEntry) : (s.setEntry i e).versions = s.versions := rfl
@[simp] theorem State.setEntry_minimal (i : Nat) (e : SheafEntry) : (s.setEntry i e).minimal = s.minimal := rfl
@[simp] theorem State.setEntry_rails (i : Nat) (e : SheafEntry) : (s.setEntry i e).rails = s.rails := rfl
@[simp] theorem State.setEntry_railBad (i : Nat) (e : SheafEntry) : (s.setEntry i e).railBad = s.railBad := rfl
@[simp] theorem State.setEntry_estimates (i : Nat) (e : SheafEntry) : (s.setEntry i e).estimates = s.estimates := rfl
@[simp] theorem State.setEntry_calibration (i : Nat) (e : SheafEntry) : (s.setEntry i e).calibration = s.calibration := rfl
@[simp] theorem State.setEntry_domDuty (i : Nat) (e : SheafEntry) : (s.setEntry i e).domDuty = s.domDuty := rfl
@[simp] theorem State.setEntry_sliceDuty (i : Nat) (e : SheafEntry) : (s.setEntry i e).sliceDuty = s.sliceDuty := rfl
@[simp] theorem State.setEntry_pkgDuty (i : Nat) (e : SheafEntry) : (s.setEntry i e).pkgDuty = s.pkgDuty := rfl
@[simp] theorem State.setEntry_pkgSlow (i : Nat) (e : SheafEntry) : (s.setEntry i e).pkgSlow = s.pkgSlow := rfl
@[simp] theorem State.setEntry_heatSlow (i : Nat) (e : SheafEntry) : (s.setEntry i e).heatSlow = s.heatSlow := rfl
@[simp] theorem State.setEntry_coolSince (i : Nat) (e : SheafEntry) : (s.setEntry i e).coolSince = s.coolSince := rfl
@[simp] theorem State.setEntry_pkgStepAt (i : Nat) (e : SheafEntry) : (s.setEntry i e).pkgStepAt = s.pkgStepAt := rfl
@[simp] theorem State.setEntry_trips (i : Nat) (e : SheafEntry) : (s.setEntry i e).trips = s.trips := rfl
@[simp] theorem State.setEntry_slowSince (i : Nat) (e : SheafEntry) : (s.setEntry i e).slowSince = s.slowSince := rfl
@[simp] theorem State.setEntry_powerRec (i : Nat) (e : SheafEntry) : (s.setEntry i e).powerRec = s.powerRec := rfl
@[simp] theorem State.setEntry_refreshed (i : Nat) (e : SheafEntry) : (s.setEntry i e).refreshed = s.refreshed := rfl
@[simp] theorem State.setEntry_ahead (i : Nat) (e : SheafEntry) : (s.setEntry i e).ahead = s.ahead := rfl
@[simp] theorem State.setEntry_bootImages (i : Nat) (e : SheafEntry) : (s.setEntry i e).bootImages = s.bootImages := rfl

end Sys2Proof.Machine
end

