-- ==== Sys2Proof/Laws/Regs.lean ====
section
/-! SUPPORT. Registers, records and interrupt sources: what each shared operation can do, said once. -/

namespace Sys2Proof.Machine

/-! ### The register file -/

@[simp] theorem csrGet_set_self (l : List (Csr × Word)) (r : Csr) (v : Word) : csrGet (csrSet l r v) r = v := by
  induction l with
  | nil => simp [csrSet, csrGet]
  | cons a l ih =>
    obtain ⟨k, u⟩ := a
    simp only [csrSet]
    split
    · simp [csrGet]
    · split
      · simp [csrGet]
      · rename_i hk _
        simp [csrGet, hk, ih]

theorem csrGet_set_ne (l : List (Csr × Word)) {r q : Csr} (v : Word) (h : r ≠ q) :
    csrGet (csrSet l r v) q = csrGet l q := by
  induction l with
  | nil => simp [csrSet, csrGet, h]
  | cons a l ih =>
    obtain ⟨k, u⟩ := a
    simp only [csrSet]
    split
    · rename_i hk; subst hk; simp [csrGet, h]
    · split
      · simp [csrGet, h]
      · simp only [csrGet, ih]

@[simp] theorem rd_wr_self (s : State) (r : Csr) (v : Word) : (s.wr r v).rd r = v := csrGet_set_self s.csr r v

theorem rd_wr_ne (s : State) {r q : Csr} (v : Word) (h : r ≠ q) : (s.wr r v).rd q = s.rd q := csrGet_set_ne s.csr v h

theorem rdf_wr_ne (s : State) {r q : Csr} (v : Word) (hi lo : Nat) (h : r ≠ q) : (s.wr r v).rdf q hi lo = s.rdf q hi lo := by
  simp only [State.rdf, rd_wr_ne s v h]

theorem rd_wrf_ne (s : State) {r q : Csr} (hi lo v : Nat) (h : r ≠ q) : (s.wrf r hi lo v).rd q = s.rd q := rd_wr_ne s _ h

/-! ### Counters -/

/-- An addition to a counter field: the sum where it fits, else a free value (log entry 8). -/
theorem count_eq (s : State) (r : Csr) (hi lo n : Nat) :
    s.count r hi lo n =
      if s.rdf r hi lo + n < 2 ^ (hi + 1 - lo) then s.wrf r hi lo (s.rdf r hi lo + n)
      else { s with freeCount := s.freeCount + 1 }.wrf r hi lo (Config.freeValue s.freeCount).toNat := rfl

/-- A counter writes one register, and may take one free value. -/
theorem count_spec (s : State) (r : Csr) (hi lo n : Nat) :
    ∃ v k, s.count r hi lo n = { s with csr := csrSet s.csr r v, freeCount := k } := by
  rw [count_eq]
  split
  · exact ⟨_, s.freeCount, rfl⟩
  · exact ⟨_, _, rfl⟩

theorem count_fits {s : State} {r : Csr} {hi lo n : Nat} (h : s.rdf r hi lo + n < 2 ^ (hi + 1 - lo)) :
    s.count r hi lo n = s.wrf r hi lo (s.rdf r hi lo + n) := by
  rw [count_eq, if_pos h]

theorem bump_eq (s : State) (r : Csr) :
    s.bump r = if s.rdf r 31 0 + 1 < 2 ^ 32 then s.wrf r 31 0 (s.rdf r 31 0 + 1)
      else { s with freeCount := s.freeCount + 1 }.wrf r 31 0 (Config.freeValue s.freeCount).toNat := by
  have e : 31 + 1 - 0 = 32 := by norm_num
  rw [State.bump, count_eq, e]

/-! ### Records (R460) -/

/-- A record goes to the queue, or is counted as dropped. -/
theorem record_spec (s : State) (type severity unit : Nat) (body : List Byte) :
    ∃ q d c k, s.record type severity unit body = { s with almQueue := q, almDrops := d, csr := c, freeCount := k } := by
  unfold State.record
  dsimp only
  generalize (if recProtected type then 128 else 96) = n
  generalize (if recProtected type = true then (⟨.almProtDropCnt, 0, 0, 0⟩ : Csr) else ⟨.almDropCnt, 0, 0, 0⟩) = r
  split
  · exact ⟨_, s.almDrops, s.csr, s.freeCount, rfl⟩
  · obtain ⟨v, k, e⟩ := count_spec { s with almDrops := Table.set s.almDrops type (Table.get 0 s.almDrops type + 1) } r 31 0 1
    exact ⟨s.almQueue, _, _, k, e⟩

/-- While the queue has room a record joins it, and nothing else changes. -/
theorem record_room {s : State} {type severity unit : Nat} {body : List Byte}
    (h : s.almQueue.length < if recProtected type then 128 else 96) :
    s.record type severity unit body = { s with almQueue := s.almQueue ++ [⟨type, severity, unit, s.time, body⟩] } := by
  unfold State.record
  exact if_pos h

/-- A record of power management changes nothing but the queue, its counters and the times of such records. -/
theorem powerRecord_spec (s : State) (event index field value : Nat) :
    ∃ q d c k p, s.powerRecord event index field value =
      { s with almQueue := q, almDrops := d, csr := c, freeCount := k, powerRec := p } := by
  have key (u : State) (a b c : Nat) (l : List Byte) (p : Table Nat)
      (h : u = { s with powerRec := p }) : ∃ q d e k p, u.record a b c l =
        { s with almQueue := q, almDrops := d, csr := e, freeCount := k, powerRec := p } := by
    obtain ⟨q, d, e, k, r⟩ := record_spec u a b c l
    subst h
    exact ⟨q, d, e, k, p, r⟩
  unfold State.powerRecord
  dsimp only
  generalize (if event = 5 then 1 else if (decide (6 ≤ event) && decide (event ≤ 10)) = true then 2 else 0) = sev
  split
  · split
    · split
      · exact key _ _ _ _ _ _ rfl
      · exact ⟨s.almQueue, s.almDrops, s.csr, s.freeCount, s.powerRec, rfl⟩
    · split
      · exact key _ _ _ _ _ _ rfl
      · exact ⟨s.almQueue, s.almDrops, s.csr, s.freeCount, s.powerRec, rfl⟩
  · exact key _ _ _ _ _ s.powerRec rfl

/-! ### Interrupt sources (R400) -/

/-- An assertion adds its source where it is not asserted, and nothing else. -/
theorem assertIrq_spec (s : State) (i : Nat) : ∃ l, s.assertIrq i = { s with irqs := l } ∧ ∀ j, j ∈ l ↔ j = i ∨ j ∈ s.irqs := by
  unfold State.assertIrq
  split
  · rename_i h
    refine ⟨s.irqs, rfl, fun j => ⟨.inr, ?_⟩⟩
    rintro (rfl | h')
    · simpa using h
    · exact h'
  · exact ⟨_, rfl, fun j => by simp [or_comm]⟩

/-- Whatever a state, after `sense` its level-sensitive sources follow their status. -/
theorem sense_levelsOk (s : State) : s.sense.LevelsOk := by
  intro i hi
  have e : s.sense.level i = s.level i := rfl
  rw [e]
  unfold State.sense
  simp [hi]

/-- `sense` leaves every other source as it was. -/
theorem sense_other {s : State} {i : Nat} (h : i ∉ levelSources) : i ∈ s.sense.irqs ↔ i ∈ s.irqs := by
  unfold State.sense
  simp [h]

/-! ### Register accesses -/

/-- A core that may give commands reaches every register. -/
theorem reaches_of_mayCommand {r : Csr} {s : State} {who : Who} (write : Bool) (h : mayCommand who = true) :
    s.reaches who r write = true := by
  cases who <;> simp_all [mayCommand, State.reaches]

/-- A write that reaches a register there is, is made there. -/
theorem csrWrite_here {r : Csr} {s : State} {who : Who} (v : Word) (hw : s.reaches who r true = true)
    (hr : r.inRange = true) (ho : s.csrOff r = false) : s.csrWrite who r v = s.writeHere who r v := by
  simp [State.csrWrite, hw, hr, ho]

end Sys2Proof.Machine
end

