-- ==== Sys2Proof/Laws/Arrivals.lean ====
section
/-! SUPPORT. Arriving write-class requests: how one takes its turn in its stream (R287 to R292). -/

namespace Sys2Proof.Machine

@[simp] theorem rxStream_setRx (u : State) (k : Nat × Nat × Nat) (x : RxStream) : (u.setRx k x).rxStream k = x := by
  simp [State.setRx, State.rxStream]

/-- The stream a request belongs to does not depend on what streams hold. -/
theorem reqStream_setRx (u : State) (k : Nat × Nat × Nat) (x : RxStream) (m : Req) : (u.setRx k x).reqStream m = u.reqStream m := rfl

/-- A request whose turn has come takes it, refused or served. -/
theorem order_turn {u : State} {m : Req} {t : Option Target} (hr : m.resync = false)
    (hn : seqAhead m (u.rxStream (u.reqStream m)) = 0) :
    u.order serveWrite m t =
      u.takesTurn m (fun o v => match t with | none => v | some t => serveWrite m t o v) := by
  cases t <;>
    simp only [State.order, hr, Bool.false_eq_true, if_false, hn, if_true, State.applyInOrder, State.takesTurn]

/-- A request in its turn is served at its target. -/
theorem arriveWrite_turn {s u : State} {m : Req} {t : Target} (h : s.inTurn m t u) :
    s.arriveWrite m = u.takesTurn m (serveWrite m t) := by
  simp only [State.arriveWrite, h.checked, order_turn h.plain h.next]

end Sys2Proof.Machine
end

