-- ==== Sys2Proof/Laws/Mem.lean ====
section
/-! SUPPORT. Byte memory: every operation keeps the canonical form, and what a read finds after a write. -/

namespace Sys2Proof.Machine

/-! ### Rising cells and lines -/

theorem cellsRise_mono {lo lo' : Nat} {l : List Host.Cell} (h : lo' ≤ lo) (w : cellsRise lo l = true) :
    cellsRise lo' l = true := by
  cases l with
  | nil => rfl
  | cons c t => simp only [cellsRise, Bool.and_eq_true, decide_eq_true_eq] at w ⊢; exact ⟨⟨by omega, w.1.2⟩, w.2⟩

theorem cellsRise_append {lo hi : Nat} {a b : List Host.Cell} (h : lo ≤ hi) (ha : cellsRise lo a = true)
    (top : ∀ c ∈ a, c.1 < hi) (hb : cellsRise hi b = true) : cellsRise lo (a ++ b) = true := by
  induction a generalizing lo with
  | nil => exact cellsRise_mono h hb
  | cons c t ih =>
    simp only [List.cons_append, cellsRise, Bool.and_eq_true, decide_eq_true_eq] at ha ⊢
    have : c.1 < hi := top c (by simp)
    exact ⟨ha.1, ih (by omega) ha.2 (fun d hd => top d (by simp [hd]))⟩

theorem cellsRise_below {lo : Nat} {l : List Host.Cell} (x : Nat) (h : cellsRise lo l = true) :
    cellsRise lo (cellsBelow x l) = true := by
  induction l generalizing lo with
  | nil => rfl
  | cons c t ih =>
    simp only [cellsRise, Bool.and_eq_true, decide_eq_true_eq] at h
    simp only [cellsBelow]
    split
    · simp only [cellsRise, Bool.and_eq_true, decide_eq_true_eq]; exact ⟨h.1, ih h.2⟩
    · rfl

theorem cellsBelow_lt (x : Nat) (l : List Host.Cell) : ∀ c ∈ cellsBelow x l, c.1 < x := by
  induction l with
  | nil => simp [cellsBelow]
  | cons d t ih =>
    intro c h
    simp only [cellsBelow] at h
    split at h
    · rcases List.mem_cons.mp h with rfl | h
      · assumption
      · exact ih c h
    · simp at h

theorem cellsRise_from {lo : Nat} {l : List Host.Cell} (x : Nat) (h : cellsRise lo l = true) :
    cellsRise x (cellsFrom x l) = true := by
  induction l generalizing lo with
  | nil => rfl
  | cons c t ih =>
    simp only [cellsFrom]
    split
    · rename_i hx
      simp only [cellsRise, Bool.and_eq_true, decide_eq_true_eq] at h ⊢; exact ⟨⟨hx, h.1.2⟩, h.2⟩
    · simp only [cellsRise, Bool.and_eq_true, decide_eq_true_eq] at h
      exact ih h.2

theorem cellsRise_of (a : Nat) (bs : List Byte) : cellsRise a (cellsOf a bs) = true := by
  induction bs generalizing a with
  | nil => rfl
  | cons b t ih =>
    simp only [cellsOf]
    split
    · exact cellsRise_mono (Nat.le_succ a) (ih (a + 1))
    · rename_i hb
      simp only [cellsRise, Bool.and_eq_true, decide_eq_true_eq]; exact ⟨⟨Nat.le_refl a, by simpa using hb⟩, ih (a + 1)⟩

theorem cellsOf_lt (a : Nat) (bs : List Byte) : ∀ c ∈ cellsOf a bs, c.1 < a + bs.length := by
  induction bs generalizing a with
  | nil => simp [cellsOf]
  | cons b t ih =>
    intro c h
    simp only [cellsOf] at h
    simp only [List.length_cons]
    split at h
    · have := ih (a + 1) c h; omega
    · rcases List.mem_cons.mp h with rfl | h
      · show a < _; omega
      · have := ih (a + 1) c h; omega

theorem cellsRise_splice {l : List Host.Cell} (a : Nat) (bs : List Byte) (h : cellsRise 0 l = true) :
    cellsRise 0 (cellsBelow a l ++ cellsOf a bs ++ cellsFrom (a + bs.length) l) = true := by
  rw [List.append_assoc]
  refine cellsRise_append (Nat.zero_le a) (cellsRise_below a h) (cellsBelow_lt a l) ?_
  exact cellsRise_append (Nat.le_add_right _ _) (cellsRise_of a bs) (cellsOf_lt a bs) (cellsRise_from _ h)

theorem linesRise_mono {lo lo' : Nat} {l : List Nat} (h : lo' ≤ lo) (w : linesRise lo l = true) :
    linesRise lo' l = true := by
  cases l with
  | nil => rfl
  | cons c t => simp only [linesRise, Bool.and_eq_true, decide_eq_true_eq] at w ⊢; exact ⟨by omega, w.2⟩

theorem linesRise_filter {lo : Nat} {l : List Nat} (p : Nat → Bool) (h : linesRise lo l = true) :
    linesRise lo (l.filter p) = true := by
  induction l generalizing lo with
  | nil => rfl
  | cons c t ih =>
    simp only [linesRise, Bool.and_eq_true, decide_eq_true_eq] at h
    rw [List.filter_cons]
    split
    · simp only [linesRise, Bool.and_eq_true, decide_eq_true_eq]; exact ⟨h.1, ih h.2⟩
    · exact linesRise_mono (by omega) (ih h.2)

theorem linesRise_insert {lo : Nat} {l : List Nat} (x : Nat) (hx : lo ≤ x) (h : linesRise lo l = true) :
    linesRise lo (lineInsert x l) = true := by
  induction l generalizing lo with
  | nil => simp [lineInsert, linesRise, hx]
  | cons c t ih =>
    simp only [linesRise, Bool.and_eq_true, decide_eq_true_eq] at h
    simp only [lineInsert]
    split
    · simp only [linesRise, Bool.and_eq_true, decide_eq_true_eq]; exact h
    · split
      · simp only [linesRise, Bool.and_eq_true, decide_eq_true_eq]; exact ⟨hx, by omega, h.2⟩
      · simp only [linesRise, Bool.and_eq_true, decide_eq_true_eq]; exact ⟨h.1, ih (by omega) h.2⟩

theorem linesRise_insertAll (l : List Nat) (first : Nat) (ks : List Nat) (h : linesRise 0 l = true) :
    linesRise 0 (ks.foldl (fun p i => lineInsert (first + i) p) l) = true := by
  induction ks generalizing l with
  | nil => exact h
  | cons k t ih => exact ih _ (linesRise_insert _ (Nat.zero_le _) h)

/-! ### The canonical form is kept -/

theorem Memory.wf_iff (m : Memory) : m.wf = true ↔ cellsRise 0 m.cells = true ∧ linesRise 0 m.poison = true ∧ linesRise 0 m.upset = true := by
  simp [Memory.wf, and_assoc]

theorem Memory.wf_empty : Memory.wf {} = true := by decide

theorem Memory.wf_markLines {m : Memory} (first count : Nat) (on : Bool) (h : m.wf = true) :
    (m.markLines first count on).wf = true := by
  rw [Memory.wf_iff] at h ⊢
  unfold Memory.markLines
  split
  · exact ⟨h.1, linesRise_insertAll _ _ _ h.2.1, linesRise_filter _ h.2.2⟩
  · exact ⟨h.1, linesRise_filter _ h.2.1, linesRise_filter _ h.2.2⟩

theorem Memory.wf_writeBytes {m : Memory} (a : Nat) (bs : List Byte) (h : m.wf = true) : (m.writeBytes a bs).wf = true := by
  unfold Memory.writeBytes
  apply Memory.wf_markLines
  rw [Memory.wf_iff] at h ⊢
  exact ⟨cellsRise_splice a bs h.1, h.2⟩

theorem Memory.wf_writePoison {m : Memory} (a : Nat) (bs : List Byte) (h : m.wf = true) :
    (m.writePoison a bs).wf = true := by
  unfold Memory.writePoison
  split
  · exact h
  · exact Memory.wf_markLines _ _ _ (Memory.wf_writeBytes _ _ h)

theorem Memory.wf_store {m : Memory} (a : Nat) (bs : List Byte) (p : Bool) (h : m.wf = true) :
    (m.store a bs p).wf = true := by
  unfold Memory.store
  split
  · exact Memory.wf_writePoison _ _ h
  · exact Memory.wf_writeBytes _ _ h

theorem Memory.wf_writeNat {m : Memory} (a n v : Nat) (h : m.wf = true) : (m.writeNat a n v).wf = true :=
  Memory.wf_writeBytes _ _ h

theorem Memory.wf_writeWord {m : Memory} (a : Nat) (w : Word) (h : m.wf = true) : (m.writeWord a w).wf = true :=
  Memory.wf_writeBytes _ _ h

theorem Memory.wf_patch {m : Memory} (a : Nat) (bs : List Byte) (h : m.wf = true) : (m.patch a bs).wf = true := by
  rw [Memory.wf_iff] at h ⊢
  exact ⟨cellsRise_splice a bs h.1, h.2⟩

theorem Memory.wf_clear {m : Memory} (a n : Nat) (h : m.wf = true) : (m.clear a n).wf = true := by
  rw [Memory.wf_iff] at h ⊢
  refine ⟨?_, linesRise_filter _ h.2.1, linesRise_filter _ h.2.2⟩
  exact cellsRise_append (Nat.zero_le a) (cellsRise_below a h.1) (cellsBelow_lt a _)
    (cellsRise_mono (Nat.le_add_right a n) (cellsRise_from _ h.1))

theorem wf_copyLines (src : Memory) (from' : Nat) {dst : Memory} (to' k : Nat) (h : dst.wf = true) :
    (copyLines src from' dst to' k).wf = true := by
  induction k generalizing from' dst to' with
  | zero => exact h
  | succ k ih => exact ih _ _ (Memory.wf_store _ _ _ h)

/-! ### Reads after writes -/

theorem cellsRise_ge {lo : Nat} {l : List Host.Cell} (w : cellsRise lo l = true) : ∀ c ∈ l, lo ≤ c.1 := by
  induction l generalizing lo with
  | nil => simp
  | cons e u ih =>
    intro d hd
    simp only [cellsRise, Bool.and_eq_true, decide_eq_true_eq] at w
    rcases List.mem_cons.mp hd with rfl | hd
    · exact w.1.1
    · have := ih w.2 d hd; omega

theorem cellsAt_none {l : List Host.Cell} {a : Nat} (h : ∀ c ∈ l, c.1 ≠ a) : cellsAt l a = 0 := by
  induction l with
  | nil => rfl
  | cons c t ih =>
    simp only [cellsAt]
    rw [if_neg (h c (by simp))]
    exact ih (fun d hd => h d (by simp [hd]))

theorem cellsAt_append (l r : List Host.Cell) (a : Nat) :
    cellsAt (l ++ r) a = if l.any (fun c => c.1 == a) then cellsAt l a else cellsAt r a := by
  induction l with
  | nil => rfl
  | cons c t ih =>
    simp only [List.cons_append, cellsAt, List.any_cons]
    by_cases hc : c.1 = a
    · simp [hc]
    · simp [hc, ih]

theorem cellsAt_below {lo : Nat} {l : List Host.Cell} {x a : Nat} (w : cellsRise lo l = true) (h : a < x) :
    cellsAt (cellsBelow x l) a = cellsAt l a := by
  induction l generalizing lo with
  | nil => rfl
  | cons c t ih =>
    simp only [cellsRise, Bool.and_eq_true, decide_eq_true_eq] at w
    simp only [cellsBelow]
    split
    · simp only [cellsAt]; rw [ih w.2]
    · rename_i hx
      have : ∀ d ∈ c :: t, d.1 ≠ a := by
        intro d hd
        rcases List.mem_cons.mp hd with rfl | hd
        · omega
        · have := cellsRise_ge w.2 d hd; omega
      rw [cellsAt_none this]; rfl

theorem cellsAt_from {l : List Host.Cell} {x a : Nat} (h : x ≤ a) : cellsAt (cellsFrom x l) a = cellsAt l a := by
  induction l with
  | nil => rfl
  | cons c t ih =>
    simp only [cellsFrom]
    split
    · rfl
    · rename_i hx
      simp only [cellsAt]; rw [if_neg (by omega), ih]

theorem cellsFrom_ge {lo : Nat} {l : List Host.Cell} (x : Nat) (w : cellsRise lo l = true) :
    ∀ c ∈ cellsFrom x l, x ≤ c.1 := by
  exact cellsRise_ge (cellsRise_from x w)

theorem cellsAt_of (a k : Nat) (bs : List Byte) (h : k < bs.length) : cellsAt (cellsOf a bs) (a + k) = bs[k] := by
  induction bs generalizing a k with
  | nil => simp at h
  | cons b t ih =>
    simp only [cellsOf]
    cases k with
    | zero =>
      split
      · rename_i hb
        rw [cellsAt_none (fun c hc => by have := cellsRise_ge (cellsRise_of (a + 1) t) c hc; omega)]
        simp [hb]
      · simp [cellsAt]
    | succ k =>
      simp only [List.length_cons] at h
      have e : a + (k + 1) = a + 1 + k := by omega
      split
      · rw [e, ih (a + 1) k (by omega)]; rfl
      · rw [cellsAt, if_neg (by omega), e, ih (a + 1) k (by omega)]; rfl

/-- A store leaves every byte outside it. -/
theorem Memory.byte_writeBytes_out {m : Memory} {a x : Nat} {bs : List Byte} (w : m.wf = true)
    (h : x < a ∨ a + bs.length ≤ x) : (m.writeBytes a bs).byte x = m.byte x := by
  have hw := ((Memory.wf_iff m).mp w).1
  have e : (m.writeBytes a bs).byte x
      = cellsAt (cellsBelow a m.cells ++ cellsOf a bs ++ cellsFrom (a + bs.length) m.cells) x := by
    simp [Memory.writeBytes, Memory.byte, Memory.markLines]
  have none_any : ∀ {l : List Host.Cell}, (∀ c ∈ l, c.1 ≠ x) → (l.any (fun c => c.1 == x)) = false := by
    intro l hl; simp only [List.any_eq_false, beq_iff_eq]; exact hl
  rw [e, Memory.byte, List.append_assoc]
  rcases h with h | h
  · rw [cellsAt_append]
    split
    · exact cellsAt_below hw h
    · rename_i hn
      have z : cellsAt (cellsBelow a m.cells) x = 0 := by
        apply cellsAt_none; intro c hc hx
        exact hn (List.any_eq_true.mpr ⟨c, hc, by simp [hx]⟩)
      have lowOf : ∀ c ∈ cellsOf a bs, c.1 ≠ x := by
        intro c hc hx
        have r := cellsRise_of a bs
        have := cellsRise_ge r c hc; omega
      rw [cellsAt_append, none_any lowOf]
      have lowFrom : ∀ c ∈ cellsFrom (a + bs.length) m.cells, c.1 ≠ x := by
        intro c hc hx; have := cellsFrom_ge _ hw c hc; omega
      rw [← cellsAt_below hw h, z]
      simp only [Bool.false_eq_true, if_false]
      exact cellsAt_none lowFrom
  · rw [cellsAt_append, none_any (fun c hc hx => by have := cellsBelow_lt a m.cells c hc; omega),
      cellsAt_append, none_any (fun c hc hx => by have := cellsOf_lt a bs c hc; omega)]
    simpa using cellsAt_from h

/-- A byte stored reads back. -/
theorem Memory.byte_writeBytes_in {m : Memory} {a k : Nat} {bs : List Byte} (w : m.wf = true) (h : k < bs.length) :
    (m.writeBytes a bs).byte (a + k) = bs[k] := by
  have e : (m.writeBytes a bs).byte (a + k)
      = cellsAt (cellsBelow a m.cells ++ cellsOf a bs ++ cellsFrom (a + bs.length) m.cells) (a + k) := by
    simp [Memory.writeBytes, Memory.byte, Memory.markLines]
  have none_any : ∀ {l : List Host.Cell}, (∀ c ∈ l, c.1 ≠ a + k) → (l.any (fun c => c.1 == a + k)) = false := by
    intro l hl; simp only [List.any_eq_false, beq_iff_eq]; exact hl
  rw [e, List.append_assoc, cellsAt_append,
    none_any (fun c hc hx => by have := cellsBelow_lt a m.cells c hc; omega), cellsAt_append]
  simp only [Bool.false_eq_true, if_false]
  split
  · exact cellsAt_of a k bs h
  · rename_i hn
    have z : cellsAt (cellsOf a bs) (a + k) = 0 := by
      apply cellsAt_none; intro c hc hx
      exact hn (List.any_eq_true.mpr ⟨c, hc, by simp [hx]⟩)
    rw [cellsAt_of a k bs h] at z
    rw [z]
    exact cellsAt_none (fun c hc hx => by
      have := cellsFrom_ge (a + bs.length) ((Memory.wf_iff m).mp w).1 c hc; omega)

end Sys2Proof.Machine
end

