-- ==== Sys2Proof/Laws/RegBits.lean ====
section
/-! SUPPORT. Register fields bit by bit: no bit belongs to two fields, and what a plain write leaves of each. -/

namespace Sys2Proof.Machine

/-- The fields of a register lie apart. -/
theorem fields_apart (r : RegName) : r.spec.fields.Pairwise (fun f g => f.hi < g.lo ∨ g.hi < f.lo) := by
  cases r <;> decide

/-- Every field lies within 64 bits. -/
theorem fields_fit (r : RegName) : ∀ f ∈ r.spec.fields, f.lo ≤ f.hi ∧ f.hi < 64 := by
  cases r <;> decide

theorem mask_getLsbD {f : RegField} {i : Nat} (h : i < 64) : f.mask.getLsbD i = decide (f.lo ≤ i ∧ i ≤ f.hi) := by
  unfold RegField.mask
  rw [BitVec.getLsbD_ofNat, Nat.testBit_mul_two_pow, Nat.testBit_two_pow_sub_one]
  by_cases h1 : f.lo ≤ i <;> by_cases h2 : i ≤ f.hi <;> simp [h, h1, h2] <;> omega

theorem maskFold_getLsbD (t : Access → Bool) (l : List RegField) (m : Word) (i : Nat) :
    (l.foldl (fun m f => if t f.acc then m ||| f.mask else m) m).getLsbD i =
      (m.getLsbD i || l.any (fun f => t f.acc && f.mask.getLsbD i)) := by
  induction l generalizing m with
  | nil => simp
  | cons f l ih =>
    rw [List.foldl_cons, ih, List.any_cons]
    cases t f.acc <;> simp [Bool.or_assoc]

theorem any_field (t : Access → Bool) {l : List RegField} {i : Nat} (h : i < 64)
    (w : l.Pairwise (fun f g => f.hi < g.lo ∨ g.hi < f.lo)) :
    l.any (fun f => t f.acc && f.mask.getLsbD i) =
      match l.find? (fun g => decide (g.lo ≤ i) && decide (i ≤ g.hi)) with
      | none => false
      | some g => t g.acc := by
  induction l with
  | nil => rfl
  | cons f l ih =>
    rw [List.pairwise_cons] at w
    rw [List.any_cons, mask_getLsbD h, List.find?_cons]
    by_cases hf : f.lo ≤ i ∧ i ≤ f.hi
    · have hn : l.any (fun f => t f.acc && f.mask.getLsbD i) = false := by
        rw [List.any_eq_false]
        intro g hg
        rw [mask_getLsbD h]
        have := w.1 g hg
        have : ¬ (g.lo ≤ i ∧ i ≤ g.hi) := by omega
        simp [this]
      rw [hn]
      simp [hf.1, hf.2]
    · rw [ih w.2]
      have : (decide (f.lo ≤ i) && decide (i ≤ f.hi)) = false := by
        rw [Bool.and_eq_false_iff, decide_eq_false_iff_not, decide_eq_false_iff_not]; omega
      simp [hf, this]

/-- A mask of a register has a bit if the field of that bit passes the test. -/
theorem maskOf_getLsbD (r : RegName) (t : Access → Bool) {i : Nat} (h : i < 64) :
    (r.spec.maskOf t).getLsbD i =
      match r.spec.fields.find? (fun g => decide (g.lo ≤ i) && decide (i ≤ g.hi)) with
      | none => false
      | some g => t g.acc := by
  unfold RegSpec.maskOf
  rw [maskFold_getLsbD, any_field t h (fields_apart r)]
  simp

/-- What a plain write leaves, bit by bit (R10). -/
theorem afterWrite_getLsbD (r : RegName) (unlocked : Bool) (old new : Word) {i : Nat} (h : i < 64) :
    (r.spec.afterWrite unlocked old new).getLsbD i =
      match r.spec.fields.find? (fun g => decide (g.lo ≤ i) && decide (i ≤ g.hi)) with
      | none => old.getLsbD i
      | some g =>
        match g.acc with
        | .rw => new.getLsbD i
        | .rwl => if unlocked then new.getLsbD i else old.getLsbD i
        | .w1c => old.getLsbD i && !new.getLsbD i
        | _ => old.getLsbD i := by
  unfold RegSpec.afterWrite
  simp only [BitVec.getLsbD_and, BitVec.getLsbD_or, BitVec.getLsbD_not, maskOf_getLsbD r _ h, h, decide_true, Bool.true_and]
  cases r.spec.fields.find? (fun g => decide (g.lo ≤ i) && decide (i ≤ g.hi)) with
  | none => simp
  | some g =>
    obtain ⟨n, hi, lo, acc, p⟩ := g
    cases acc <;> cases unlocked <;> simp

end Sys2Proof.Machine
end

