-- ==== Sys2Proof/Laws/Reset.lean ====
section
/-! SUPPORT. The memory after reset, and what a warm reset clears, are in canonical form. -/

namespace Sys2Proof.Machine

theorem State.reset_mem_wf : State.reset.mem.wf = true := by decide

theorem cellsRise_filter {lo : Nat} {l : List Host.Cell} (p : Host.Cell → Bool) (h : cellsRise lo l = true) :
    cellsRise lo (l.filter p) = true := by
  induction l generalizing lo with
  | nil => exact h
  | cons c l ih =>
    simp only [cellsRise, Bool.and_eq_true, decide_eq_true_eq] at h
    rw [List.filter_cons]
    split
    · simp only [cellsRise, Bool.and_eq_true, decide_eq_true_eq]
      exact ⟨h.1, ih h.2⟩
    · exact cellsRise_mono (by have := h.1.1; omega) (ih h.2)

theorem Memory.wf_zeroWhere {m : Memory} (p : Nat → Bool) (h : m.wf = true) : (m.zeroWhere p).wf = true := by
  rw [Memory.wf_iff] at h ⊢
  exact ⟨cellsRise_filter _ h.1, h.2⟩

end Sys2Proof.Machine
end

