-- ==== Sys2Proof/Laws/Slot.lean ====
section
/-! SUPPORT. What one slot, alone, can do (log entry 9): each outcome of `runSlot` under its own conditions. -/

namespace Sys2Proof.Machine

/-- Checks that all pass pass without the ones that follow them. -/
theorem firstFailure_append {l r : List (Nat × Word)} (h : firstFailure (l ++ r) = none) : firstFailure l = none := by
  unfold firstFailure at h ⊢
  rw [List.findSome?_eq_none_iff] at h ⊢
  intro c hc
  have := h c hc
  simp only [List.find?_append] at this
  cases e : l.find? (fun p => p.1 = c) with
  | none => rfl
  | some x => rw [e] at this; cases this

/-- A slot that issues passes its second-stage checks. -/
theorem State.issues.passes {op : SlotOp} {f : FurrowId} {o : Slot} {s : State} {p : Program} (h : s.issues op f o p) :
    firstFailure (op.checks (s.ctx f o p) s) = none := firstFailure_append h.checked

/-- A slot that issues does not stall. -/
theorem State.issues.unheld {op : SlotOp} {f : FurrowId} {o : Slot} {s : State} {p : Program} (h : s.issues op f o p) :
    op.stalls (s.ctx f o p) s = false := (Bool.or_eq_false_iff.mp h.free).1

/-- With no program running the slot has no effect. -/
theorem runSlot_idle {op : SlotOp} {f : FurrowId} {o : Slot} {s : State} (h : s.running f.val = none) :
    runSlot op f o s = s := by
  simp [runSlot, h]

/-- An illegal encoding raises its exception. -/
theorem runSlot_illegal {op : SlotOp} {f : FurrowId} {o : Slot} {s : State} {p : Program} {c : Nat}
    (h : s.running f.val = some p) (he : op.enc.fault o = some c) :
    runSlot op f o s = s.raise f.val c (slotOf op.enc.opc) (op.enc.word o) := by
  simp [runSlot, h, he]

/-- With a false predicate only the named counter falls (R99). -/
theorem runSlot_off {op : SlotOp} {f : FurrowId} {o : Slot} {s : State} {p : Program} (h : s.running f.val = some p)
    (he : op.enc.fault o = none) (hp : (s.furrow f.val).pr o.pred.val = false) :
    runSlot op f o s = s.arrive f.val (o.ctr.map (·.val)) Done.ok := by
  simp [runSlot, h, he, hp, Ctx.ctr]

/-- A slot that holds its bundle back, or whose class is full, waits (R97, R101). -/
theorem runSlot_stall {op : SlotOp} {f : FurrowId} {o : Slot} {s : State} {p : Program} (h : s.running f.val = some p)
    (he : op.enc.fault o = none) (hp : (s.furrow f.val).pr o.pred.val = true)
    (hs : (op.waits (s.ctx f o p) s || !op.room (s.furrow f.val)) = true) : runSlot op f o s = s.stall f.val := by
  simp only [State.ctx] at hs
  simp only [runSlot, h, he, hp, hs, if_true]

/-- The first failing check of R368, or the error that a read of Hull finds, raises its exception (R437). -/
theorem runSlot_raise {op : SlotOp} {f : FurrowId} {o : Slot} {s : State} {p : Program} {e : Nat × Word}
    (h : s.running f.val = some p) (he : op.enc.fault o = none) (hp : (s.furrow f.val).pr o.pred.val = true)
    (hs : op.waits (s.ctx f o p) s = false) (hr : op.room (s.furrow f.val) = true)
    (hc : firstFailure (op.allChecks (s.ctx f o p) s) = some e) :
    runSlot op f o s = s.slotRaise f.val (slotOf op.enc.opc) e := by
  simp only [State.ctx] at hs hc
  simp [runSlot, h, he, hp, hs, hr, hc]

/-- A slot that issues normally has its instruction's effect. -/
theorem runSlot_issues {op : SlotOp} {f : FurrowId} {o : Slot} {s : State} {p : Program} (h : s.issues op f o p) :
    runSlot op f o s = op.run (s.ctx f o p) (s.unstalled f) := by
  obtain ⟨h1, h2, h3, h4, h5, h6⟩ := h
  simp only [State.ctx] at h4 h6
  simp [runSlot, h1, h2, h3, h4, h5, h6, State.unstalled, State.ctx]

/-- An issue in the words of `launched`. -/
theorem issue_launched {op : SlotOp} {cls : OpClass} {f : FurrowId} {o : Slot} {s t : State} {p : Program}
    {desc : List (List Byte)} :
    (s.ctx f o p).issue op.enc cls desc t =
      (t.nextId, t.launched f (captured op cls (s.furrow f.val) o p desc t.nextId)) := rfl

/-- The state after an issue. -/
theorem issue'_launched {op : SlotOp} {cls : OpClass} {f : FurrowId} {o : Slot} {s t : State} {p : Program}
    {desc : List (List Byte)} :
    (s.ctx f o p).issue' op.enc cls desc t =
      t.launched f (captured op cls (s.furrow f.val) o p desc t.nextId) := rfl

/-- A returned status in the words of `returns`. -/
theorem status_returns {f : FurrowId} {o : Slot} {s t : State} {p : Program} {code result : Nat} :
    (s.ctx f o p).status code result t = t.returns f o code result := rfl

/-- The command of a slot runs that slot. -/
theorem exec_slot {c : Instr} {op : SlotOp} {f : FurrowId} {o : Slot} (h : c.asSlot = some (op, f, o)) (s : State) :
    exec c s = answer (runSlot op f o s) := by
  cases c <;> cases h <;> rfl

/-- What a slot that issues normally ends in. -/
theorem slot_issues {op : SlotOp} {f : FurrowId} {o : Slot} {s u : State} {p : Program} (h : s.issues op f o p)
    (e : op.run (s.ctx f o p) (s.unstalled f) = u) : answer (runSlot op f o s) = .next u.sense := by
  rw [runSlot_issues h, e]
  rfl

/-! ### The running program -/

/-- A running program is the Furrow's. -/
theorem running_prog {s : State} {f : Nat} {p : Program} (h : s.running f = some p) : (s.furrow f).prog = some p := by
  unfold State.running at h
  split at h
  · exact Option.eq_some_of_filter_eq_some h
  · cases h

/-- A change of the running program changes nothing else. -/
theorem modProg_running {s : State} {f : Nat} {p : Program} (h : s.running f = some p) (g : Program → Program) :
    s.modProg f g = { s with furrows := Table.set s.furrows f { s.furrow f with prog := some (g p) } } := by
  show ({ s with furrows := Table.set s.furrows f { s.furrow f with prog := (s.furrow f).prog.map g } } : State) = _
  rw [running_prog h]
  rfl

@[simp] theorem furrow_modFurrow_self (s : State) (f : Nat) (g : Furrow → Furrow) : (s.modFurrow f g).furrow f = g (s.furrow f) :=
  Table.get_set_self _ _ _ _

theorem furrow_modFurrow_ne (s : State) {f k : Nat} (g : Furrow → Furrow) (h : k ≠ f) :
    (s.modFurrow f g).furrow k = s.furrow k := Table.get_set_ne _ _ _ h

@[simp] theorem unstalled_hull (s : State) (f : FurrowId) : ((s.unstalled f).furrow f.val).hull = (s.furrow f.val).hull := by
  unfold State.unstalled State.modProg
  rw [furrow_modFurrow_self]

/-- An operation is outstanding after it was launched under a new name. -/
theorem op_launched (s : State) (f : FurrowId) (x : AsyncOp) (h : ∀ b ∈ (s.furrow f.val).ops, b.id ≠ x.id) :
    (s.launched f x).op? f.val x.id = some x := by
  have e : ((s.launched f x).furrow f.val).ops = (s.furrow f.val).ops ++ [x] := by
    unfold State.launched
    rw [furrow_modFurrow_self]
    rfl
  have n : List.find? (fun b => decide (b.id = x.id)) (s.furrow f.val).ops = none := by simpa using h
  simp [State.op?, e, List.find?_append, n]

end Sys2Proof.Machine
end

