-- ==== Sys2Proof/Tests/Slice0.lean ====
section
/-! SUPPORT. Tests of the model: for every statement with hypotheses, states and operands that meet them; ill-formed commands;
single commands whose result the spec's tables give. -/

namespace Sys2Proof.Tests

set_option Elab.async false

open Sys2Proof Sys2Proof.Machine

/-- The program that Furrow 0 runs in `ready`. -/
def prog0 : Program := ⟨0, 0, 0, 0, false, 0, 0, 0, .running, none, none⟩

/-- Furrow 0's registers: a length, an address and a selector of frame 2000, a PUT's count, a counter; a handle of that frame. -/
def regs0 : Furrow :=
  { g := [(1, 64), (2, 131072000), (3, BitVec.ofNat 64 (256 * 2 ^ 32)), (4, 2000)]
    h := [(1, mkHandle 0 2000 0 1 1)]
    hull := ({} : Memory).writeBytes 72 (toBytes 8 131072000)
    prog := some prog0 }

/-- A powered device: slice 0 is ACTIVE with job 7 and every Sheaf entry, owns frame 2000, and its program runs on Furrow 0. -/
def ready : State :=
  let s : State := { State.reset with powered := true, domains := [0, 64, 65, 72, 114, 116], furrows := [(0, regs0)],
                                      desc := [(2000, { pool := 1 })] }
  ((s.wr ⟨.shfPart, 0, 0, 0⟩ (BitVec.ofNat 64 (32768 * 2 ^ 16 + 2 ^ 32))).wr ⟨.slcJob, 0, 0, 0⟩ 7).wrf (slcCtl 0) 2 0 2

/-- What `State.issues` asks, as a test. -/
def issuesB (op : SlotOp) (s : State) (o : Slot) : Bool :=
  decide (s.running 0 = some prog0) && (s.furrow 0).pr o.pred.val && (op.enc.fault o).isNone && !op.waits (s.ctx 0 o prog0) s &&
    op.room (s.furrow 0) && (firstFailure (op.allChecks (s.ctx 0 o prog0) s)).isNone

/-- Each instruction issues in `ready`, a counter named where one must be. -/
def AllIssue (l : List (SlotOp × Slot)) : Prop :=
  ∀ c ∈ l, ∃ p, ready.issues c.1 0 (if c.1.enc.ctr then { c.2 with ctr := some 31 } else c.2) p

theorem allIssue_of (l : List (SlotOp × Slot))
    (h : l.all (fun c => issuesB c.1 ready (if c.1.enc.ctr then { c.2 with ctr := some 31 } else c.2)) = true) : AllIssue l := by
  intro c hc
  have hb := List.all_eq_true.mp h c hc
  simp only [issuesB, Bool.and_eq_true, decide_eq_true_eq, Bool.not_eq_true', Option.isNone_iff_eq_none] at hb
  obtain ⟨⟨⟨⟨⟨h1, h2⟩, h3⟩, h4⟩, h5⟩, h6⟩ := hb
  exact ⟨prog0, h1, h2, h3, h4, h5, h6⟩

theorem witness_CounterInstructions_issues : AllIssue [
  (opWait, {}), (opFence, {}), (opAcntSet, {}), (opAcntStat, {}), (opMtrRd, {}), (opQstRd, {}), (opQstClr, {}), (opRaCancel,
    {})] := allIssue_of _ (by decide +kernel)

theorem witness_VectorSlots_issues : AllIssue [
  (opVadd, {}), (opVsub, {}), (opVmul, {}), (opVmax, {}), (opVmin, {}), (opVand, {}), (opVor, {}), (opVxor, {}), (opVbcast, {}),
    (opVexp, {}), (opVfma, {}), (opVrsum, {}), (opVext, {}), (opVld, {}), (opVst, {}), (opCvtQ, {}), (opCvtDq, {}), (opCvtF,
      {})] := allIssue_of _ (by decide +kernel)

theorem witness_TransfersIssue_issues : AllIssue [
  (opMovGh, { y := 2, z := 1 }), (opMovHg, { x := 2, z := 1 }), (opMovHh, { z := 1 }), (opMovGg, { x := 2, y := 2, z := 1 }),
    (opGlnFill, { x := 2, y := 1 }), (opGlnInval, { x := 2, y := 1 }), (opCvtBlk, {}), (opEmbGather, {}), (opAdpLd,
      {})] := allIssue_of _ (by decide +kernel)

theorem witness_FabricSends_issues : AllIssue [
  (opFabLd, {}), (opFabSt, {}), (opFabAtom, {}), (opFabNotify, {})] := allIssue_of _ (by decide +kernel)

theorem witness_FabricCopies_issues : AllIssue [
  (opFabPut, { y := 3 }), (opFabCopy, { z := 1 })] := allIssue_of _ (by decide +kernel)

theorem witness_PullsAndShips_issues : AllIssue [
  (opFabPull, {}), (opFabQship, {})] := allIssue_of _ (by decide +kernel)

theorem witness_RowUpdates_issues : AllIssue [
  (opRowFlush, {})] := allIssue_of _ (by decide +kernel)

theorem witness_EngineOperations_issues : AllIssue [
  (opFabWstream, { x := 1 }), (opMirPush, {}), (opMirDrop, {}), (opRbStart, {}), (opEngFence, {})] := allIssue_of _ (by decide +kernel)

theorem witness_UnitOperationsIssue_issues : AllIssue [
  (opTileMm, {}), (opTileMmAcc, {}), (opAttnMerge, {}), (opWinTopk, {}), (opSieveMask, {}), (opSmpDraw, {}),
    (opHskEnc, { mod := 1 }), (opHskEncBlk, { x := 1 }), (opHskDec, { mod := 1 })] := allIssue_of _ (by decide +kernel)

theorem witness_AttentionIssues_issues : AllIssue [
  (opAttnPart, {})] := allIssue_of _ (by decide +kernel)

theorem witness_SheafInstructions_issues : AllIssue [
  (opShfAdmit, {}), (opShfLookup, {}), (opShfRd, {}), (opShfWrite, {}), (opShfSetstate, {}), (opShfFree, {}), (opShfBatch, {}),
    (opShfCommit, {})] := allIssue_of _ (by decide +kernel)

theorem witness_PageTables_issues : AllIssue [
  (opPtInit, { y := 1 }), (opPtLayer, { y := 4, z := 1 }), (opPtAppend, { y := 1, z := 4 }), (opPtSet, { y := 1, z := 4 }),
    (opPtFree, { y := 4 }), (opPtGet, { y := 1, z := 4 }), (opPtTail, {}), (opPtVcommit, {}), (opPtGeoset,
      {})] := allIssue_of _ (by decide +kernel)

theorem witness_PoolAndTables_issues : AllIssue [
  (opFrmAlloc, {}), (opFrmFree, { y := 1 }), (opMgOpen, {}), (opMgClose, {}), (opMgStat, {}), (opCbLoad, { z := 1 }), (opCbRetire, {}),
    (opCbStat, {}), (opEmbPublish, {}), (opAdpPublish, {}), (opAdpRetire, {})] := allIssue_of _ (by decide +kernel)

theorem witness_HandoverInstructions_issues : AllIssue [
  (opHoOffer, {}), (opHoAccept, { z := 1 }), (opHoRefuse, {}), (opHoConfirm, {}), (opHoLose, {}), (opHoStat, {}), (opHoAdopt,
    {})] := allIssue_of _ (by decide +kernel)

theorem row_fits (n : Nat) (h : n ≤ 0x300000) : ckHull 0 n 64 = [] := by
  have hb : bits 0 31 0 = 0 := by decide
  simp [ckHull, ckBits, chk, fld, hb]
  omega

/-- The blocks' shapes are free, so the extents of WIN.MERGE's operands are shown to fit, not computed. -/
theorem witness_UnitOperationsIssue_merge : ∃ p, ready.issues opWinMerge 0 { ctr := some 31 } p := by
  have h (m : Memory) (a : Nat) : blockBytes m a ≤ 0x300000 := by
    have h1 := Nat.mod_lt (Config.blockShape (m.readBytes a 16)).toNat (show 64 > 0 by decide)
    have h2 := Nat.mod_lt ((Config.blockShape (m.readBytes a 16)).toNat / 64) (show 64 > 0 by decide)
    have := Nat.mul_le_mul (show 1 + (Config.blockShape (m.readBytes a 16)).toNat % 64 ≤ 64 by omega)
      (show 1 + (Config.blockShape (m.readBytes a 16)).toNat / 64 % 64 ≤ 64 by omega)
    simp only [blockBytes, blockShape, winBytes, Nat.mul_assoc]
    omega
  refine ⟨prog0, by decide +kernel, by decide +kernel, by decide +kernel, by decide +kernel, by decide +kernel, ?_⟩
  have r : (ready.ctx 0 { ctr := some 31 } prog0).x = 0 ∧ (ready.ctx 0 { ctr := some 31 } prog0).y = 0 ∧
      (ready.ctx 0 { ctr := some 31 } prog0).z = 0 := by decide +kernel
  have u : (ready.winnowFor (ready.ctx 0 { ctr := some 31 } prog0).field).isSome = true := by decide +kernel
  simp only [SlotOp.allChecks, SlotOp.upsets, opWinMerge, List.filterMap_nil, List.append_nil, r, u, if_true, row_fits _ (h _ _)]
  decide +kernel

theorem witness_RowUpdates_puts : ∀ op ∈ [opRowSt, opRowAdd], ∃ p, ready.issues op 0 { ctr := some 31 } p := by
  have ha : ready.adpVer 0 0 = none := by decide +kernel
  have hn : (ready.rowShape 0 0).1.1 ≤ 0x300000 := by
    simp only [State.rowShape, ha]
    omega
  have hc : ∀ op ∈ [opRowSt, opRowAdd], op.allChecks (ready.ctx 0 { ctr := some 31 } prog0) ready = [] := by
    intro op h
    have e : op.allChecks (ready.ctx 0 { ctr := some 31 } prog0) ready =
        ckBits 0 (2 ^ 44 - 1) ++ ckBits 0 (2 ^ 14 - 1) ++ ckHull 0 (ready.rowShape 0 0).1.1 64 ++
          chk (ready.rdf ⟨.slcJob, 0, 0, 0⟩ 31 0 != 0) 0x06 0 := by
      rcases List.mem_pair.mp h with rfl | rfl <;> simp [SlotOp.allChecks, SlotOp.upsets, opRowSt, opRowAdd, rowOp] <;> rfl
    rw [e, row_fits _ hn]
    decide +kernel
  intro op h
  refine ⟨prog0, ?_, ?_, ?_, ?_, ?_, by rw [hc op h]; rfl⟩ <;> rcases List.mem_pair.mp h with rfl | rfl <;> decide +kernel

/-! ### Witnesses of slots on registers -/

theorem ready_issuing (l : List (Fin 64)) : ready.issuing 0 0 l prog0 :=
  ⟨by decide +kernel, by decide +kernel, fun n _ => by simp [State.awaited, show ready.adoptions = [] by decide +kernel]⟩

theorem witness_ScalarArithmetic : ∃ p, ready.issuing 0 0 [1, 2, 3] p := ⟨_, ready_issuing _⟩

theorem witness_ScalarImmediates : (∃ p, ready.issuing 0 0 [1, 2] p) ∧ (63 : BitVec 32).toNat < 64 :=
  ⟨⟨_, ready_issuing _⟩, by decide⟩

theorem witness_ScalarComparisons : (∃ p, ready.issuing 0 0 [1, 2] p) ∧ (7 : Fin 64).val < 8 ∧ (15 : Fin 64).val < 16 :=
  ⟨⟨_, ready_issuing _⟩, by decide⟩

theorem witness_Branches : ∃ p, (ready.setG 0 5 4095).issuing 0 0 [5, 6] p ∧ (((ready.setG 0 5 4095).furrow 0).gr 5).toNat < 4096 :=
  ⟨prog0, ⟨by decide +kernel, by decide +kernel, by decide +kernel⟩, by decide +kernel⟩

theorem witness_ProgramEnds : ∃ p, ready.issuing 0 0 [] p := ⟨_, ready_issuing _⟩

theorem witness_PredicatedSlots : Instr.asSlot (.add 0 { pred := 7 }) = some (opAdd, 0, { pred := 7 }) ∧
    ready.running 0 = some prog0 ∧ opAdd.enc.fault { pred := 7 } = none ∧ (ready.furrow 0).pr 7 = false :=
  ⟨rfl, by decide +kernel⟩

/-- An error in Furrow 0's Hull, in line 2, that nothing has found yet. -/
def upset : State := ready.modHull 0 (fun m => { m with upset := [2] })

theorem witness_SlotOutcomes :
    (State.reset.running 0 = none ∧ ready.running 0 = some prog0) ∧ opAdd.enc.fault { mod := 1 } = some 1 ∧
    opAdd.enc.fault { w := 1 } = some 3 ∧
    (opWait.enc.fault { imm := -1 } = none ∧ opWait.stalls (ready.ctx 0 { imm := -1 } prog0) ready = true) ∧
    (opWait.waits (ready.ctx 0 {} prog0) ready = false ∧ opWait.room (ready.furrow 0) = true ∧
      firstFailure (opWait.allChecks (ready.ctx 0 {} prog0) ready) = none) ∧
    firstFailure (opVld.allChecks (ready.ctx 0 { imm := 1 } prog0) ready) = some (0x08, 1) ∧
    (let s : State := { ready with adoptions := [(4, ⟨0, 9, 5, 0, {}, [1], []⟩)] };
      ((opAdd.enc.gregs { x := 5 }).any (s.awaited 0) = true ∧ (opAdd.enc.gregs { x := 6 }).any (s.awaited 0) = false)) ∧
    firstFailure (opVld.allChecks (upset.ctx 0 {} prog0) upset) = some (0x0B, 128) := by decide +kernel

/-! ### Witnesses of operations that end -/

/-- An operation of Furrow 0. -/
def op0 (opc : Nat) (cls : OpClass) : AsyncOp := { id := 0, opc, cls }

/-- `ready` with one operation outstanding. -/
def busy (o : AsyncOp) : State := ready.modFurrow 0 (fun r => { r with ops := [o] })

theorem witness_MovesComplete :
    ∀ k ∈ [0x61, 0x62, 0x63, 0x64], (busy (op0 k .mov)).op? 0 0 = some (op0 k .mov) ∧ (op0 k .mov).cls = .mov := by decide +kernel

/-- A search or draw of Furrow 0's operation 0. -/
def job0 (enc : Bool) : UnitJob := ⟨enc, 0, 0⟩

/-- Winnow and Sieve of Field 0 run a job of an operation. -/
def running (enc : Bool) (opc : Nat) : State :=
  { busy (op0 opc .cod) with winnow := [(0, { running := some (job0 enc) })], sieve := [(0, { running := some (job0 enc) })] }

theorem witness_UnitsWork :
    (∀ e ∈ [true, false], let s : State := { ready with winnow := [(0, { queue := [job0 e] })] };
      (s.winnowAt 0).running = none ∧ s.winnowUp 0 = true ∧
      (((s.winnowAt 0).queue.find? (fun (j : UnitJob) => j.enc)).or (s.winnowAt 0).queue.head?) = some (job0 e)) ∧
    (let s : State := { ready with sieve := [(0, { queue := [job0 false] })] };
      (s.sieveAt 0).running = none ∧ s.sieveUp 0 = true ∧ (s.sieveAt 0).queue = [job0 false]) ∧
    (let s := running false 0xA8;
      (s.winnowAt 0).running = some (job0 false) ∧ s.op? 0 0 = some (op0 0xA8 .cod)) ∧
    (∀ p ∈ [(true, 0xA1), (false, 0xA8), (false, 0xA9)], let s := running p.1 p.2;
      let t := ((s.meterJob 3 (job0 p.1) 1).modWinnow 0 (fun u => { u with running := none })).offIfDue (.winnowPair 0);
      (s.winnowAt 0).running = some (job0 p.1) ∧ t.op? 0 0 = some (op0 p.2 .cod)) ∧
    (∀ k ∈ [0xB0, 0xB1], let s := running false k;
      let t := ((s.meterJob 4 (job0 false) 1).modSieve 0 (fun u => { u with running := none })).offIfDue (.sievePair 0);
      (s.sieveAt 0).running = some (job0 false) ∧ t.op? 0 0 = some (op0 k .cod)) := by decide +kernel

/-- Array 0 holds a job of Furrow 0's operation 0: waiting, or running. -/
def arrayJob (kind : JobKind) (runs : Bool) (opc : Nat) : State :=
  { busy (op0 opc .mat) with arrays := [(0, if runs then { running := some ⟨kind, 0, 0⟩, bufs := [⟨[], [], [], false⟩] }
                                            else { queue := [⟨kind, 0, 0⟩] })] }

theorem witness_ArraysWork :
    (∀ k ∈ [JobKind.tile, JobKind.merge, JobKind.part], let s := arrayJob k false 0xC0;
      (s.array 0).running = none ∧ s.arrayAvailable 0 = true ∧ s.nextJob 0 = some ⟨k, 0, 0⟩ ∧
      (s.modArray 0 (fun a => { a with running := some ⟨k, 0, 0⟩, lastFurrow := 0, queue := [] })).op? 0 0 = some (op0 0xC0 .mat)) ∧
    (let s := arrayJob .tile true 0xC0;
      (s.array 0).running = some ⟨.tile, 0, 0⟩ ∧ s.op? 0 0 = some (op0 0xC0 .mat) ∧ (op0 0xC0 .mat).latch.headD 0 = 0 ∧
      (s.array 0).bufs.head? = some ⟨[], [], [], false⟩) ∧
    (let s := arrayJob .part true 0xC8;
      s.op? 0 0 = some (op0 0xC8 .mat) ∧ s.arrayOf ⟨.part, 0, 0⟩ = some 0 ∧ (op0 0xC8 .mat).attn.gid = 0) ∧
    (let o : AsyncOp := { op0 0xC8 .mat with latch := [1] };
      let s : State := { busy o with arrays := [(0, { running := some ⟨.part, 0, 0⟩ })] };
      s.op? 0 0 = some o ∧ s.arrayOf ⟨.part, 0, 0⟩ = some 0 ∧ o.attn.gid ≠ 0 ∧ (s.partDo 0 o).cause ≠ 0) ∧
    (let s := arrayJob .merge true 0xC9;
      s.op? 0 0 = some (op0 0xC9 .mat) ∧ s.arrayOf ⟨.merge, 0, 0⟩ = some 0) ∧
    (let s := busy (op0 0xA1 .cod);
      s.op? 0 0 = some (op0 0xA1 .cod) ∧ isPQ ((op0 0xA1 .cod).mod % 256) = false) ∧
    (∀ k ∈ [0xA2, 0xA3], (busy (op0 k .cod)).op? 0 0 = some (op0 k .cod)) := by decide +kernel

theorem witness_PageTables :
    let e : DeferredEdit := ⟨5, 0xE5, 2000, 2000, 0, 0, 0, 0, 0⟩;
    let s : State := { ready with deferred := [(0, [e])] };
    (Table.get [] s.deferred 0).find? (fun e => e.id = 5) = some e ∧ s.walked (s.editFrame e.opc (selOf e.sel)) = false ∧
      s.deferredEdits.any (fun d => d.id < e.id && d.touches e.opc (selOf e.sel)) = false := by decide +kernel

/-! ### Witnesses of registers -/

/-- `ready` with the CONFIG lock set. -/
def lockedDev : State := ready.wrf ⟨.secLock, 0, 0, 0⟩ 1 1 1

/-- Control core 0 runs, bound to no slice. -/
def coreReady : State := { ready with domains := 96 :: ready.domains }

/-- The same, bound to slice 0. -/
def coreBound : State := coreReady.wr ⟨.slcCore, 0, 0, 0⟩ 0x40

theorem witness_RegisterReads :
    ready.reaches (.bound 0) ⟨.chpNodeId, 0, 0, 0⟩ false = false ∧
    (ready.reaches .supervisor ⟨.frwSlice, 64, 0, 0⟩ false = true ∧ (⟨.frwSlice, 64, 0, 0⟩ : Csr).inRange = false) ∧
    ready.csrOff ⟨.frwExcPc, 63, 0, 0⟩ = true ∧
    ((⟨.frwSlice, 0, 0, 0⟩ : Csr).inRange = true ∧ ready.csrOff ⟨.frwSlice, 0, 0, 0⟩ = false) ∧
    (mayCommand .hmp = true ∧ Csr.ofOffset 0x5FFFFF8 = none) ∧
    (ready.coreRuns 0 = false ∧ coreReady.coreRuns 0 = true ∧ coreReady.coreSlice 0 = none ∧ coreBound.coreRuns 0 = true ∧
      coreBound.coreSlice 0 = some 0) ∧
    (regionOf 0x5FFFFFFFF8 8 = .granary ∧ regionOf 0x5FFFFFFFFC 8 = .reserved ∧ regionOf 0xF000000000 8 = .csr 0 ∧
      regionOf 0xF005FFFFF8 8 = .csr 0x5FFFFF8 ∧ regionOf 0xF006000000 8 = .reserved ∧ regionOf 0xF000000004 4 = .csr 4 ∧
      regionOf 0xF100000000 4 = .plic 0 ∧ regionOf 0xF104000000 4 = .reserved) ∧
    (plicAt 0x200004 = .claim 0 ∧ plicAt 0x21F004 = .claim 31 ∧ plicAt 0x21F000 = .threshold 31) ∧
    ((Csr.ofOffset 0).any (fun r => coreReady.reaches (coreReady.coreWho 0) r false && !coreBound.reaches (coreBound.coreWho 0) r false) =
      true) ∧
    (coreBound.frameOf 0 2000 = true ∧ coreBound.frameOf 0 2001 = false) := by decide +kernel

theorem witness_ReservedOffsets :
    Csr.ofOffset 0x5FFFFF8 = none ∧ (coreReady.coreRuns 0 = true ∧ coreReady.coreSlice 0 = none) ∧
    (coreBound.coreRuns 0 = true ∧ (coreBound.coreSlice 0).isSome = true) ∧ coreReady.rdf ⟨.chpCsrErrCnt, 0, 0, 0⟩ 31 0 + 1 < 2 ^ 32 := by
  decide +kernel

theorem witness_ConfigurationWrites :
    mayCommand .supervisor = true ∧ ready.domainOn 72 = true ∧
    RegName.fabTimeout.spec.permits 64 = true ∧ RegName.fabHoLease.spec.permits 1000 = true ∧
    (ready.partition 0 = some (0, 32768) ∧ 32767 < 0 + 32768 ∧ 0 < 32767 + 1) ∧ 32768 < 1 + 32768 ∧
    (State.reset.partition 0 = none ∧ (0 : Nat) + 32768 ≤ 32768) ∧
    (let s := ready.setEntry 5 { state := .parked };
      (s.partition 0 = some (0, 32768) ∧ (0 : Word) ≠ s.rd ⟨.shfPart, 0, 0, 0⟩ ∧ (s.entry 5).state ≠ .free)) := by decide +kernel

/-- Queue 0 of Furrow 0 with a ring of 16, enabled, one descriptor waiting, in Granary at frame 2000. -/
def queued (s : State) : State :=
  ((s.wr (cq .frwCqCtl 0 0) 0x14).wr (cq .frwCqBase 0 0) 131072000).wr (cq .frwCqTail 0 0) 1

theorem witness_UnitWrites :
    (ready.domainOn 0 = true ∧ ready.reaches .supervisor (cq .frwCqCtl 0 0) true = true) ∧
    (∀ k ∈ [4, 12], let s := ready.wr (cq .frwCqCtl 0 0) (BitVec.ofNat 64 k);
      (4 ≤ s.rdf (cq .frwCqCtl 0 0) 3 0 ∧ s.rdf (cq .frwCqCtl 0 0) 3 0 ≤ 12)) ∧
    RegName.frwGlnReg.spec.permits 0xBE8 = true ∧
    (ready.furrow 0).prog.isSome = true ∧ (queued State.reset).rdb (cq .frwCqCtl 0 0) 4 = true ∧
    ((State.reset.furrow 0).prog = none ∧ ∀ q < 4, State.reset.rdb (cq .frwCqCtl 0 q) 4 = false) := by decide +kernel

/-- Furrow 0 with no program and a descriptor waiting, bound or not to slice 0. -/
def idle (bound : Bool) : State :=
  ((queued ready).modFurrow 0 (fun r => { r with prog := none })).wr ⟨.frwSlice, 0, 0, 0⟩ (if bound then 0x40 else 0)

/-- A Furrow whose program is in some phase. -/
def inPhase (p : Phase) : State := ready.modProg 0 (fun q => { q with phase := p })

theorem witness_ProgramsStartAndEnd :
    (∀ b ∈ [true, false], (idle b).furrowServes 0 = true ∧ ((idle b).furrow 0).prog = none ∧
      firstBelow 4 ((idle b).queueReady 0) = some 0) ∧
    (idle true).bound 0 = some 0 ∧ (idle false).bound 0 ≠ some 0 ∧ (idle true).sliceEnabled 0 = true ∧
    ((idle true).wrf (slcCtl 0) 2 0 1).sliceEnabled 0 = false ∧
    bits (leAt ((idle true).mem.readBytes 131072000 64) 0 8) 17 12 = 0 ∧
    (ready.furrow 0).prog = some prog0 ∧
    ((inPhase .ending).furrow 0).prog = some { prog0 with phase := .ending } ∧ ((inPhase .ending).furrow 0).ops = [] := by
  decide +kernel

/-- Furrow 0 is at bundle 0 of an image of one bundle. -/
def atBundle (b : BitVec 512) (fetched : Bool) : State :=
  (ready.modFurrow 0 (fun r => { r with imem := [(0, b)], imageLen := 1 })).modProg 0
    (fun p => { p with fetched := if fetched then some b else none })

/-- A bundle with one instruction in its first slot or, shifted, in a later one. -/
def lone (op : SlotOp) (o : Slot) (k : Nat) : BitVec 512 := (op.enc.word o).zeroExtend 512 <<< (64 * k)

theorem witness_BundlesAndExceptions :
    (∃ p, ready.running 0 = some p ∧ p.fetched = none ∧ (ready.furrow 0).imageLen ≤ p.pc) ∧
    (let s := atBundle (lone opAdd { mod := 1 } 1) false;
      (s.running 0 = some prog0 ∧ prog0.pc < (s.furrow 0).imageLen ∧
        bundleCheck (Table.get 0 (s.furrow 0).imem 0) = some (0x01, 1, opAdd.enc.word { mod := 1 }))) ∧
    bundleCheck (lone opAdd {} 1) = none ∧
    (let on (op : SlotOp) (o : Slot) (k : Nat) : List Issue :=
       (issues 0 ((atBundle (lone op o k) true).furrow 0) 0 (lone op o k)).filter Issue.taken
     (on opWait { imm := -1 } 6).any (fun i => i.held ready) = true ∧
     ((on opVld { imm := 1 } 2).any (fun i => i.held ready) = false ∧ issueFault (on opVld { imm := 1 } 2) ready = some (0x08, 2, 1)) ∧
     ((on opAdd {} 1).any (fun i => i.held ready) = false ∧ issueFault (on opAdd {} 1) ready = none ∧ on opAdd {} 1 ≠ [])) ∧
    (let s : State := { (ready.wr ⟨.frwWdog, 0, 0, 0⟩ 1).modProg 0 (fun p => { p with stallSince := some 0 }) with time := 1000 };
      (s.running 0 = some { prog0 with stallSince := some 0 } ∧ s.rdf ⟨.frwWdog, 0, 0, 0⟩ 31 0 ≠ 0 ∧
        1 * 1024 < s.aclkCycles 0 (1000 - 0) ∧
        s.aclkCycles 0 (487 - 0) ≤ 1 * 1024)) ∧
    (let e : Exc := ⟨0x0B, 4, 0, 0⟩;
      (((inPhase (.excepting e)).furrow 0).prog = some { prog0 with phase := .excepting e } ∧
        ((inPhase (.excepting e)).furrow 0).rows = [] ∧ ((inPhase (.excepting e)).furrow 0).ops = [] ∧
        (((inPhase (.excepting e)).modFurrow 0 (fun r => { r with rows := [⟨3, 0, 0, 0, 0, 0, false, false, [], false, [1]⟩] })).furrow
          0).rows ≠ [])) ∧
    issueFault ((issues 0 (upset.furrow 0) 0 (lone opVld {} 2)).filter Issue.taken) upset = some (0x0B, 2, 128) := by
  refine ⟨⟨prog0, by decide +kernel⟩, by decide +kernel, by decide +kernel, ⟨by decide +kernel, by decide +kernel, ?_⟩, by decide +kernel,
    by decide +kernel, by decide +kernel⟩
  refine ⟨by decide +kernel, by decide +kernel, ?_⟩
  intro h
  have := congrArg List.length h
  revert this
  decide +kernel

theorem witness_FrameHousekeeping :
    (1536 ∈ ({ ready with zeroing := [1536] } : State).zeroing ∧ 1536 ∉ ready.zeroing) ∧
    (ready.aged = ready.time / 1000000 ∧ ({ ready with time := 1000000 } : State).aged ≠ 1000000 / 1000000) ∧
    (let s := ready.wr ⟨.frwGlnReg, 0, 15, 0⟩ 0x801;
      let due := Table.get 0 (s.furrow 0).refreshed 15 + 100000 * s.rdf ⟨.frwGlnReg, 0, 15, 0⟩ 9 0;
      (s.rdb ⟨.frwGlnReg, 0, 15, 0⟩ 11 = true ∧ s.time < due ∧ due ≤ ({ s with time := 100000 } : State).time)) ∧
    ready.rdb ⟨.frwGlnReg, 0, 15, 0⟩ 11 = false := by
  decide +kernel

/-- Granary at frame 2010 holds model 0's geometry (8 layers, 1 query and 1 KV head of 64), and slice 0's journal, hold table and
inbox follow; request 9 is in entry 5. -/
def tables : State :=
  let s := ready.wr ⟨.shfGeoBase, 0, 0, 0⟩ 131727360;
  let s := s.gwrite 131727360 (toBytes 4 (8 + 2 ^ 9 + 2 ^ 16 + 64 * 2 ^ 21 + 2 ^ 31) ++ toBytes 4 0 ++ toBytes 8 16 ++ toBytes 8 0) false;
  let s := ((s.wr ⟨.fabHoJnlBase, 0, 0, 0⟩ 131731456).wr ⟨.fabHoJnlCtl, 0, 0, 0⟩ 1).wr ⟨.fabHoldBase, 0, 0, 0⟩ 131735552;
  let s := ((s.wr ⟨.fabHoldCtl, 0, 0, 0⟩ 1).wr ⟨.fabHoInboxBase, 0, 0, 0⟩ 131739648).wr ⟨.fabHoInboxCtl, 0, 0, 0⟩ 4;
  s.setEntry 5 { state := .parked, reqId := 9, root := mkHandle 0 2000 0 0 1 }

/-- A value that a thermal register permits. -/
def therm : Word := BitVec.ofNat 64 (90 + 100 * 2 ^ 8)

theorem witness_PlainRegisterWrites : ∀ r ∈ [(⟨.tltTherm, 0, 0, 0⟩ : Csr)],
    let ok (v : Word) : Bool := r.reg.spec.fields.all (fun g => (g.acc != .rw && g.acc != .rwl) || g.permit.ok v (fld v g.hi g.lo))
    (∀ s ∈ [ready, lockedDev], s.reaches .supervisor r true = true ∧ r.inRange = true ∧ s.csrOff r = false) ∧
      ok 0 = false ∧ ok therm = true ∧ ready.lockedReg r = false ∧ lockedDev.lockedReg r = true ∧
      (∃ g ∈ r.reg.spec.fields, g.acc = .rwl) := by
  decide +kernel

/-- A walk of entry 5's table. -/
def walk0 (kind : WalkKind) : Walk :=
  { id := 3, kind, furrow := 0, root := mkHandle 0 2000 0 0 1, layer := 0, first := 0, cap := 1, src := .entry 5 false,
    req := if kind = .pull then some { op := 6, addr := 0 } else none }

theorem witness_WalksAdvance :
    tables.walk? 3 = none ∧
    (∀ k ∈ [WalkKind.attn, .qship, .pull, .push], let w := walk0 k;
      let s : State := { tables with walks := [w] };
      s.walk? 3 = some w ∧ (k = .pull → w.req.isSome = true) ∧ (w.latched = false ∧ s.walkSlots w.furrow < 8 ∧ s.walkBlocked w = false ∧
        s.walkAhead w = false) ∧ ((s.latch w).walk? 3).any (fun w => w.latched && w.kind = k) = true) ∧
    (let w := walk0 .pull;
      let full : State := { tables with walks := w :: (List.range 8).map (fun i => { w with id := 10 + i, latched := true }) };
      let edited : State := { tables with walks := [w], deferred := [(0, [⟨5, 0xE2, 2000, 2000, 0, 0, 0, 0, 0⟩])] };
      let behind : State := { tables with walks := [{ w with id := 2 }, w] };
      ((full.walk? 3 = some w ∧ 8 ≤ full.walkSlots 0) ∧ (edited.walk? 3 = some w ∧ edited.walkBlocked w = true) ∧
        (behind.walk? 3 = some w ∧ behind.walkAhead w = true))) ∧
    (∀ k ∈ [WalkKind.attn, .qship, .pull, .push], let w := { walk0 k with latched := true, held := [2000, 2001] };
      let s : State := { tables with walks := [w] };
      s.walk? 3 = some w ∧ 2001 ∈ w.held ∧ 2001 ≠ handleFrame w.root ∧ 1536 ∉ w.held ∧ 2000 = handleFrame w.root) := by
  decide +kernel

/-- Frame 2001 is a page of entry 5 at layer 0, index 0, being demoted with its copy known. -/
def demotes (age : Nat) : State :=
  let s := (tables.setGword (2000 * 65536 + 0x40) (mkHandle 0 2002 0 0 1)).setGword (2000 * 65536 + 0x48)
    (BitVec.ofNat 64 (2 ^ 13 + 2 ^ 34 + 2 ^ 47));
  let s := s.setGword (2002 * 65536) (mkHandle 0 2001 0 0 1);
  { s with desc := (2001, { pool := 2, age, backV := true, sheaf := 5 }) :: s.desc
           demoting := [(2001, some (mkHandle 3 7 0 0 65), false)] }

/-- An adoption of request 9 that has what answers its members gave. -/
def adopts (waiting : List Nat) (got : List (Nat × Nat × Nat)) (req : Word) : Adoption :=
  ⟨0, 0, 1, 0, { reqId := req, maxLen := 1, mirrorPolicy := 1 }, waiting, got⟩

theorem witness_EvictionAndAdoption :
    ((ready.wr ⟨.slcPoolEvict, 0, 0, 0⟩ 0).rdb ⟨.slcPoolEvict, 0, 0, 0⟩ 8 = false ∧
      (let s : State := { (ready.wr ⟨.slcPoolEvict, 0, 0, 0⟩ 0x100).wr ⟨.slcPoolWm, 0, 0,
        0⟩ (BitVec.ofNat 64 (8000000 * 2 ^ 32)) with evicting := false };
        let low := s.wr ⟨.slcPoolWm, 0, 0, 0⟩ (BitVec.ofNat 64 (8000000 * 2 ^ 32 + 7000000));
        s.rdb ⟨.slcPoolEvict, 0, 0, 0⟩ 8 = true ∧ s.headroom < s.rdf ⟨.slcPoolWm, 0, 0, 0⟩ 54 32 ∧
          s.rdf ⟨.slcPoolWm, 0, 0, 0⟩ 22 0 ≤ s.headroom ∧ low.headroom < low.rdf ⟨.slcPoolWm, 0, 0, 0⟩ 22 0)) ∧
    (∀ a ∈ [0, 255], let s := (demotes a).wr ⟨.slcPoolEvict, 0, 0, 0⟩ 1;
      Table.find s.demoting 2001 = some (some (mkHandle 3 7 0 0 65), false) ∧
        s.backHandle 2001 = some (s.entry 5, 2000, 2002 * 65536, mkHandle 0 2001 0 0 1) ∧
        ({ tables with demoting := s.demoting } : State).backHandle 2001 = none ∧
        ((s.frame 2001).pool = 2 ∧ (s.frame 2001).walks = 0 ∧ (s.minAge ≤ (s.frame 2001).age ↔ a = 255) ∧ (s.entry 5).inStep = false ∧
          demotable (s.entry 5).state = true ∧ handleFlag (mkHandle 0 2001 0 0 1) 4 = false)) ∧
    (∀ w ∈ [[1], []], Table.find ({ tables with adoptions := [(4, adopts w [] 10)] } : State).adoptions 4 = some (adopts w [] 10)) ∧
    ((adopts [] [] 10).got.length < adoptNeed 1 ∧ adoptNeed 1 ≤ (adopts [] [(0, 1, 1)] 10).got.length) ∧
    (tables.admitStatus 0 (adopts [] [] 9).template ≠ 0 ∧ tables.admitStatus 0 (adopts [] [] 10).template = 0 ∧
      tables.lowestFree 0 = some 0) := by decide +kernel

/-! ### Witnesses of the fabric -/

/-- Slice 0 serves requests of every kind from frame 2000 on. -/
def serving : State :=
  { tables with stt := [(0, BitVec.ofNat 64 (15 * 2 ^ 28 + 2 ^ 51 + 0x7F * 2 ^ 52), 131072000, 0, BitVec.ofNat 64 (16383 * 2 ^ 16))]
                domains := [0, 64, 65, 72, 114, 116] }

/-- A request of node 3 with job 7, its PLEN true. -/
def ask (op subop len : Nat) (payload : List Byte) : Req :=
  { op, subop, src := 3, job := 7, len, payload, plen := payload.length / 8 }

/-- What the screen answers, by kind: 0 discarded, 1 refused, 2 served. -/
def verdict (s : State) (m : Req) : Nat :=
  match (s.screen m).1 with
  | .discarded => 0
  | .refused => 1
  | .served _ => 2

theorem verdict_served {s : State} {m : Req} (h : verdict s m = 2) : ∃ t u, s.screen m = (.served t, u) := by
  rcases hs : s.screen m with ⟨v, u⟩
  cases v with
  | served t => exact ⟨t, u, rfl⟩
  | _ => simp [verdict, hs] at h

theorem inTurn_of {s : State} {m : Req} (h : verdict s m = 2) (hr : m.resync = false)
    (hn : seqAhead m ((s.screen m).2.rxStream ((s.screen m).2.reqStream m)) = 0) : ∃ t u, s.inTurn m t u := by
  obtain ⟨t, u, e⟩ := verdict_served h
  exact ⟨t, u, e, hr, by simpa [e] using hn⟩

/-- The next request of its stream. -/
def Next (m : Req) : Prop := ∃ t u, serving.inTurn m t u

theorem nexts_of (l : List Req)
    (h : l.all (fun m => verdict serving m == 2 && !m.resync &&
      seqAhead m ((serving.screen m).2.rxStream ((serving.screen m).2.reqStream m)) == 0) = true) : ∀ m ∈ l, Next m := by
  intro m hm
  have hb := List.all_eq_true.mp h m hm
  simp only [Bool.and_eq_true, beq_iff_eq, Bool.not_eq_true'] at hb
  exact inTurn_of hb.1.1 hb.1.2 hb.2

/-- One request of every write-class kind but HANDOVER. -/
def writes : List Req :=
  [ask 2 0 0 (toBytes 8 1), ask 5 0 0 (toBytes 64 1), ask 9 0 0 (toBytes 16 0), ask 10 0 0 (fillBytes 65544 0), ask 11 0 0 (toBytes 8 0),
    ask 8 0 0 (toBytes 8 0), ask 8 0 0 (toBytes 8 1)] ++
  (List.range 9).map (fun k => ask 3 k 8 (toBytes (if k = 6 then 16 else 8) 1))

theorem witness_StoresAndAtomics : ∀ m ∈ writes, Next m := nexts_of _ (by decide +kernel)

theorem witness_OtherWrites : (∀ m ∈ writes, Next m) ∧ notifyKind (ask 8 0 0 (toBytes 8 0)) = 0 ∧
  notifyKind (ask 8 0 0 (toBytes 8 1)) = 1 :=
  ⟨witness_StoresAndAtomics, by decide +kernel⟩

/-- A store of eight bytes. -/
def store8 : Req := ask 2 0 0 (toBytes 8 1)

theorem witness_WritesInOrder :
    verdict serving { store8 with job := 0 } = 0 ∧ verdict ready store8 = 1 ∧
    seqAhead store8 ((ready.screen store8).2.rxStream ((ready.screen store8).2.reqStream store8)) = 0 ∧
    (∀ k ∈ [1, 255], let m := { store8 with seq := k };
      verdict serving m = 2 ∧ seqAhead m ((serving.screen m).2.rxStream ((serving.screen m).2.reqStream m)) ≠ 0 ∧
        ((serving.screen m).2.rxStream ((serving.screen m).2.reqStream m)).held = [] ∧
        (serving.screen m).2.storeRoom (reqField m) m.payload.length = true) ∧
    (let m := { store8 with seq := 1 };
      let s : State := { serving with rx := [((3, 0, 0), { held := [(m, none)], holeSince := some 0 })] };
      (verdict s m = 2 ∧ ((s.screen m).2.rxStream ((s.screen m).2.reqStream m)).held.any (fun h => h.1.seq == m.seq) = true)) ∧
    verdict serving { store8 with resync := true, seq := 9 } = 2 ∧
    reservedOp { store8 with op := 14 } = true ∧ reservedHeader { store8 with reserved := true } = true := by decide +kernel

theorem witness_storeFull :
    let h : Req × Option Target := ({ store8 with seq := 7, payload := [], len := 0 }, none);
    let m := { store8 with seq := 1 };
    let s : State := { serving with rx := [((3, 0, 0), { held := List.replicate 2048 h, holeSince := some 0 })] };
    verdict s m = 2 ∧ (s.screen m).2.storeRoom (reqField m) m.payload.length = false := by
  intro h m s
  decide +kernel

/-- Bound to slice 0, Furrow 0 serves ships and pulls of request 9, whose root has 8 layers. -/
def bound : State :=
  (serving.setGword 131072008 (BitVec.ofNat 64 (8 * 2 ^ 20))).wr ⟨.frwSlice, 0, 0, 0⟩ 0x40

/-- A pull of one page of request 9 at an epoch and layer. -/
def pull9 (epoch layer : Nat) : Req := ask 6 0 0 (toBytes 8 9 ++ toBytes 8 (epoch + layer * 2 ^ 32))

/-- A ship of one row of request 9. -/
def ship9 (epoch group : Nat) : Req :=
  ask 7 0 0 (toBytes 8 9 ++ toBytes 8 epoch ++ toBytes 8 (1 * 2 ^ 32 + 2 ^ 45 + 6 * 2 ^ 54) ++ toBytes 8 (2 ^ 24) ++
    toBytes 8 (group + 1000 * 2 ^ 32) ++ fillBytes (8 + 128) 0)

/-- The places of a request's target. -/
def placesOf (s : State) (m : Req) : Option (List (Option Nat × Nat × Nat)) :=
  match s.screen m with
  | (.served t, u) => u.places (gaSlice m.addr) t m.len false
  | _ => none

/-- The table entry names Furrow 0's Hull. -/
def hullServing : State :=
  { bound with stt := [(0, BitVec.ofNat 64 (15 * 2 ^ 28 + 2 ^ 51 + 0x7F * 2 ^ 52), 0, 0, BitVec.ofNat 64 (16383 * 2 ^ 16 + 2 * 2 ^ 30))] }

theorem witness_ReadRequests_loads :
    (let s : State := { serving with rx := [((3, 0, 0), { held := [(store8, none)] })] };
      let m := { ask 1 0 8 [] with ord := true };
      (verdict s m = 2 ∧ (s.screen m).2.ordWaits m = true ∧ verdict s (ask 1 0 8 []) = 2 ∧
        (s.screen (ask 1 0 8 [])).2.ordWaits (ask 1 0 8 []) = false)) ∧
    (verdict { serving with desc := [] } (ask 1 0 8 []) = 2 ∧ placesOf { serving with desc := [] } (ask 1 0 8 []) = none) ∧
    placesOf serving (ask 1 0 8 []) = some [(none, 131072000, 8)] ∧
    placesOf hullServing (ask 1 0 8 []) = some [(some 0, 0, 8)] ∧
    placesOf serving (ask 4 0 64 []) = some [(none, 131072000, 64)] ∧
    (verdict { serving with desc := [] } (ask 4 0 64 []) = 2 ∧ placesOf { serving with desc := [] } (ask 4 0 64 []) = none) := by
  decide +kernel

/-- The state after a request's checks. -/
def after (s : State) (m : Req) : State := (s.screen m).2

theorem witness_ReadRequests_pulls :
    (verdict bound (pull9 1 0) = 2 ∧ (after bound (pull9 1 0)).holderCode 0 3 1 true ((after bound (pull9 1 0)).holding 0 9) = 0x25) ∧
    (∀ l ∈ [7, 8], let u := after bound (pull9 0 l);
      verdict bound (pull9 0 l) = 2 ∧ u.holding 0 9 = some (.entry 5) ∧ u.holderCode 0 3 0 true (some (.entry 5)) = 0 ∧
        u.holdingFrame (.entry 5) = some 2000 ∧ u.servingFurrow 0 (u.holdingField (.entry 5)) = some 0 ∧ u.rootLayers 2000 = 8 ∧
        (pullReqOf (pull9 0 l).payload).layer = l) := by decide +kernel

theorem witness_ReadRequests_ships :
    (let s : State := { bound with abortFilter := [(77, 20000)] };
      (verdict s (ship9 0 77) = 2 ∧ (after s (ship9 0 77)).abortFilter.any (fun p => p.1 == (shipReqOf (ship9 0 77).payload).group) = true)) ∧
    (after bound (ship9 1 0)).holderCode 0 3 1 false ((after bound (ship9 1 0)).holding 0 9) = 0x25 ∧
    (let u := after bound (ship9 0 0);
      (verdict bound (ship9 0 0) = 2 ∧ u.holding 0 9 = some (.entry 5) ∧ u.holderCode 0 3 0 false (some (.entry 5)) = 0 ∧
        (u.geometry (u.holdingModel (.entry 5))).any (fun g => !(shipReqOf (ship9 0 0).payload).bad g (ship9 0 0).payload.length) = true ∧
        u.holdingFrame (.entry 5) = some 2000 ∧ u.servingFurrow 0 (u.holdingField (.entry 5)) = some 0 ∧ u.anyArray 0 = some 0 ∧
        (u.walkStart { walk0 .qship with furrow := 0 }).isSome = true)) ∧
    (let s : State := { bound with walks := (List.range 72).map (fun i => { walk0 .qship with id := i, latched := decide (i < 8) }) };
      s.walkStart (walk0 .qship) = none) := by decide +kernel

/-- A fabric operation of Furrow 0 to node 3, awaiting its answer until 500. -/
def fab0 (op : Nat) : FabOp := { tag := 1, owner := .op 0 0, dst := 3, slice := 0, req := ask op 0 8 [], deadline := some 500 }

/-- The answer of an operation. -/
def reply (op status src stamp : Nat) : Rsp := { op, status, src, tag := 1, stamp }

theorem witness_FabricTimers :
    (∀ d ∈ [none, some 5], let w := { walk0 .qship with req := some (ship9 0 0), stopAt := d };
      let s : State := { bound with walks := [w], time := 5, arrays := [(0, { running := some ⟨.ship, 0, 3⟩ })] };
      s.walk? 3 = some w ∧ s.arrayOf ⟨.ship, 0, 3⟩ = some 0 ∧ w.req = some (ship9 0 0) ∧ w.kind = .qship) ∧
    Table.has ({ bound with groups := [(255, ⟨[], 0, 0⟩)] } : State).groups 255 = true ∧
    (∀ op ∈ [0x0B, 0x02], let o := { fab0 op with resendAt := some 0, again := true };
      let s : State := { bound with fabOps := [o] };
      s.fabOp? 1 = some o ∧ o.resendAt = some 0 ∧ o.again = true ∧ (0 ≤ s.time) ∧ (o.req.op = 0x0B ↔ op = 0x0B)) ∧
    (∀ t ∈ [500, 501], let s : State := { bound with fabOps := [fab0 1], time := t };
      s.fabOp? 1 = some (fab0 1) ∧ (fab0 1).deadline = some 500 ∧ (fab0 1).group = none ∧ (s.time ≤ 500 ↔ t = 500) ∧
        s.answers.any (fun r => r.tag = 1 && (fab0 1).inTime r.stamp) = false ∧ (fab0 1).owner = .op 0 0) ∧
    (3 ≠ bound.node ∧ (bound.rxStream (3, 0, 0)).holeSince = none) ∧
    (let s : State := { bound with rx := [((3, 0, 0), { holeSince := some 0, holeWait := 64000 })] };
      let x := s.rxStream (3, 0, 0);
      (x.holeSince = some 0 ∧ s.time < 0 + x.holeWait ∧ 0 + x.holeWait ≤ ({ s with time := 64000 } : State).time)) := by
  decide +kernel

theorem witness_ResponsesArrive :
    bound.fabOp? 1 = none ∧
    (let s : State := { bound with fabOps := [fab0 1] };
      (s.fabOp? 1 = some (fab0 1) ∧ (fab0 1).unsent = false ∧ (reply 0x83 0 3 0).op ≠ (fab0 1).req.op + 128 ∧
        (reply 0x81 0 4 0).op = (fab0 1).req.op + 128 ∧ (reply 0x81 0 4 0).src ≠ (fab0 1).dst ∧
        (fab0 1).inTime (reply 0x81 0 3 501).stamp = false ∧ (fab0 1).inTime (reply 0x81 0 3 500).stamp = true ∧
        (reply 0x81 0x5E 3 0).status = 0x5E ∧ (fab0 1).retries < 4)) ∧
    4 ≤ ({ fab0 1 with retries := 4 } : FabOp).retries ∧
    (∀ k ∈ [11, 14], let o := { fab0 0x0C with req := ask 0x0C 0 0 (fillBytes 12 0 ++ toBytes 12 k) };
      ({ bound with fabOps := [o] } : State).answeredKind (reply 0x8C 0 3 0) = some k) := by decide +kernel

/-- A window descriptor of layers 0 to 1, one slot deep. -/
def window : List Byte := toBytes 8 (2 ^ 29) ++ toBytes 8 131072000 ++ fillBytes 48 0

/-- A parity update of request 9 with every answer in. -/
def delta0 (fail : Nat) (applied : List Nat) (request : Word) : Delta :=
  ⟨6, ask 10 0 0 [], 0, request, 0, 0, 2001, false, [], ask 12 0 0 [], true, [], [], applied, fail, false, false⟩

/-- A rebuild of request 9 under MIRROR2 from member 0 at node 3. -/
def rebuild0 (todo : List (Nat × Nat)) (got : Table Fetched) (failed : List Nat) : Rebuild :=
  { furrow := 0, op := 0, slice := 0, todo, got, failed,
    desc := toBytes 8 9 ++ toBytes 8 (2 ^ 36) ++ toBytes 2 (3 + 2 ^ 15) ++ fillBytes 46 0 }

/-- A state in which this node holds request 9 as a member. -/
def holds : State := bound.setHold 0 1 { request := 9, epoch := 4 }

theorem witness_CopiesAndStreams :
    (bound.answer (reply 0x87 0 3 0)).1.isEmpty = true ∧
    (let o : FabOp := fab0 7;
      let s : State := { busy (op0 0x87 .fab) with fabOps := [o] };
      let n := reply 0x87 0 3 0;
      ((s.answer n).1.map Prod.fst = [o] ∧ o.owner = .op 0 0 ∧ ((s.answer n).2.closeAnswered o n).op? 0 0 = some (op0 0x87 .fab))) ∧
    (∀ p ∈ [(0, 9), (0, 8), (0x75, 9)], let d := delta0 p.1 [2] (BitVec.ofNat 64 p.2);
      let s : State := { holds with deltas := [d] };
      s.delta? 6 = some d ∧ d.sent = true ∧ d.waiting = [] ∧ d.back = false ∧ d.applied ≠ [] ∧ (d.fail = 0 ↔ p.1 = 0) ∧
        (s.holdFind d.slice d.request = if p.2 = 9 then some 1 else none)) ∧
    (delta0 0x75 [] 9).applied = [] ∧
    (∀ p ∈ [(rebuild0 [(0, 0)] [] [], 0), (rebuild0 [(0, 0)] [] [0], 1), (rebuild0 [(0, 0)] [(0, .page 5 [])] [], 2)],
      Table.find ({ holds with rebuilds := [(2, p.1)] } : State).rebuilds 2 = some p.1 ∧ p.1.waiting = [] ∧ p.1.todo = [(0, 0)] ∧
        p.1.got.any (fun q => q.2 = .asked) = false ∧ (p.1.d.need ≤ p.1.usable ↔ p.2 = 2) ∧
        (p.1.fresh.length < p.1.d.need - p.1.usable ↔ p.2 = 1)) ∧
    ((rebuild0 [] [(0, .page 5 [])] []).got.filter (fun p => p.2.usable)).findSome?
      (fun p => match p.2 with | .page t _ => some t | _ => none) = some 5 ∧
    (let r := rebuild0 [] [] [];
      let s : State := { holds with rebuilds := [(2, r)] };
      (Table.find s.rebuilds 2 = some r ∧ ({ s with rebuilds := Table.erase s.rebuilds 2 } : State).holdFind 0 r.d.request = some 1)) ∧
    (∀ n ∈ [0, 1], let x : WStream := ⟨3, 0, 0, 0, window, false, n, [], [], 0, 0, none, false, false⟩;
      (bound.modFurrow 0 (fun r => { r with streams := [x] })).stream? 0 3 = some x ∧ (x.mayStart = true ↔ n = 0)) ∧
    (let x : WStream := ⟨3, 0, 0, 0, window, false, 2, [], [], 0, 0, none, false, false⟩;
      (windowDesc x.desc).last < x.next ∧ x.unacked = 0 ∧ x.ended = false) := by decide +kernel

/-! ### Witnesses of the handover protocol -/

/-- A HANDOVER message of a kind, for request 9 at an epoch, with ARG 0. -/
def handover (kind epoch : Nat) : Req :=
  let p := toBytes 8 9 ++ toBytes 4 epoch ++ toBytes 4 kind ++ toBytes 8 0;
  ask 12 0 0 (p ++ fillBytes (if kind = 1 then 256 else if kind = 16 then 16 else 0) 0)

/-- Record 1 of slice 0's journal is request 9's, of entry 5. -/
def journal (phase epoch : Nat) : State := holds.setJnl 0 1 { request := 9, phase, sheaf := 5, epoch, d := 50, e := 60 }

theorem witness_HandoverMessages :
    (∀ m ∈ (List.range 17).map (fun k => handover (k + 1) 0), Next m) ∧
    (∀ k ∈ (List.range 17).map (· + 1), leAt (handover k 0).payload 12 1 = k ∧ (hoMsgOf (handover k 7).payload).epoch = 7) ∧
    (bound.jnlOf 0 9 JnlRec.in' = none ∧ bound.fallow = false ∧ bound.sliceState 0 ≠ 3 ∧ bound.inboxSlots 0 = [] ∧
      bound.inboxSize 0 = some 16 ∧ ((bound.inboxEnds 0).2 + 1) % 16 ≠ (bound.inboxEnds 0).1 % 16) ∧
    (∀ ph ∈ [1, 2, 3, 4], (journal ph 6).jnlFor 0 9 JnlRec.out 6 0 = some 1 ∧ (journal ph 6).jnlFor 0 9 JnlRec.out 7 1 = some 1 ∧
      ((journal ph 6).jnlAt 0 1).phase = ph) ∧
    (∀ ph ∈ [8, 9, 11], (∀ b ∈ [0, 1, 2], (journal ph 6).jnlFor 0 9 JnlRec.in' (6 + b) b = some 1) ∧
      ((journal ph 6).jnlAt 0 1).phase = ph) ∧
    (let s := (journal 8 6).setEntry 5 { tables.entry 5 with state := .handoverIn };
      (s.jnlEntry (s.jnlAt 0 1) = some 5 ∧ (s.entry 5).state = .handoverIn)) ∧
    (let r := (journal 1 6).jnlAt 0 1;
      (r.epoch = 6 ∧ 50 ≤ r.d ∧ 60 ≤ r.e ∧ (journal 1 6).jnlEntry r = some 5 ∧ epochPlus r.epoch 1 = 7 ∧ epochPlus r.epoch 2 = 8)) ∧
    (journal 4 6).jnlFor 0 9 (fun r => r.phase = 4) 8 2 = some 1 ∧
    (holds.holdFind 0 9 = some 1 ∧ (holds.holdAt 0 1).epoch = 4) :=
  ⟨nexts_of _ (by decide +kernel), by decide +kernel⟩

theorem witness_HandoverTimers :
    (let x : Exchange := ⟨8, 1, 0, 1, 0, [], 10, 20, false, 1000⟩;
      let s : State := { bound with exchanges := [x] };
      (s.exchanges.find? (fun x => x.id = 8) = some x ∧ ({ s with time := 19 } : State).time < x.limit ∧
        x.limit ≤ ({ s with time := 20 } : State).time)) ∧
    (bound.jnlSize 0).isSome = true ∧ bound.holdSize 0 = some 1 ∧
    (let s : State := { journal 3 6 with resolving := [(0, 1)] };
      (s.resolving.contains (0, 1) = true ∧ s.partnerUp (s.jnlAt 0 1).partner = true ∧ bound.resolving.contains (0, 1) = false)) := by
  decide +kernel

/-! ### Witnesses of ports -/

/-- Port 0 in a state of Table 12-5. -/
def portIn (st : Nat) : State := ready.wrf ⟨.prtStatus, 0, 0, 0⟩ 2 0 st

/-- Wavelengths of which the first `n` are good. -/
def good (n : Nat) : List Bool := List.replicate n true ++ List.replicate (9 - n) false

theorem witness_PortTraining :
    (∀ k ∈ [1, 2, 3, 4, 5, 6, 7], (portIn k).portState 0 = k) ∧
    (let g (n : Nat) : List Nat := (List.range 9).filter (fun k => (good n).getD k false);
      (g 0 = [] ∧ g 1 ≠ [] ∧ laneChoice (g 7) false = none ∧ (laneChoice (g 8) false).isSome = true ∧
        laneChoice (g 3) true = none ∧ (laneChoice (g 4) true).isSome = true)) ∧
    (∀ st ∈ [1, 2, 3, 4], ((portIn st).trainLimit 0).isSome = true) ∧
    (let w := leAt (fillBytes 112 0) 0 8;
      (w.testBit 15 = ((portIn 4).port 0).lowFec ∧ w.testBit 14 = (portIn 4).hasEngine 0)) ∧
    (leAt (toBytes 8 (2 ^ 15)) 0 8).testBit 15 ≠ ((portIn 4).port 0).lowFec ∧
    (((portIn 2).portCtl 0 2 && false) = false ∧ ((portIn 2).portCtl 0 2 && true) = true) ∧
    (portIn 0).trainLimit 0 = none ∧
      (leAt (toBytes 8 (2 ^ 14)) 0 8).testBit 14 ≠ (portIn 4).hasEngine 0 ∧
    (let s := (portIn 7).wrf ⟨.prtCtl, 0, 0, 0⟩ 3 3 1;
      (s.portState 0 = 7 ∧ s.portCtl 0 3 = true ∧ (s.port 0).failures < 3)) := by decide +kernel

/-- A flit of a kind and sequence number, with its CRC. -/
def flit (kind fseq : Nat) : List Byte :=
  let f := toBytes 12 (kind + fseq * 2 ^ 8);
  let b := fillBytes 112 0;
  f ++ toBytes 4 (crc32 (f ++ b)) ++ b

theorem witness_LanesAndLinkLayer :
    (∀ p ∈ [(0x876543210, 8), (0xF76543210, 15)], let s := (portIn 5).wr ⟨.prtLaneMap, 0, 0, 0⟩ (BitVec.ofNat 64 p.1);
      let t := s.wrf ⟨.prtLaneStatus, 0, 0, 0⟩ 2 2 1;
      t.portState 0 = 5 ∧ t.rdf ⟨.prtLaneMap, 0, 0, 0⟩ 35 32 = p.2 ∧
        firstBelow 8 (fun j => t.rdf ⟨.prtLaneMap, 0, 0, 0⟩ (4 * j + 3) (4 * j) = 0) = some 0 ∧
        firstBelow 8 (fun j => t.rdf ⟨.prtLaneMap, 0, 0, 0⟩ (4 * j + 3) (4 * j) = 8) = none) ∧
    (2 * 1 < 10000 * 1 ∧ ¬ 2 * 10000 < 10000 * 2) ∧
    (let bad := (portIn 5).wrf ⟨.prtLaneMap, 0, 0, 0⟩ 35 32 15;
      let t := bad.wrf ⟨.prtLaneStatus, 0, 0, 0⟩ 5 5 1;
      (t.portState 0 = 5 ∧ t.rdf ⟨.prtLaneMap, 0, 0, 0⟩ 35 32 = 15 ∧ (portIn 4).portState 0 ≠ 5)) ∧
    (let hears (heard : List Bool) := (heard.take ((portIn 5).lanes 0 12)).any id;
      (hears (List.replicate 8 false) = false ∧ hears (List.replicate 7 false ++ [true]) = true)) ∧
    ((portIn 5).rdb ⟨.prtTime, 0, 0, 0⟩ 0 = true ∧ Table.find (portIn 5).paced 512 ≠ some ((portIn 5).time / 10000) ∧
      Table.find ({ portIn 5 with paced := [(512, 0)] } : State).paced 512 = some ((portIn 5).time / 10000)) ∧
    (let s := (portIn 5).modPort 0 (fun x => { x with nakSince := some 10, txMap := [(8, 15)] });
      (s.portState 0 = 5 ∧ (s.port 0).nakSince = some 10 ∧ Table.get 8 (s.port 0).txMap 8 = 15 ∧
        Table.get 8 ((portIn 5).port 0).txMap 8 ≠ 15)) ∧
    (let r : Reassembly := ⟨4, 0, 0, 0, [], [], none, 64⟩;
      ({ portIn 5 with reasm := [r] } : State).reasm.find? (fun r => r.id = 4 && r.field = 0) = some r) ∧
    (∀ k ∈ [0, 1, 2, 3], crcOk (flit k 0) = true ∧ flitReserved (flit k 0) = false ∧ (flitOf (flit k 0)).kind = k) ∧
    (flitReserved (flit 4 0) = true ∧ crcOk (flit 4 0) = true ∧ crcOk (fillBytes 128 1) = false) ∧
    ((flitOf (flit 1 0)).fseq = ((portIn 5).port 0).expect ∧ (flitOf (flit 1 1)).fseq ≠ ((portIn 5).port 0).expect) ∧
    (((portIn 5).port 0).quarantineDue = false ∧
      (((portIn 5).modPort 0 (fun x => { x with quarantineDue := true })).port 0).quarantineDue = true) ∧
    (deskewed [0, 80] = true ∧ deskewed [0, 81] = false) ∧
    (portIn 5).portUsable 0 = true ∧ (portIn 4).portUsable 0 = false ∧
    (let k : Packet := ⟨7, 0, [], [], 0, true⟩;
      let s := (portIn 5).modPort 0 (fun x => { x with queue := [k] });
      ((s.subQueue 0 7).isSome = true ∧ (s.port 0).firstClass [7] = some 7 ∧ ((portIn 5).port 0).firstClass [] = none)) := by
  decide +kernel

/-- R309, Table 12-2: the word of zeros is a codeword. -/
theorem witness_LanesAndLinkLayer_decodes : (fecCode true).decode (List.replicate 272 0) = some (List.replicate 272 0, []) := by
  decide +kernel

/-! ### Witnesses of slices, units, management, reliability, power and reset -/

theorem witness_SlicesAndMeters :
    (∀ k ∈ [0, 1, 2, 3, 4, 5, 6, 7], (ready.wrf (slcCtl 63) 2 0 k).sliceState 63 = k) ∧
    ready.sliceSender (.bound 63) 63 = false ∧ ready.sliceSender .supervisor 63 = true ∧
    (ready.sliceRuns 0 = true ∧ ready.sliceRuns 63 = false) ∧
    (let s : State := { ready with time := 1000000009 };
      (s.time % 1000000000 < 10 ∧ s.snapped ≠ some (s.time / 1000000000) ∧ 10 ≤ ({ s with time := 1000000010 } : State).time % 1000000000 ∧
        ({ s with snapped := some 1 } : State).snapped = some (s.time / 1000000000))) := by decide +kernel

theorem witness_ReevesAndViews :
    (ready.fallow = false ∧ (ready.wrf ⟨.chpFallow, 0, 0, 0⟩ 0 0 1).fallow = true) ∧
    (ready.turningOn.contains 117 = false ∧ ({ ready with turningOn := [117] } : State).turningOn.contains 117 = true) ∧
    ((ready.unit (.furrow 63)).testing = false ∧
      ((ready.modUnit (.furrow 63) (fun x => { x with testing := true })).unit (.furrow 63)).testing = true) ∧
    (ready.powered = true ∧ ready.minimal = false ∧ State.reset.powered = false ∧ State.reset.minimal = false ∧
      ({ ready with minimal := true } : State).minimal = true) ∧
    (Table.find ready.paced 0 ≠ some (ready.time / 1000000) ∧
      Table.find ({ ready with paced := [(0, 0)] } : State).paced 0 = some (ready.time / 1000000)) ∧
    ((ready.modUnit (.port 0) (fun x => { x with failFence := some 0 })).unit (.port 0)).failFence = some 0 := by decide +kernel

theorem witness_FallowMode :
    (ready.fallow = false ∧ (ready.wrf ⟨.chpFallow, 0, 0, 0⟩ 0 0 1).fallow = true) ∧
    (let s : State := { ready.wrf ⟨.chpFallow, 0, 0, 0⟩ 0 0 1 with beatSince := true };
      (s.fallow = true ∧ s.beatSince = true)) ∧
    (ready.domainOn 97 = false ∧ ({ ready with domains := [97] } : State).domainOn 97 = true) := by decide +kernel

/-- A session in the last place. -/
def manages : State := { ready with sessions := [(3, { key := 0, secret := 0, challenge := some (0, 0) })] }

/-- The same with sixteen commands outstanding. -/
def full (k : Nat) : State := { manages with secQueue := List.replicate 16 (.hmp ⟨3, 0⟩ k [] none) }

/-- The same in recovery. -/
def recovering : State := { manages with recovery := true }

theorem witness_HmpCommands :
    ready.session? 3 = none ∧ (manages.session? 3).isSome = true ∧ manages.recovery = false ∧ manages.minimal = false ∧
    (∀ k ∈ [0x01, 0x02, 0x03, 0x04, 0x06, 0x07, 0x08, 0x09, 0x0A, 0x0B, 0x0E, 0x10, 0x11, 0x12, 0x13, 0x14, 0x15, 0x16, 0x1F],
      manages.takes 3 k = true ∧ (full k).takes 3 k = false) ∧
    recovering.serves 0x02 = false ∧
    (leAt (toBytes 8 (2 ^ 27 - 8)) 0 8 = 0x7FFFFF8 ∧ (0x7FFFFF8 % 8 != 0 || decide (0x6000000 ≤ 0x7FFFFF8)) = true ∧
      (0x5FFFFF8 % 8 != 0 || decide (0x6000000 ≤ 0x5FFFFF8)) = false) ∧
    (leAt (toBytes 4 7) 0 4 ≤ 7 ∧ 7 < leAt (toBytes 4 8) 0 4 ∧ 1 ≤ leAt (toBytes 4 256) 0 4 ∧ leAt (toBytes 4 256) 0 4 ≤ 256 ∧
      256 < leAt (toBytes 4 257) 0 4) ∧
    (leAt (toBytes 4 2) 0 4 ≤ 2 ∧ 2 < leAt (toBytes 4 3) 0 4 ∧ leAt (toBytes 4 63) 0 4 < 64 ∧ 64 ≤ leAt (toBytes 4 64) 0 4) ∧
    (manages.jnlFind 0 (fun r => r.phase != 0 && r.request == 9) = none) ∧
    ((fillBytes 3 0).length < 4 ∧ 64 < bits (leAt (toBytes 4 (2 ^ 24 * 65)) 0 4) 31 24) ∧
    (let b (off n : Nat) : List Byte := toBytes 8 off ++ toBytes 4 n;
      ((b 0 64).length = 12 ∧ leAt (b 0 64) 8 4 = 64 ∧ leAt (b 0 65) 8 4 = 65)) ∧
    ((Csr.ofOffset 0).isSome = true ∧ Csr.ofOffset 0x5FFFFF8 = none) ∧
    (unitOfCode 0x511 = none ∧ unitOfCode 0x501 = some (.winnowPair 1)) ∧
    ((manages.unit (.port 23)).recon = 0 ∧ (manages.unit (.port 23)).mgmt ≠ .failed) ∧
    ((manages.modUnit (.port 23) (fun x => { x with recon := 3, mgmt := .failed })).unit (.port 23)).recon ≠ 0 ∧
    ((manages.modUnit (.port 23) (fun x => { x with mgmt := .failed })).unit (.port 23)).mgmt = .failed ∧
    ({ journal 1 6 with sessions := manages.sessions } : State).jnlFind 0 (fun r => r.phase != 0 && r.request == wordAt (toBytes 4 0 ++ toBytes 8 9) 4) = some 1 ∧
    (leAt (toBytes 4 (2 ^ 16)) 0 4).testBit 16 = true ∧
    (∀ w ∈ [300, 820], (leAt (toBytes 4 w) 0 4).testBit 16 = false ∧ bits (leAt (toBytes 4 w) 0 4) 15 0 = w ∧
      (toBytes 4 w).length = 4 + 4 * bits (leAt (toBytes 4 w) 0 4) 31 24) ∧
    (let b := toBytes 4 (300 + 64 * 2 ^ 24) ++ fillBytes 256 0;
      (b.length = 4 + 4 * bits (leAt b 0 4) 31 24 ∧ bits (leAt b 0 4) 31 24 = 64)) := by decide +kernel

/-- A handshake of a device's own management key and identity. -/
def goodHello (s : State) : Handshake :=
  ⟨true, true, true, false, toBytes 8 (s.rd ⟨.chpSerial, 0, 0, 0⟩).toNat ++ toBytes 2 s.node, s.almanac.key⟩

/-- It is accepted; with 0-RTT data it is not. -/
theorem witness_HmpSessions_handshake :
    (let h := goodHello ready;
      (h.pskDhe = true ∧ h.p384 = true ∧ h.aes256 = true ∧ h.beyond = false ∧ h.key = ready.almanac.key ∧
        h.identity = toBytes 8 (ready.rd ⟨.chpSerial, 0, 0, 0⟩).toNat ++ toBytes 2 ready.node)) ∧
    { goodHello ready with beyond := true }.beyond ≠ false :=
  ⟨⟨rfl, rfl, rfl, rfl, rfl, rfl⟩, by simp⟩

theorem witness_HmpSessions :
    (State.reset.headlandUp = false ∧ ready.headlandUp = true ∧ firstBelow 4 (fun c => !Table.has ready.sessions c) = some 0) ∧
    firstBelow 4 (fun c => !Table.has ({ ready with sessions := (List.range 4).map (fun c => (c,
      { key := 0, secret := 0 })) } : State).sessions c) = none ∧
    fld (Table.get 0 ready.mgmtNet 7) 15 0 = 0 ∧
    (manages.session? 3 = some { key := 0, secret := 0, challenge := some (0, 0) }) ∧
    (let s : State := { ready with handshakeRec := some 0, time := 59999999999 };
      (s.handshakeRec = some 0 ∧ s.time < 0 + 60000000000 ∧ ready.handshakeRec = none)) ∧
    (hmpType 0x0F = false ∧ hmpType 0x11 = true ∧ 1048640 < 1048641 ∧ 65536 < 65537) ∧
    (List.range 24).all (fun p => !ready.rdb ⟨.prtTime, p, 0, 0⟩ 1) = true ∧
    (let s := manages.modUnit (.port 23) (fun x => { x with mgmt := .failed });
      ((s.session? 3).isSome = true ∧ s.takes 3 0x08 = true ∧ unitOfCode (leAt (toBytes 4 0x217) 0 4) = some (.port 23) ∧
        (s.unit (.port 23)).recon = 0 ∧ (s.unit (.port 23)).mgmt = .failed)) ∧
    (manages.takes 3 0x10 = true ∧ (fillBytes 48 0).length = 48) ∧ (recovering.takes 3 0x13 = false ∧ manages.takes 3 0x13 = true) := by
  decide +kernel

theorem witness_Security :
    (ready.rdb ⟨.secMboxStatus, 0, 0, 0⟩ 8 = false ∧ (ready.wrf ⟨.secMboxStatus, 0, 0, 0⟩ 8 8 1).rdb ⟨.secMboxStatus, 0, 0, 0⟩ 8 = true ∧
      ready.secQueue = []) ∧
    (let s : State := { ready.wrf ⟨.secLockCtl, 0, 0, 0⟩ 15 0 100 with hartFrom := some 0, time := 100000000 };
      (s.hartFrom = some 0 ∧ s.locked = false ∧ 0 + s.rdf ⟨.secLockCtl, 0, 0, 0⟩ 15 0 * 1000000 ≤ s.time ∧ lockedDev.locked = true)) ∧
    (∀ l ∈ [0, 1023, 1048576],
      let s : State := { ready with secQueue := [.report none 0 []], almanac := { ready.almanac with leaf := l } };
      s.secQueue = [.report none 0 []] ∧ s.rdb ⟨.secStatus, 0, 0, 0⟩ 0 = false ∧ (1048576 ≤ s.almanac.leaf ↔ l = 1048576) ∧
        (l ≤ 1023 → s.almanac.leaf / 1024 < s.trees)) ∧
    (let s : State := { ready with secQueue := [.report none 0 []], almanac := { ready.almanac with leaf := 1024 } };
      (s.almanac.leaf < 1048576 ∧ s.trees ≤ s.almanac.leaf / 1024)) ∧
    (ready.wrf ⟨.secStatus, 0, 0, 0⟩ 0 0 1).rdb ⟨.secStatus, 0, 0, 0⟩ 0 = true ∧
    (manages.session? 3 = some { key := 0, secret := 0, challenge := some (0, 0) }) := by decide +kernel

theorem witness_ScrubAndRepair :
    (ready.powered = true ∧ ready.minimal = false ∧ Table.get 0 ready.scrubbed 1023 < 6291456 ∧ ready.domainOn 64 = true) ∧
    (let k := bankKey 1023 3 0;
      ((32 ≤ Table.get 0 ({ ready with spareRows := [(k, 32)] } : State).spareRows k) ∧
        Table.get 0 ({ ready with spareRows := [(k, 31)] } : State).spareRows k < 32)) ∧
    (16 ≤ Table.get 0 ({ ready with spareChannels := [(3, 16)] } : State).spareChannels (1023 / 256) ∧
      Table.get 0 ({ ready with spareChannels := [(3, 15)] } : State).spareChannels (1023 / 256) < 16) ∧
    (ready.failingPin 1023 = false ∧
      ({ ready with rowErrors := (List.range 64).map (fun i => ⟨1023, i, [71], 0⟩) } : State).failingPin 1023 = true) ∧
    (({ ready with rowsDue := [(1023, 98303)] } : State).rowsDue.contains (1023, 98303) = true ∧ (3 : Fin 4).val = 98303 / 24576 ∧
      ready.rowsDue.contains (1023, 98303) = false) ∧
    (Table.get 0 ({ ready with scrubbed := [(1023, 6291456)] } : State).scrubbed 1023 ≥ channelLines) ∧
    (ready.domainOn 0 = true ∧ ready.domainOn 64 = true ∧ coreReady.domainOn 96 = true ∧ ready.domainOn 1 = false) ∧
    (ready.migrating.contains 1023 = false ∧ ({ ready with migrating := [1023] } : State).migrating.contains 1023 = true) := by
  decide +kernel

/-- A table whose keys all hold one value. -/
theorem get_all {t : Table Nat} {v : Nat} (h : ∀ p ∈ t, p.2 = v) {k : Nat} (hk : k ∈ t.map Prod.fst) : Table.get 0 t k = v := by
  induction t with
  | nil => simp at hk
  | cons p t ih =>
    obtain ⟨j, u⟩ := p
    have hu : u = v := h (j, u) (by simp)
    simp only [Table.get]
    split
    · exact hu
    · rename_i hj
      refine ih (fun q hq => h q (by simp [hq])) ?_
      simp only [List.map_cons, List.mem_cons] at hk
      rcases hk with e | e
      · exact absurd e.symm hj
      · exact e

/-- The last line of the last channel: every channel has then been visited. -/
theorem witness_ScrubAndRepair_pass : ∃ s : State, Table.get 0 s.scrubbed 1023 < 6291456 ∧
    (List.range 1024).all (fun c => decide (6291456 ≤ Table.get 0 (Table.set s.scrubbed 1023 6291456) c)) = true := by
  let t : Table Nat := (List.range 1024).map (fun c => (c, 6291456))
  refine ⟨{ ready with scrubbed := Table.set t 1023 6291455 }, by simp, ?_⟩
  rw [List.all_eq_true]
  intro c hc
  simp only [Table.get_set, decide_eq_true_eq]
  split
  · exact Nat.le_refl _
  · exact (get_all (v := 6291456) (by simp [t]) (by simpa [t] using hc)).ge

theorem witness_BinsAndRecords :
    (let s := ready.modUnit (.thresher 7) (fun x => { x with inBin := some 5, mgmt := .fenced });
      ((s.unit (.thresher 7)).inBin = some 5 ∧ (s.unit (.thresher 7)).mgmt = .fenced ∧
        ({ s with time := 100000004 } : State).time < 5 + 100000000 ∧ 5 + 100000000 ≤ ({ s with time := 100000005 } : State).time)) ∧
    (ready.unit (.thresher 7)).inBin = none ∧
    (ready.domainOn 72 = true ∧ ready.domainOn 95 = false ∧ decide (90 < 91) = true ∧ ready.trendFeed = []) ∧
    (∀ k ∈ [320, 323, 448, 471, 384], Table.find ready.paced k ≠ some 0 ∧ Table.find ({ ready with paced := [(k, 0)] } : State).paced k = some 0) ∧
    ready.time = 0 ∧
    (ready.almDrops = [] ∧ ready.almQueue = [] ∧ ({ ready with almQueue := [{ type := 1 }] } : State).almQueue = [{ type := 1 }] ∧
      ({ ready with almDrops := [(1, 1)] } : State).almDrops ≠ []) := by decide +kernel

theorem witness_PowerCommands :
    (let s : State := { ready with railBad := [(2, 0)] };
      ((Table.find s.railBad 2).getD s.time = 0 ∧ ({ s with time := 99999999 } : State).time < 0 + 100000000 ∧
        0 + 100000000 ≤ ({ s with time := 100000000 } : State).time)) ∧
    (ready.packageNow = 0 ∧ ({ ready with estimates := [([1000], [])] } : State).packageNow ≠ 0 ∧
      1000 * ready.railMillivolt 0 / 1000 ≠ 0) ∧
    (∀ k ∈ [64, 128, 192, 256], Table.find ready.paced k ≠ some 0 ∧ Table.find ({ ready with paced := [(k, 0)] } : State).paced k = some 0) ∧
    (([true, false].take 4).any id = true ∧ ([false, false, false, false, true].take 4).any id = false) ∧
    (∀ v ∈ [0, 1], (ready.wrf ⟨.clkVcore, 0, 0, 0⟩ 0 0 v).rdb ⟨.clkVcore, 0, 0, 0⟩ 0 = (v == 1)) ∧
    (∀ v ∈ [0, 1], (ready.wrf ⟨.clkVcore, 0, 0, 0⟩ 1 1 v).rdb ⟨.clkVcore, 0, 0, 0⟩ 1 = (v == 1)) ∧
    (let s : State := { ready with slowSince := some 0 };
      (s.slowSince = some 0 ∧ ({ s with time := 9999999 } : State).time < 0 + 10000000 ∧
        0 + 10000000 ≤ ({ s with time := 10000000 } : State).time)) ∧
    (let t := ([100, 99, 98, 97].zipIdx.foldl (fun (u : State) (p : Int × Nat) => u.limitHeat p.2 p.1)
        (ready.wrf ⟨.tltTherm, 0, 0, 0⟩ 23 16 (min 255 100))).setClocks.showLimits;
      ((100 : Int) < (t.rdf ⟨.tltTherm, 0, 0, 0⟩ 15 8 : Int) ∧ t.trips + 1 < 3 ∧ 3 ≤ ({ ready with trips := 2 } : State).trips + 1)) ∧
    (ready.minimal = false ∧ ({ ready with minimal := true } : State).minimal = true) := by decide +kernel

theorem witness_ResetCommands :
    ((ready.powered && !ready.minimal && !ready.recovery) = true ∧
      (State.reset.powered && !State.reset.minimal && !State.reset.recovery) = false) ∧
    ready.saveArea = none ∧
    (let d : FrameDesc := { kind := 3, pin := true, pool := 1 };
      let s : State := { ready with desc := (List.range 129).map (fun i => (3000 + i, d)) };
      (s.wr ⟨.clkRstSaveBase, 0, 0, 0⟩ (BitVec.ofNat 64 (3000 * 65536))).saveArea = some (3000 * 65536)) := by decide +kernel

/-- With empty banks nothing boots. -/
theorem witness_ResetCommands_empty (s : State) (h : s.almanac.banks = []) : (s.bootImage 1).1 = none := by
  have img (u : State) (hu : u.almanac.banks = []) (b : Nat) : u.imageIn b 1 = State.reset.imageIn 0 1 := by
    unfold State.imageIn
    rw [hu]
    rfl
  have code (u : State) : u.verify 1 (State.reset.imageIn 0 1) = 0xC0 := by
    have e : (State.reset.imageIn 0 1).format 1 = false := by decide +kernel
    simp [State.verify, e]
  have keep : ((s.judge 0xC0 (State.reset.imageIn 0 1)).almanac).banks = [] := by
    obtain ⟨q, d, c, k, e⟩ := record_spec s 0x0D 2 0xFFFF (toBytes 1 0xC0 ++ (State.reset.imageIn 0 1).header)
    rw [State.judge, if_neg (by decide), e]
    exact h
  simp [State.bootImage, img s h, code, img _ keep]

/-- A bank whose image passes the checks boots; whether a signature fits is for the functions of Config to say. -/
theorem witness_ResetCommands_boots (s : State) (type : Nat) (h : s.verify type (s.imageIn (s.almanac.bank % 2) type) = 0) :
    (s.bootImage type).1 = some (s.imageIn (s.almanac.bank % 2) type) := by simp [State.bootImage, h]

theorem witness_TimePasses :
    State.reset.pending = [] ∧ State.reset.powered = false ∧ ready.pending = [] ∧ ready.powered = true ∧ ready.timeHold = 0 ∧
    (ready.time + 1) % 1000 ≠ 0 ∧ (({ ready with time := 999 } : State).time + 1) % 1000 = 0 ∧
      ({ ready with timeHold := 1 } : State).timeHold ≠ 0 := by
  decide +kernel

theorem witness_StepRunsFront : ({ ready with pending := [.ageingTick] } : State).pending = .ageingTick :: [] := rfl

theorem witness_LevelsStand : State.reset.LevelsOk ∧ ∃ t, step State.reset = .next t :=
  ⟨by unfold State.LevelsOk; decide +kernel, _, rfl⟩

/-! ### Well-formed commands -/

/-- Each command fails a check of `Instr.limits`. -/
theorem test_limits_refuse :
    ([.registerWrite .supervisor ⟨.frwSlice, 64, 0, 0⟩ 0, .rcRegisterRead .supervisor ⟨.frwSlice, 64, 0, 0⟩,
      .reservedOffsetAccess 0 (2 ^ 56) ⟨8, none⟩, .reservedOffsetAccess 0 0 ⟨3, some 0⟩, .walkFrameRelease 0 6291456,
      .frameZeroComplete 6291456 false, .demotionCommit 6291456,
      .flitReceive 0 (.flit []), .flitReceive 0 (.codeword []), .laneRemapRequest 0 ⟨0, []⟩, .feedCheckComplete 0 [], .feedMeasure 0 [],
      .phyTrainComplete 0 [] ⟨[], false⟩, .pmbusTransaction 0 false [false, false, false, true],
      .trendRecord 0 [] [] [], .hmpBadMessage ⟨0, 0⟩ 256 1 0, .hmpBadMessage ⟨0, 0⟩ 1 256 0, .tilthEstimate [] [], .tilthCalibrate [],
      .thermalSample []] : List Instr).all (fun c => !c.limits) = true := by decide +kernel

theorem test_tileComplete_refused : Instr.limits (.tileComplete 0 { rows := [⟨0, 256, 0, 0⟩] } 0) = false := by decide +kernel

/-- Fields that no slot word holds: IMM of a register instruction, a counter that is not named, TGT of an immediate. -/
theorem test_slots_refuse :
    ([.add 0 { imm := 1 }, .addi 0 { z := 1 }, .beq 0 { imm := 1 },
      .addi 0 { mod := 8 }] : List Instr).all (fun c => !c.wellFormed) = true := by
  decide +kernel

theorem test_messages_refuse :
    ([.ldRequest { op := 256 }, .stRequest { op := 2, src := 16384 }, .abort { op := 11, seq := 2 ^ 24 }, .pull { op := 6, cls := 8 },
      .ldResponse { op := 0x81, status := 256 }, .writeAck { op := 0x82, arg0 := 2 ^ 24 }, .qshipAnswer { op := 0x87, used := 2 ^ 32 }]
      : List Instr).all (fun c => !c.wellFormed) = true := by decide +kernel

theorem test_imagePut_refused (n : Nat) (h : 1048640 < n) : Instr.limits (.imagePut ⟨0, 0⟩ (List.replicate n 0)) = false := by
  simp [Instr.limits, h]

theorem test_body_refused (n : Nat) (h : 65536 < n) : bodyFits (List.replicate n 0) = false := by simp [bodyFits, h]

theorem test_control_refused : Instr.wellFormed (.ctrlAck 0 (List.replicate 113 0)) = false := by decide +kernel

theorem test_wellFormed :
    ([.add 0 { pred := 7, ctr := some 31, x := 63, y := 63, z := 63 }, .addi 63 { x := 1, y := 2, imm := -1 },
      .beq 0 { x := 1, y := 2, tgt := 4095 },
      .stRequest store8, .registerWrite .supervisor ⟨.frwSlice, 63, 0, 0⟩ 0, .demotionCommit 6291455, .flitReceive 23 (.flit (flit 1 0))]
      : List Instr).all (fun c => c.wellFormed) = true := by decide +kernel

/-! ### Single commands, with results worked out from the spec's tables -/

/-- The state after a command. -/
def effect (c : Instr) (s : State) : State := match exec c s with | .next t => t | _ => s

/-- A general register of Furrow 0 after a command. -/
def gAfter (c : Instr) (s : State) (n : Nat) : Word := ((effect c s).furrow 0).gr n

/-- `ready` with g10 all ones and g11 65. -/
def words : State := (ready.setG 0 10 (-1)).setG 0 11 65

/-- Table 14-8: sums wrap at 64 bits. -/
theorem test_add_wraps : gAfter (.add 0 { x := 20, y := 10, z := 11 }) words 20 = 64 := by decide +kernel

/-- Table 14-8: a shift takes gZ[5:0], so 65 shifts by 1. -/
theorem test_sll_takes_six_bits : gAfter (.sll 0 { x := 20, y := 11, z := 11 }) words 20 = 130 := by decide +kernel

/-- Table 14-8: the high half of the unsigned product, (2^64 − 1)² = 2^128 − 2^65 + 1. -/
theorem test_mulhu_unsigned : gAfter (.mulhu 0 { x := 20, y := 10, z := 10 }) words 20 = 0xFFFFFFFFFFFFFFFE := by decide +kernel

/-- R98: g0 discards what is written. -/
theorem test_g0_discards : gAfter (.movi 0 { x := 0, imm := 7 }) words 0 = 0 := by decide +kernel

/-- Table 14-8: MOVHI fills the high half with the immediate and the low half with zeros. -/
theorem test_movhi : gAfter (.movhi 0 { x := 20, imm := 0x80000001 }) words 20 = 0x8000000100000000 := by decide +kernel

/-- Table 14-8: SLTUI sign-extends its immediate and compares unsigned: 65 < 2^64 − 1. -/
theorem test_sltui_extends : ((effect (.sltui 0 { x := 1, y := 11, imm := -1 }) words).furrow 0).pr 1 = true := by decide +kernel

/-- R100: BR names the next bundle. -/
theorem test_br : ((effect (.br 0 { x := 11 }) words).furrow 0).prog.map (·.pc) = some 65 := by decide +kernel

/-- R279 and Table 11-6: CAS whose comparand is not what memory holds leaves memory alone. -/
theorem test_cas_differs : (effect (.atomCas (ask 3 6 8 (toBytes 8 1 ++ toBytes 8 2))) (serving.setGword 131072000 5)).gword 131072000 = 5 := by
  decide +kernel

/-- The same where it is: the new value is stored. -/
theorem test_cas_equal : (effect (.atomCas (ask 3 6 8 (toBytes 8 5 ++ toBytes 8 2))) (serving.setGword 131072000 5)).gword 131072000 = 2 := by
  decide +kernel

/-- R279: SMAX takes its operands as signed, so of −1 and 1 it keeps 1. -/
theorem test_smax_signed : (effect (.atomSmax (ask 3 2 8 (toBytes 8 1))) (serving.setGword 131072000 (-1))).gword 131072000 = 1 := by
  decide +kernel

/-- R491: a read of a reserved offset returns zero, is counted and recorded with VALID. -/
theorem test_reserved_read :
    (let t := effect (.reservedOffsetAccess 0 0xF005FFFFF8 ⟨8, none⟩) coreReady;
      t.csrData = [0] ∧ t.rd ⟨.chpCsrErrCnt, 0, 0, 0⟩ = 1 ∧
        t.rd ⟨.chpCsrErr, 0, 0, 0⟩ = BitVec.ofNat 64 (0x5FFFFF8 + 2 ^ 28)) := by decide +kernel

/-- R233: AGE stays at 255. -/
theorem test_age_saturates : ((effect .ageingTick { ready with desc := [(2000, { pool := 1, age := 255 })] }).frame 2000).age = 255 := by
  decide +kernel

/-- R436: the code of a Granary line corrects one wrong symbol and finds it. -/
theorem test_granary_corrects : granaryCode.decode (List.replicate 7 0 ++ [0xA5] ++ List.replicate 64 0) = some (List.replicate 72 0, [7]) := by
  decide +kernel

/-- R393: a bound core's load of a frame of another slice raises an access fault and reads nothing. -/
theorem test_core_fault : (effect (.reservedOffsetAccess 0 (2001 * 65536) ⟨8, none⟩) coreBound).coreTraps = [(0, ⟨false, 2001 * 65536⟩)] := by
  decide +kernel

/-- R400: of two pending sources the one of higher priority is claimed. -/
theorem test_plic_claims :
    (effect (.reservedOffsetAccess 0 0xF100200004 ⟨4, none⟩) { coreReady with
      plic := { prio := [(3, 1), (9, 2)], enable := [(0, 520)], requests := [3, 9] } }).csrData = [9] := by decide +kernel

/-- R30: with nothing to do, system time passes. -/
theorem test_idle_time : (match step ready with | .next t => t.time | _ => 0) = 1 := by decide +kernel

/-- IEEE 754: 1.5 + 2^-24 rounds to even in FP32, and the sum of the largest value with itself is infinite. -/
theorem test_fp32_rounds : f32add 0x3FC00000 0x33800000 = 0x3FC00000 ∧ f32add 0x7F7FFFFF 0x7F7FFFFF = 0x7F800000 := by decide +kernel

end Sys2Proof.Tests
end

/-! Register 0 of the predicates and of the general registers, and slots whose predicate is false (R98, R99). -/

namespace Sys2Proof.Machine

/-! ### Register 0 (R98, R99) -/

@[simp] theorem Furrow.pr_zero (r : Furrow) : r.pr 0 = true := rfl

@[simp] theorem State.setP_zero (s : State) (f : Nat) (b : Bool) : s.setP f 0 b = s := if_pos rfl

@[simp] theorem State.setG_zero (s : State) (f : Nat) (v : Word) : s.setG f 0 v = s := if_pos rfl

/-! ### A counter that falls without a status (R99, R102) -/

/-- A completion without an error keeps a counter's status (R106). -/
theorem Done.onto_of_not_error {d : Done} (h : d.error = false) (stat : Nat) : d.onto stat = stat := by
  simp [Done.onto, h]

@[simp] theorem State.arrive_none (s : State) (f : Nat) (d : Done) : s.arrive f none d = s := rfl

/-- A completion without an error lowers the counter it names by one, no further than R102's least value, and leaves its status. -/
theorem State.arrive_some_of_not_error {d : Done} (h : d.error = false) (s : State) (f n : Nat) :
    s.arrive f (some n) d = s.setA f n ⟨max (((s.furrow f).ar n).val - 1) (-2147483648), ((s.furrow f).ar n).stat⟩ := by
  simp [State.arrive, Done.onto_of_not_error h, decrement]

/-! ### A slot whose predicate is false (R99) -/

/-- Settles O53: each command of one slot runs that slot, which with a false predicate makes only its counter arrive. -/
theorem predicatedSlots : Obligations.PredicatedSlots := by
  intro f o s
  refine ⟨Furrow.pr_zero _, fun b => State.setP_zero s _ b, fun v => State.setG_zero s _ v, ?_⟩
  intro c op hslot p hrun hlegal hpred
  have hoff := runSlot_off hrun hlegal hpred
  rw [exec_slot hslot, hoff, answer]
  cases o.ctr with
  | none => rw [Option.map_none, State.arrive_none]
  | some n => rw [Option.map_some, State.arrive_some_of_not_error rfl]

end Sys2Proof.Machine

/-! A core's aligned word at an offset of the control space that no register has (R393, R490, R491). -/

namespace Sys2Proof.Machine

/-! ### Where the access goes -/

/-- Table 15-5: the window of the control space lies at 0xF000000000. -/
theorem regionOf_csrWindow {off n : Nat} (h : off + n ≤ 0x6000000) :
    regionOf (0xF000000000 + off) n = .csr off := by
  have hGranary : ¬ 0xF000000000 + off + n ≤ 0x6000000000 := by omega
  have hWindow : 0xF000000000 + off + n ≤ 0xF006000000 := by omega
  simp [regionOf, hGranary, hWindow]

/-- An access of a running core in the window goes to the control space. -/
theorem exec_csrWindow {c : CoreId} {off n : Nat} (data : Option Word) {s : State} (hrun : s.coreRuns c = true)
    (h : off + n ≤ 0x6000000) :
    exec (.reservedOffsetAccess c (0xF000000000 + off) ⟨n, data⟩) s =
      .next (s.coreCsr ⟨c, 0xF000000000 + off, n, data⟩ off).sense := by
  change answer (reservedOffsetAccess ⟨c, 0xF000000000 + off, n, data⟩ s) = _
  simp [reservedOffsetAccess, hrun, regionOf_csrWindow h, answer]

/-! ### Who makes it (R393) -/

theorem State.coreWho_of_unbound {s : State} {c : CoreId} (h : s.coreSlice c = none) : s.coreWho c = .supervisor := by
  simp [State.coreWho, h]

theorem State.coreWho_of_bound {s : State} {c : CoreId} (h : (s.coreSlice c).isSome = true) : s.coreWho c ≠ .supervisor := by
  obtain ⟨sl, e⟩ := Option.isSome_iff_exists.mp h
  simp [State.coreWho, e]

/-! ### What it does at a reserved offset -/

section
variable {s : State} {c : CoreId} {off : Nat}

/-- R393 before R491: a bound core's access to a reserved offset faults. -/
theorem State.coreCsr_reserved_of_bound (addr n : Nat) (data : Option Word) (hbound : (s.coreSlice c).isSome = true)
    (hres : Csr.ofOffset off = none) : s.coreCsr ⟨c, addr, n, data⟩ off = s.coreFault c.val data.isSome addr := by
  simp [State.coreCsr, hres, State.coreWho_of_bound hbound]

/-- R491: a supervisor core's aligned word at a reserved offset is counted and recorded, and a load gets 0. -/
theorem State.coreCsr_reserved_of_unbound (addr : Nat) (data : Option Word) (hfree : s.coreSlice c = none)
    (hres : Csr.ofOffset off = none) (halign : off % 8 = 0) :
    s.coreCsr ⟨c, addr, 8, data⟩ off =
      if data.isSome then s.strayAccess off data.isSome else (s.strayAccess off data.isSome).coreGets 0 := by
  simp [State.coreCsr, hres, State.coreWho_of_unbound hfree, halign]

/-- What a load gets is kept apart from the registers. -/
theorem State.coreGets_wr (r : Csr) (v d : Word) : (s.wr r v).coreGets d = (s.coreGets d).wr r v := rfl

theorem State.coreGets_wrf (r : Csr) (hi lo v : Nat) (d : Word) : (s.wrf r hi lo v).coreGets d = (s.coreGets d).wrf r hi lo v := rfl

/-- R491: CHP_CSR_ERR takes the offset, and CHP_CSR_ERR_CNT, which it leaves alone, then counts one more where that fits. -/
theorem State.strayAccess_of_fits {write : Bool} (hoff : off < 2 ^ 27) (hcnt : s.rdf ⟨.chpCsrErrCnt, 0, 0, 0⟩ 31 0 + 1 < 2 ^ 32) :
    s.strayAccess off write = (s.wr ⟨.chpCsrErr, 0, 0, 0⟩ (BitVec.ofNat 64 (off + bitVal write 27 + 2 ^ 28))).wrf
      ⟨.chpCsrErrCnt, 0, 0, 0⟩ 31 0 (s.rdf ⟨.chpCsrErrCnt, 0, 0, 0⟩ 31 0 + 1) := by
  have hkeep : ∀ v, (s.wr ⟨.chpCsrErr, 0, 0, 0⟩ v).rdf ⟨.chpCsrErrCnt, 0, 0, 0⟩ 31 0 = s.rdf ⟨.chpCsrErrCnt, 0, 0, 0⟩ 31 0 :=
    fun v => rdf_wr_ne s v 31 0 (by decide)
  rw [State.strayAccess, Nat.mod_eq_of_lt hoff, bump_eq, hkeep, if_pos hcnt]

end

/-- Settles O55: a bound core's access faults before R491 applies; another core's is counted and recorded, and a load gets 0. -/
theorem reservedOffsets : Obligations.ReservedOffsets := by
  intro c off data s hrun hres halign hoff
  have hexec := exec_csrWindow (off := off) (n := 8) data hrun (by omega)
  refine ⟨fun hbound => hexec.trans ?_, fun hfree hcnt => hexec.trans ?_⟩
  · rw [State.coreCsr_reserved_of_bound _ 8 data hbound hres]
    rfl
  · rw [State.coreCsr_reserved_of_unbound _ data hfree hres halign, State.strayAccess_of_fits (by omega) hcnt]
    cases data with
    | none =>
      rw [State.coreGets_wrf, State.coreGets_wr]
      rfl
    | some v => rfl

end Sys2Proof.Machine

/-! What every step does, whatever its command: it goes on, and ends with its level-sensitive sources sensed (R400). Time (R30, R32)
and the state after reset (R480, R493). -/

namespace Sys2Proof.Machine

/-! ### Every step goes on -/

/-- Every command ends in a next state whose level-sensitive sources it has sensed. -/
theorem exec_ends_sensed (c : Instr) (s : State) : ∃ u : State, exec c s = .next u.sense := by
  cases c <;> exact ⟨_, rfl⟩

/-- So does every step: a command's, or a nanosecond with none. -/
theorem step_ends_sensed (s : State) : ∃ u : State, step s = .next u.sense := by
  unfold step
  cases s.pending with
  | nil => exact ⟨s.tick, rfl⟩
  | cons c rest => exact exec_ends_sensed c _

/-- Settles O59: a step ends in a sensed state, and a sensed state has its level-sensitive sources right. -/
theorem levelsStand : Obligations.LevelsStand := by
  intro s _ t hstep
  obtain ⟨u, hu⟩ := step_ends_sensed s
  cases hu.symm.trans hstep
  exact sense_levelsOk u

/-- Settles O60, by induction on the length of the run: its first step ends in a sensed state, and the rest of the run keeps the
sources right from there. -/
theorem everyRunGoesOn : Obligations.EveryRunGoesOn := by
  intro n
  induction n with
  | zero => exact fun s => ⟨s, rfl, fun h => absurd h (Nat.lt_irrefl 0), id⟩
  | succ n ih =>
    intro s
    obtain ⟨u, hstep⟩ := step_ends_sensed s
    obtain ⟨t, hrun, -, hkeeps⟩ := ih u.sense
    have hok : t.LevelsOk := hkeeps (sense_levelsOk u)
    have hcore : Sys2Proof.core.step s = .next u.sense := hstep
    refine ⟨t, ?_, fun _ => hok, fun _ => hok⟩
    simp only [Host.Core.run, hcore]
    exact hrun

/-- Settles O56: that is what a step with a command waiting is. -/
theorem stepRunsFront : Obligations.StepRunsFront := by
  intro c rest s hpending
  rw [step, hpending]

/-! ### Time (R30, R32) -/

/-- What each pass of a loop leaves as it is, the loop leaves as it is. -/
theorem foldl_keeps {α β γ : Type _} (view : β → γ) (pass : β → α → β) (h : ∀ b a, view (pass b a) = view b) (l : List α) (b : β) :
    view (l.foldl pass b) = view b := by
  induction l generalizing b with
  | nil => rfl
  | cons a l ih => exact (ih _).trans (h b a)

@[simp] theorem State.count_time (s : State) (r : Csr) (hi lo n : Nat) : (s.count r hi lo n).time = s.time := by
  obtain ⟨v, k, e⟩ := count_spec s r hi lo n
  rw [e]

@[simp] theorem State.count_timeHold (s : State) (r : Csr) (hi lo n : Nat) : (s.count r hi lo n).timeHold = s.timeHold := by
  obtain ⟨v, k, e⟩ := count_spec s r hi lo n
  rw [e]

/-- A meter counts in a register, or not at all. -/
theorem meter_time (s : State) (slice i n : Nat) :
    ((s.meter slice i n).time, (s.meter slice i n).timeHold) = (s.time, s.timeHold) := by
  unfold State.meter
  split
  · rw [State.count_time, State.count_timeHold]
  · rfl

/-- The Furrows' meters leave the clock alone. -/
theorem meterFurrows_time (s : State) (t : Nat) :
    ((s.meterFurrows t).time, (s.meterFurrows t).timeHold) = (s.time, s.timeHold) := by
  refine foldl_keeps (fun u : State => (u.time, u.timeHold)) _ (fun u f => ?_) _ s
  split
  · split
    · exact meter_time ..
    · rfl
  · rfl

/-- A nanosecond that does not end a microsecond moves the clock alone. -/
theorem passTo_within (s : State) {t : Nat} (h : t / 1000 = s.time / 1000) : s.passTo t = { s with time := t } := by
  simp [State.passTo, h]

/-- One that ends a microsecond also meters it. -/
theorem passTo_microsecond (s : State) {t : Nat} (h : t / 1000 = s.time / 1000 + 1) :
    s.passTo t = ({ s with time := t }.meterSlices 1).meterCores 1 := by
  simp [State.passTo, h]

/-- Settles O57: the Furrows' meters count, and then the clock advances or is held. -/
theorem timePasses : Obligations.TimePasses := by
  intro s hpending
  dsimp only
  obtain ⟨htime, hhold⟩ := Prod.mk.inj (meterFurrows_time s s.time)
  have hstep : step s = .next s.tick.sense := by rw [step, hpending]; rfl
  have hruns (hp : s.powered = true) : s.tick = (s.meterFurrows s.time).advance := by simp [State.tick, hp]
  have hpass (hp : s.powered = true) (h : s.timeHold = 0) : s.tick = (s.meterFurrows s.time).passTo (s.time + 1) := by
    rw [hruns hp, State.advance, hhold, if_pos h, htime]
  refine ⟨fun hp => ?_, fun hp h => ?_, fun hp h hus => ?_, fun hp h hus => ?_, fun later _ => rfl⟩
  · rw [hstep, State.tick, hp]; rfl
  · rw [hstep, hruns hp, State.advance, hhold, if_neg h]
  · rw [hstep, hpass hp h, passTo_within _ (by rw [htime]; omega)]
  · rw [hstep, hpass hp h, passTo_microsecond _ (by rw [htime]; omega)]

/-! ### Reset (R480, R493) -/

/-- With every register at its Reset column's value, no level-sensitive source's status stands. -/
theorem reset_level : ∀ i ∈ levelSources, State.reset.level i = false := by decide

/-- Settles O58: the state after reset, field by field. -/
theorem resetState : Obligations.ResetState := by
  have hlevels : State.reset.LevelsOk := by
    intro i hi
    rw [reset_level i hi]
    simp [State.reset]
  refine ⟨fun _ => rfl, rfl, rfl, rfl, rfl, rfl, rfl, rfl, rfl, rfl, rfl, State.reset_mem_wf, fun _ => rfl, hlevels,
    fun f n => ⟨rfl, ?_, ?_⟩, fun _ => rfl⟩
  · simp [State.reset, State.furrow, Furrow.gr]
  · simp [State.reset, State.furrow, Furrow.pr]

end Sys2Proof.Machine

/-! The scalar and branch instructions (R376, Table 14-8), the ends of a program (R93) and the counter instructions (R102 to R106):
for each shape of encoding row, that its slots issue and what they do. -/

namespace Sys2Proof.Machine

/-! ### When a slot issues -/

section
variable {s : State} {f : FurrowId} {o : Slot} {p : Program} {regs : List (Fin 64)}

/-- A slot of a running program without modifiers issues if its fields are legal, it names no general register but those that await
no result, its checks pass, nothing holds it back and its class has a place free. -/
theorem State.issuing.plain {op : SlotOp} (h : s.issuing f o.pred regs p) (hfields : op.enc.reservedField o = false)
    (hnames : ∀ n ∈ op.enc.gregs o, n ∈ regs.map (·.val)) (hmod : o.mod = 0 := by rfl) (hbad : op.enc.badMod o = false := by rfl)
    (hchecks : firstFailure (op.allChecks (s.ctx f o p) s) = none := by rfl)
    (hstalls : op.stalls (s.ctx f o p) s = false := by rfl) (hroom : op.room (s.furrow f.val) = true := by rfl) :
    s.issues op f o p := by
  obtain ⟨hrun, hpred, hawaited⟩ := h
  have hlegal : op.enc.fault o = none := by simp [EncSpec.fault, EncSpec.illegalMod, hmod, hbad, hfields]
  have hregs : (op.enc.gregs o).any (s.awaited f.val) = false := by
    rw [List.any_eq_false]
    intro n hn
    obtain ⟨m, hm, rfl⟩ := List.mem_map.mp (hnames n hn)
    simp [hawaited m hm]
  exact ⟨hrun, hpred, hlegal, Bool.or_eq_false_iff.mpr ⟨hstalls, hregs⟩, hroom, hchecks⟩

end

/-! ### Shapes of rows: two registers, one register and an immediate, branches -/

section
variable {s : State} {f : FurrowId} {p : Program} {q : Fin 8} {x y z : Fin 64} {imm : BitVec 32} {opc : Nat}

/-- gX = gY op gZ. -/
theorem alu_gives (fn : Word → Word → Word) (h : s.issuing f q [x, y, z] p) :
    answer (runSlot (alu opc fn) f { pred := q, x, y, z } s) =
      .next ((s.unstalled f).setG f.val x.val (fn ((s.furrow f.val).gr y.val) ((s.furrow f.val).gr z.val))).sense :=
  slot_issues (h.plain (by simp [alu, EncSpec.reservedField, RK.fits]) (by simp [alu, EncSpec.gregs])) rfl

/-- gX = gY op IMM. -/
theorem aluImm_gives (sign : Bool) (fn : Word → Word → Word) (h : s.issuing f q [x, y] p) :
    answer (runSlot (aluImm opc sign fn) f { pred := q, x, y, imm } s) = .next ((s.unstalled f).setG f.val x.val
      (fn ((s.furrow f.val).gr y.val) (if sign then imm.signExtend 64 else imm.zeroExtend 64))).sense :=
  slot_issues (h.plain (by simp [aluImm, EncSpec.reservedField, RK.fits]) (by simp [aluImm, EncSpec.gregs])) rfl

/-- gX = gY shifted by IMM, where that is less than 64. -/
theorem shiftImm_gives (fn : Word → Nat → Word) (h : s.issuing f q [x, y] p) (himm : imm.toNat < 64) :
    answer (runSlot (shiftImm opc fn) f { pred := q, x, y, imm } s) =
      .next ((s.unstalled f).setG f.val x.val (fn ((s.furrow f.val).gr y.val) imm.toNat)).sense :=
  slot_issues (h.plain (by simp [shiftImm, EncSpec.reservedField, RK.fits, himm]) (by simp [shiftImm, EncSpec.gregs])) rfl

/-- pX = comparison of gY with gZ. -/
theorem compare_gives (fn : Word → Word → Bool) (h : s.issuing f q [y, z] p) (hx : x.val < 8) :
    answer (runSlot (Machine.compare opc fn) f { pred := q, x, y, z } s) =
      .next ((s.unstalled f).setP f.val x.val (fn ((s.furrow f.val).gr y.val) ((s.furrow f.val).gr z.val))).sense :=
  slot_issues (h.plain (by simp [Machine.compare, EncSpec.reservedField, RK.fits, hx]) (by simp [Machine.compare, EncSpec.gregs])) rfl

/-- pX = comparison of gY with IMM; no register but gY is named. -/
theorem compareImm_gives (fn : Word → Word → Bool) (h : s.issuing f q [y, z] p) (hx : x.val < 8) :
    answer (runSlot (compareImm opc fn) f { pred := q, x, y, imm } s) =
      .next ((s.unstalled f).setP f.val x.val (fn ((s.furrow f.val).gr y.val) (imm.signExtend 64))).sense :=
  slot_issues (h.plain (by simp [compareImm, EncSpec.reservedField, RK.fits, hx]) (by simp [compareImm, EncSpec.gregs])) rfl

/-- pX = pY op pZ. -/
theorem predOp_gives {regs : List (Fin 64)} (fn : Bool → Bool → Bool) (h : s.issuing f q regs p) (hx : x.val < 8) (hy : y.val < 8)
    (hz : z.val < 8) : answer (runSlot (predOp opc fn) f { pred := q, x, y, z } s) =
      .next ((s.unstalled f).setP f.val x.val (fn ((s.furrow f.val).pr y.val) ((s.furrow f.val).pr z.val))).sense :=
  slot_issues (h.plain (by simp [predOp, EncSpec.reservedField, RK.fits, hx, hy, hz]) (by simp [predOp, EncSpec.gregs])) rfl

/-- A branch to TGT goes where its comparison holds. -/
theorem branch_goes {tgt : Fin 4096} (fn : Word → Word → Bool) (h : s.issuing f q [x, y] p) :
    answer (runSlot (branch opc fn) f { pred := q, x, y, tgt } s) =
      .next (if fn ((s.furrow f.val).gr x.val) ((s.furrow f.val).gr y.val) then (s.unstalled f).jump f.val tgt.val
        else s.unstalled f).sense :=
  slot_issues (h.plain (by simp [branch, EncSpec.reservedField, RK.fits]) (by simp [branch, EncSpec.gregs])) rfl

end

/-! ### The obligations -/

/-- Settles O1: the ten instructions are rows of one shape. -/
theorem scalarArithmetic : Obligations.ScalarArithmetic := by
  intro f s p q x y z h
  exact ⟨alu_gives _ h, alu_gives _ h, alu_gives _ h, alu_gives _ h, alu_gives _ h, alu_gives _ h, alu_gives _ h, alu_gives _ h,
    alu_gives _ h, alu_gives _ h⟩

/-- A slot that reads no register but names gX. -/
theorem State.issuing.of_pair {s : State} {f : FurrowId} {q : Fin 8} {x y : Fin 64} {p : Program} (h : s.issuing f q [x, y] p) :
    s.issuing f q [x] p :=
  ⟨h.1, h.2.1, fun n hn => h.2.2 n (by simp_all)⟩

/-- Settles O2: arithmetic, logic and shifts by their shapes of row; MOVI and MOVHI read no register. -/
theorem scalarImmediates : Obligations.ScalarImmediates := by
  intro f s p q x y imm h
  have movi : s.issues opMovi f { pred := q, x, imm } p :=
    h.plain (by simp [opMovi, EncSpec.reservedField, RK.fits]) (by simp [opMovi, EncSpec.gregs])
  have movhi : s.issues opMovhi f { pred := q, x, imm } p :=
    h.plain (by simp [opMovhi, EncSpec.reservedField, RK.fits]) (by simp [opMovhi, EncSpec.gregs])
  exact ⟨aluImm_gives true _ h, aluImm_gives true _ h, aluImm_gives false _ h, aluImm_gives false _ h, aluImm_gives false _ h,
    fun himm => ⟨shiftImm_gives _ h himm, shiftImm_gives _ h himm, shiftImm_gives _ h himm⟩,
    slot_issues movi rfl, slot_issues movhi rfl⟩

/-- Settles O3: comparisons and predicate operations by their shapes of row; PNOT, MOVGH and MOVHG have rows of their own. -/
theorem scalarComparisons : Obligations.ScalarComparisons := by
  intro f s p q x y z h i j imm hi hx hy hz hh
  have pnot : s.issues opPnot f { pred := q, x, y } p :=
    hi.plain (by simp [opPnot, EncSpec.reservedField, RK.fits, hx, hy]) (by simp [opPnot, EncSpec.gregs])
  have movgh : s.issues opMovgh f { pred := q, x := h, y := i } p :=
    hi.plain (by simp [opMovgh, EncSpec.reservedField, RK.fits, hh]) (by simp [opMovgh, EncSpec.gregs])
  have movhg : s.issues opMovhg f { pred := q, x := i, y := h } p :=
    hi.plain (by simp [opMovhg, EncSpec.reservedField, RK.fits, hh]) (by simp [opMovhg, EncSpec.gregs])
  exact ⟨compare_gives _ hi hx, compare_gives _ hi hx, compare_gives _ hi hx, compare_gives _ hi hx,
    compareImm_gives _ hi hx, compareImm_gives _ hi hx, compareImm_gives _ hi hx, predOp_gives _ hi hx hy hz,
    predOp_gives _ hi hx hy hz, slot_issues pnot rfl, slot_issues movgh rfl, slot_issues movhg rfl⟩

/-- A number below 4,096 has no bit above bit 11. -/
theorem above_twelve_bits_zero {w : Word} (h : w.toNat < 4096) : w.toNat &&& (2 ^ 64 - 1 - 0xFFF) = 0 := by
  have hmask : 2 ^ 64 - 1 - 0xFFF = 2 ^ 12 * (2 ^ 52 - 1) := by decide
  apply Nat.eq_of_testBit_eq
  intro i
  rw [hmask, Nat.testBit_and, Nat.testBit_two_pow_mul]
  by_cases hi : 12 ≤ i
  · rw [Nat.testBit_lt_two_pow (h.trans_le (Nat.pow_le_pow_right Nat.two_pos hi))]
    simp
  · simp [hi]

/-- BR goes to gX, where its bits above bit 11 are clear. -/
theorem br_goes {s : State} {f : FurrowId} {p : Program} {q : Fin 8} {x : Fin 64} (h : s.issuing f q [x] p)
    (hx : ((s.furrow f.val).gr x.val).toNat < 4096) : answer (runSlot opBr f { pred := q, x } s) =
      .next ((s.unstalled f).jump f.val ((s.furrow f.val).gr x.val).toNat).sense := by
  have hfld : fld ((s.furrow f.val).gr x.val) 11 0 = ((s.furrow f.val).gr x.val).toNat := by
    simpa [fld, bits] using hx
  refine slot_issues (h.plain (by simp [opBr, EncSpec.reservedField, RK.fits]) (by simp [opBr, EncSpec.gregs]) (hchecks := ?_)) ?_
  · have hbits : ckBits ((s.furrow f.val).gr x.val) 0xFFF = [] := by
      rw [ckBits, above_twelve_bits_zero hx]
      rfl
    change firstFailure (ckBits ((s.furrow f.val).gr x.val) 0xFFF ++ []) = none
    rw [hbits]
    rfl
  · change (s.unstalled f).jump f.val (fld ((s.furrow f.val).gr x.val) 11 0) = _
    rw [hfld]

/-- Settles O4: the comparing branches by their shape of row; B takes its target as it is, BR the register's value. -/
theorem branches : Obligations.Branches := by
  intro f s p q x y tgt h
  have b : s.issues opB f { pred := q, tgt } p :=
    h.plain (by simp [opB, EncSpec.reservedField, RK.fits]) (by simp [opB, EncSpec.gregs])
  exact ⟨slot_issues b rfl, branch_goes _ h, branch_goes _ h, branch_goes _ h, branch_goes _ h, branch_goes _ h, branch_goes _ h,
    br_goes h.of_pair⟩

/-- Settles O5: both rows name nothing but their predicate. -/
theorem programEnds : Obligations.ProgramEnds := by
  intro f s p q h
  have end_ : s.issues opEnd f { pred := q } p :=
    h.plain (by simp [opEnd, EncSpec.reservedField, RK.fits]) (by simp [opEnd, EncSpec.gregs])
  have endCancel : s.issues opEndCancel f { pred := q } p :=
    h.plain (by simp [opEndCancel, EncSpec.reservedField, RK.fits]) (by simp [opEndCancel, EncSpec.gregs])
  exact ⟨slot_issues end_ rfl, slot_issues endCancel rfl⟩

/-- A WAIT that issues has its counter at or below its threshold, for above it the slot stalls (R103). -/
theorem wait_issues_below {s : State} {f : FurrowId} {o : Slot} {p : Program} (h : s.issues opWait f o p) :
    ((s.furrow f.val).ar o.x.val).val ≤
      if o.mod.getLsbD 0 then signed 32 ((s.furrow f.val).gr o.y.val).toNat else signed 32 o.imm.toNat := by
  have hstalls := h.unheld
  simp only [opWait, waitThreshold, State.ctx, decide_eq_false_iff_not, not_lt] at hstalls
  exact hstalls

/-- Settles O6: each instruction's effect is its row's; WAIT issues only once its counter has fallen far enough. -/
theorem counterInstructions : Obligations.CounterInstructions := by
  intro f s p o
  exact ⟨fun h => ⟨wait_issues_below h, slot_issues h rfl⟩, fun h => slot_issues h rfl, fun h => slot_issues h rfl,
    fun h => slot_issues h rfl, fun h => slot_issues h rfl, fun h => slot_issues h rfl, fun h => slot_issues h rfl,
    fun h => slot_issues h rfl⟩

end Sys2Proof.Machine

/-! The vector instructions and conversions (R155, R377, Table 14-9). -/

namespace Sys2Proof.Machine

/-! ### Checks that pass -/

/-- Where no check fails, none of a code of R368's order is among the failures. -/
theorem firstFailure_none {l : List (Nat × Word)} (h : firstFailure l = none) {e : Nat × Word} (he : e ∈ l) : e.1 ∉ checkOrder := by
  intro hcode
  have hnone := List.findSome?_eq_none_iff.mp h e.1 hcode
  simpa using List.find?_eq_none.mp hnone e he

/-- A check of a list that passes holds. -/
theorem chk_holds {l : List (Nat × Word)} {ok : Bool} {code : Nat} {info : Word} (h : firstFailure l = none)
    (hsub : chk ok code info ⊆ l) (hcode : code ∈ checkOrder) : ok = true := by
  cases ok with
  | true => rfl
  | false => exact absurd hcode (firstFailure_none h (hsub (List.mem_singleton_self (code, info))))

/-- VLD and VST that issue have an aligned address, all of whose 256 bytes lie in Hull. -/
theorem ckVec_holds {a : Word} (h : firstFailure (ckVec a) = none) : a.toNat % 64 = 0 ∧ a.toNat + 256 ≤ 0x300000 := by
  have haligned := chk_holds h (List.subset_append_left _ _) (by decide)
  have hrange := chk_holds h (List.subset_append_right _ _) (by decide)
  exact ⟨by simpa using haligned, by simpa using hrange⟩

/-! ### What the end of a stall leaves -/

section
variable (s : State) (f : FurrowId)

@[simp] theorem unstalled_stateHull : (s.unstalled f).hull f.val = (s.furrow f.val).hull := unstalled_hull s f

@[simp] theorem unstalled_srCount : ((s.unstalled f).furrow f.val).srCount = (s.furrow f.val).srCount := by
  rw [State.unstalled, State.modProg, furrow_modFurrow_self]

end

/-! ### Instructions whose effect is not their row's word for word -/

section
variable {s : State} {f : FurrowId} {o : Slot} {p : Program}

/-- A sum of lanes: the first, and the others added to it in their order. -/
theorem foldl_from_head (add : Nat → Nat → Nat) (l : List Nat) :
    (match l with | [] => 0 | x :: xs => xs.foldl add x) = (l.drop 1).foldl add (l.headD 0) := by
  cases l <;> rfl

/-- VRSUM adds its lanes in ascending order. -/
theorem vrsum_effect (h : s.issues opVrsum f o p) :
    let m := o.mod.toNat % 8
    let ls := lanes (laneShape m).1 (laneShape m).2 ((s.furrow f.val).vr o.y.val)
    answer (runSlot opVrsum f o s) = .next ((s.unstalled f).setV f.val o.x.val (ofLanes (laneShape m).1
      [(ls.drop 1).foldl (laneOp m FVal.add (fun _ a b => a + b)) (ls.headD 0)])).sense :=
  slot_issues h (congrArg (fun n => (s.unstalled f).setV f.val o.x.val (ofLanes _ [n])) (foldl_from_head _ _))

/-- VLD loads its 256 bytes, and sets POISON_READ where it meets a poisoned line. -/
theorem vld_effect (h : s.issues opVld f o p) :
    let m := (s.furrow f.val).hull
    let a := ((s.furrow f.val).gr o.y.val + o.imm.signExtend 64).toNat
    let u := (s.unstalled f).setV f.val o.x.val (BitVec.ofNat 2048 (m.readNat a 256))
    answer (runSlot opVld f o s) = .next (if m.anyPoison a 256 then u.poisonRead f.val else u).sense := by
  dsimp only
  rw [← unstalled_stateHull]
  exact slot_issues h rfl

end

/-! ### The obligation -/

/-- Settles O7: an instruction's effect is its row's; VLD and VST issue only with a legal address. -/
theorem vectorSlots : Obligations.VectorSlots := by
  refine ⟨fun f s p o => ?_, fun f s p o => ?_⟩
  · exact ⟨fun h => slot_issues h rfl, fun h => slot_issues h rfl, fun h => slot_issues h rfl, fun h => slot_issues h rfl,
      fun h => slot_issues h rfl, fun h => slot_issues h rfl, fun h => slot_issues h rfl, fun h => slot_issues h rfl,
      fun h => slot_issues h rfl, fun h => slot_issues h rfl, fun h => slot_issues h rfl, fun h => vrsum_effect h,
      fun h => slot_issues h rfl,
      fun h => ⟨(ckVec_holds h.passes).1, (ckVec_holds h.passes).2, vld_effect h⟩,
      fun h => ⟨(ckVec_holds h.passes).1, (ckVec_holds h.passes).2, slot_issues h rfl⟩⟩
  · refine ⟨fun h => ?_, fun h => slot_issues h rfl, fun h => ?_⟩
    · simp only [← unstalled_srCount s f]
      exact slot_issues h rfl
    · simp only [← unstalled_srCount s f]
      exact slot_issues h rfl

end Sys2Proof.Machine

/-! Local moves, Glean operations, block conversions and gathers: their issue, and the completion of a local move (R101, R102, R370). -/

namespace Sys2Proof.Machine

/-! ### Issue -/

/-- An instruction that only issues launches its operation, and does nothing else. -/
theorem issueOp_effect {enc : EncSpec} {cls : OpClass} {checks : Ctx → State → List (Nat × Word)} {s : State} {f : FurrowId}
    {o : Slot} {p : Program} (h : s.issues (issueOp enc cls checks) f o p) :
    answer (runSlot (issueOp enc cls checks) f o s) =
      .next ((s.unstalled f).launched f (captured (issueOp enc cls checks) cls (s.furrow f.val) o p [] s.nextId)).sense :=
  slot_issues h rfl

/-- EMB.GATHER latches its table's record, where there is one. -/
theorem embGather_effect {s : State} {f : FurrowId} {o : Slot} {p : Program} (h : s.issues opEmbGather f o p) :
    let y := ((s.furrow f.val).gr o.y.val).toNat
    let u := (s.unstalled f).launched f (captured opEmbGather .mov (s.furrow f.val) o p [] s.nextId)
    answer (runSlot opEmbGather f o s) = .next (match (s.unstalled f).embRec y with
      | none => u
      | some e =>
        (u.modOp f.val s.nextId (fun a => { a with latch := [e.version, e.base, e.so, e.rows, e.dim, e.fmt] })).embLatch y).sense := by
  refine slot_issues h ?_
  change (match (s.unstalled f).embRec ((s.furrow f.val).gr o.y.val).toNat with | none => _ | some e => _) = _
  cases (s.unstalled f).embRec ((s.furrow f.val).gr o.y.val).toNat <;> rfl

/-- Settles O8: six rows only issue; the other three also capture descriptors, a table's record or a version. -/
theorem transfersIssue : Obligations.TransfersIssue := by
  refine ⟨fun f s p o e he => ?_, fun f s p o => ⟨fun h => slot_issues h rfl, fun h => embGather_effect h, fun h => slot_issues h rfl⟩⟩
  simp only [List.mem_cons, List.not_mem_nil, or_false] at he
  rcases he with rfl | rfl | rfl | rfl | rfl | rfl <;> exact issueOp_effect

/-! ### Completion of a local move -/

/-- An opcode of a local move makes MOVE_COMPLETE do that move and finish the operation. -/
theorem moveComplete_move {f : FurrowId} {id : Nat} {s : State} {o : AsyncOp} (hop : s.op? f.val id = some o) (hcls : o.cls = .mov)
    (hopc : o.opc ∈ [0x61, 0x62, 0x63, 0x64]) :
    moveComplete f id s = (s.moveDo f.val o).2.finish f.val id (s.moveDo f.val o).1 := by
  have hmove : s.s3Do f.val o = s.moveDo f.val o := by
    simp only [List.mem_cons, List.not_mem_nil, or_false] at hopc
    rcases hopc with h | h | h | h <;> simp only [State.s3Do, h]
  simp only [moveComplete, hop, hcls, if_true, hmove]

/-- Settles O9: each of the four opcodes names one branch of the move. -/
theorem movesComplete : Obligations.MovesComplete := by
  intro f id s o hop hcls
  have hmove (hopc : o.opc ∈ [0x61, 0x62, 0x63, 0x64]) (d : Done) (t : State) (hdo : s.moveDo f.val o = (d, t)) :
      exec (.moveComplete f id) s = .next (t.finish f.val id d).sense := by
    change answer (moveComplete f id s) = _
    rw [moveComplete_move hop hcls hopc, hdo]
    rfl
  refine ⟨fun h => ?_, fun h => ?_, fun h => ?_, fun h => ?_⟩
  all_goals
    refine hmove (by simp [h]) _ _ ?_
    rw [State.moveDo, h]
    rfl

end Sys2Proof.Machine

/-! The fabric's instructions: sends, pulls and ships, row updates and the engines' operations (R279 to R284, R380). Their operands
are read of Hull as it stands at issue, which the end of a stall leaves alone. -/

namespace Sys2Proof.Machine

/-- Settles O10: each row launches its operation and makes one request of it. -/
theorem fabricSends : Obligations.FabricSends := by
  intro f s p o
  dsimp only
  rw [← unstalled_stateHull s f]
  exact ⟨fun h => slot_issues h rfl, fun h => slot_issues h rfl, fun h => slot_issues h rfl, fun h => slot_issues h rfl⟩

/-- Settles O12: a pull and a ship issue, and end at once or are sent. -/
theorem pullsAndShips : Obligations.PullsAndShips := by
  intro f s p o
  dsimp only
  rw [← unstalled_stateHull s f]
  exact ⟨fun h => slot_issues h rfl, fun h => slot_issues h rfl⟩

/-- Settles O13: ROW.ST and ROW.ADD put their update, ROW.FLUSH sends what is held. -/
theorem rowUpdates : Obligations.RowUpdates := by
  intro f s p o
  exact ⟨fun h => slot_issues h rfl, fun h => slot_issues h rfl, fun h => slot_issues h rfl⟩

/-- Settles O14: each engine's operation is launched, and fails at once or starts. -/
theorem engineOperations : Obligations.EngineOperations := by
  intro f s p o
  dsimp only
  rw [← unstalled_stateHull s f]
  exact ⟨fun h => slot_issues h rfl, fun h => slot_issues h rfl, fun h => slot_issues h rfl, fun h => slot_issues h rfl,
    fun h => slot_issues h rfl⟩

end Sys2Proof.Machine

/-! Operations of arrays, Winnow, Sieve and Husk: their issue (R101), and what a unit does with the work it has taken. -/

namespace Sys2Proof.Machine

/-- A command that ends in a state answers that state, sensed. -/
theorem answer_of_eq {t u : State} (h : t = u) : answer t = .next u.sense := by
  rw [h, answer]

/-! ### Issue -/

/-- Settles O15: each row launches its operation and puts it where its unit finds it. -/
theorem unitOperationsIssue : Obligations.UnitOperationsIssue := by
  intro f s p o
  refine ⟨fun e he => ?_, fun h => slot_issues h rfl, fun h => slot_issues h rfl, fun h => slot_issues h rfl,
    fun h => slot_issues h rfl, fun h => slot_issues h rfl, fun h => slot_issues h rfl, fun h => slot_issues h rfl,
    fun h => slot_issues h rfl⟩
  simp only [List.mem_cons, List.not_mem_nil, or_false] at he
  rcases he with rfl | rfl <;> exact fun h => slot_issues h rfl

/-- Settles O16: the row's effect is the choice between an end at once and the queue of an array. -/
theorem attentionIssues : Obligations.AttentionIssues := by
  intro f s p o h
  exact slot_issues h rfl

/-! ### Winnow and Sieve (R213, R272) -/

section
variable {s : State} {f : FieldId} {j : UnitJob} {o : AsyncOp} {n : Nat}

/-- An idle Winnow unit takes an encoder's search first. -/
theorem winnowOpStart_takes (hidle : (s.winnowAt f.val).running = none) (hup : s.winnowUp f.val = true)
    (hnext : ((s.winnowAt f.val).queue.find? (fun (j : UnitJob) => j.enc)).or (s.winnowAt f.val).queue.head? = some j) :
    winnowOpStart f s = (s.modWinnow f.val (fun u => ⟨u.queue.erase j, some j⟩)).winnowShift := by
  simp [winnowOpStart, hidle, hup, hnext]

/-- An idle Sieve unit takes its oldest operation. -/
theorem sieveOpStart_takes {rest : List UnitJob} (hidle : (s.sieveAt f.val).running = none) (hup : s.sieveUp f.val = true)
    (hqueue : (s.sieveAt f.val).queue = j :: rest) :
    sieveOpStart f s = (s.modSieve f.val (fun _ => ⟨rest, some j⟩)).sieveShift := by
  simp [sieveOpStart, hidle, hup, hqueue]

/-- A quantum of a search is metered, and the search gives way to an encoder's. -/
theorem winnowQuantumEnd_search (hrun : (s.winnowAt f.val).running = some j) (hop : s.op? j.furrow j.op = some o) (hopc : o.opc = 0xA8) :
    winnowQuantumEnd f s = if (s.winnowAt f.val).queue.any (fun (k : UnitJob) => k.enc)
      then (s.meterJob 3 j 2048).modWinnow f.val (fun u => ⟨j :: u.queue, none⟩) else s.meterJob 3 j 2048 := by
  simp [winnowQuantumEnd, hrun, hop, hopc]

/-- The state in which a Winnow operation that ends does its work: metered, its unit idle. -/
def State.winnowFreed (s : State) (f : FieldId) (j : UnitJob) (n : Nat) : State :=
  ((s.meterJob 3 j n).modWinnow f.val (fun u => { u with running := none })).offIfDue (.winnowPair (Fin.ofNat 2 (f.val / 2)))

/-- The same for Sieve. -/
def State.sieveFreed (s : State) (f : FieldId) (j : UnitJob) (n : Nat) : State :=
  ((s.meterJob 4 j n).modSieve f.val (fun u => { u with running := none })).offIfDue (.sievePair (Fin.ofNat 2 (f.val / 2)))

/-- An operation of Winnow that ends: a search for an encoder marks its encode, another does its work and completes. -/
theorem winnowOpComplete_running (hrun : (s.winnowAt f.val).running = some j)
    (hop : (s.winnowFreed f j n).op? j.furrow j.op = some o) :
    let t := s.winnowFreed f j n
    let r := if o.opc = 0xA8 then t.topkDo f.val j o else t.mergeListsDo j o
    winnowOpComplete f n s = if j.enc then t.setOp j.furrow { o with started := true } else r.2.finish j.furrow o.id r.1 := by
  simp only [State.winnowFreed] at hop ⊢
  simp only [winnowOpComplete, hrun, hop]

/-- An operation of Sieve that ends does its work and completes. -/
theorem sieveOpComplete_running (hrun : (s.sieveAt f.val).running = some j)
    (hop : (s.sieveFreed f j n).op? j.furrow j.op = some o) :
    let t := s.sieveFreed f j n
    let r := if o.opc = 0xB0 then t.maskDo f.val j o else t.drawDo f.val j o
    sieveOpComplete f n s = r.2.finish j.furrow o.id r.1 := by
  simp only [State.sieveFreed] at hop ⊢
  simp only [sieveOpComplete, hrun, hop]

end

/-- Settles O17: a start, a quantum and an end, by what each finds. -/
theorem unitsWork : Obligations.UnitsWork := by
  refine ⟨fun f s j hidle hup hnext => answer_of_eq (winnowOpStart_takes hidle hup hnext),
    fun f s j rest hidle hup hqueue => answer_of_eq (sieveOpStart_takes hidle hup hqueue),
    fun f s j o hrun hop hopc => answer_of_eq (winnowQuantumEnd_search hrun hop hopc), ?_, ?_⟩
  · intro f n s j o hrun t hop
    have hends := winnowOpComplete_running hrun hop
    refine ⟨fun henc => answer_of_eq ?_, fun henc hopc => answer_of_eq ?_, fun henc hopc => answer_of_eq ?_⟩
    · simp only [hends, henc, if_true]
      rfl
    · simp only [hends, henc, hopc, Bool.false_eq_true, if_false, if_true]
      rfl
    · simp only [hends, henc, hopc, Bool.false_eq_true, if_false, Nat.reduceEqDiff]
      rfl
  · intro f n s j o hrun t hop
    have hends := sieveOpComplete_running hrun hop
    refine ⟨fun hopc => answer_of_eq ?_, fun hopc => answer_of_eq ?_⟩
    · simp only [hends, hopc, if_true]
      rfl
    · simp only [hends, hopc, Nat.reduceEqDiff, if_false]
      rfl

/-! ### Arrays (R123 to R129, R167, R178) -/

section
variable {s : State} {k : ArrayId} {j : ArrayJob} {o : AsyncOp}

/-- The state in which an array has taken a job. -/
def State.arrayTook (s : State) (k : ArrayId) (j : ArrayJob) : State :=
  s.modArray k.val (fun a => { a with running := some j, lastFurrow := j.furrow % 16, queue := a.queue.erase j })

/-- An idle available array takes its next job; what it does with it depends on the job's kind. -/
theorem tileStart_takes {x : TileFaults} (hidle : (s.array k.val).running = none) (hup : s.arrayAvailable k.val = true)
    (hnext : s.nextJob k.val = some j) :
    let t := s.arrayTook k j
    tileStart k x s = match j.kind, t.op? j.furrow j.op with
      | .tile, some o => t.tileBegin k.val j o x
      | .part, some _ => t
      | .ship, _ => t
      | .merge, some _ => t
      | _, none => t.modArray k.val (fun a => { a with running := none }) := by
  simp only [tileStart, hidle, hup, hnext, Option.isSome_none, Bool.not_true, Bool.or_false, Bool.false_eq_true, if_false] <;> rfl

/-- A tile that ends with no code against it writes its rows and completes. -/
theorem tileComplete_good {x : TileFaults} {n : Nat} {b : StatBuf} (hrun : (s.array k.val).running = some j) (hkind : j.kind = .tile)
    (hop : s.op? j.furrow j.op = some o) (hcode : o.latch.headD 0 = 0) (hbuf : (s.array k.val).bufs.head? = some b) :
    let r := s.tileDo k.val (tileOf j.furrow o) b x
    tileComplete k x n s = ((r.2.jobEnd k.val o.slice n).finish j.furrow o.id r.1).applyOwners k.val := by
  simp only [tileComplete, hrun, hkind, hop, hcode, hbuf, if_true]

end

/-! ### Operations of a Furrow that units complete (R167, R178, R210) -/

section
variable {s : State} {f : FurrowId} {id k : Nat} {o : AsyncOp}

/-- A partial whose cause would poison a group's record is a member fault; any other puts its record and completes. -/
theorem attnPartComplete_running (hop : s.op? f.val id = some o) (harray : s.arrayOf ⟨.part, f.val, id⟩ = some k) :
    let r := s.partDo f.val o
    let t := r.s.jobEnd k o.slice r.cycles
    attnPartComplete f id s = if o.attn.gid != 0 && r.cause != 0 then t.memberFault o.attn.gid t.node r.cause
      else ((if o.attn.walk = 0 then t else t.walkEnd (o.attn.walk - 1)).putRecord f.val (fld o.x 31 0)
        { o.header with last := r.last, empty := r.empty, underrun := r.underrun, poison := r.cause != 0, cause := r.cause,
                        used := r.used } r.body).finish f.val id (partDone r.cause) := by
  simp only [attnPartComplete, hop, harray]

/-- A merge of partials completes with what it computed, and its array is free. -/
theorem attnMergeComplete_running (hop : s.op? f.val id = some o) (harray : s.arrayOf ⟨.merge, f.val, id⟩ = some k) :
    let a := s.recordAt f.val (fld o.y 31 0)
    let cycles := 12 + 2 * ceilDiv (bodyBytes a.rows a.heads a.dim) 256 + ceilDiv (mergeOut (o.mod.testBit 0) a) 256
    let r := s.mergeDo f.val o
    attnMergeComplete f id s = (r.2.jobEnd k o.slice cycles).finish f.val id r.1 := by
  simp only [attnMergeComplete, hop, harray]

/-- A codec operation completes with what its opcode does; a PQ encode that may run, only once it is searched for. -/
theorem huskOpComplete_op (hop : s.op? f.val id = some o) :
    let done (r : Done × State) : State := r.2.finish f.val id r.1
    huskOpComplete f id s = match o.opc with
      | 0xA1 => if isPQ (o.mod % 256) && o.fail.isNone && !o.started then s else done (s.encodeDo f.val o)
      | 0xA2 => done (s.encodeBlkDo f.val o)
      | 0xA3 => done (s.decodeDo f.val o)
      | _ => s := by
  simp only [huskOpComplete, hop] <;> rfl

end

/-- Settles O18: starts by the kind of job, ends by what the operation computed. -/
theorem arraysWork : Obligations.ArraysWork := by
  refine ⟨?_, fun k x n s j o b hrun hkind hop hcode hbuf => answer_of_eq (tileComplete_good hrun hkind hop hcode hbuf), ?_,
    fun f id k s o hop harray => answer_of_eq (attnMergeComplete_running hop harray), ?_, fun k s => rfl⟩
  · intro k x s j hidle hup hnext t
    have htakes := tileStart_takes (x := x) hidle hup hnext
    refine ⟨fun o hkind hop => answer_of_eq ?_, fun o hkind hop => answer_of_eq ?_, fun hkind => answer_of_eq ?_⟩
    · rw [htakes, hkind, show (s.arrayTook k j).op? j.furrow j.op = some o from hop]; rfl
    · rw [htakes, show (s.arrayTook k j).op? j.furrow j.op = some o from hop]
      rcases hkind with hkind | hkind <;> rw [hkind] <;> rfl
    · rw [htakes, hkind]; rfl
  · intro f id k s o hop harray
    have hends := attnPartComplete_running hop harray
    refine ⟨fun hgid hcause => answer_of_eq ?_, fun hgood => answer_of_eq ?_⟩
    · rw [hends, if_pos (by simp [hgid, hcause])]
    · rw [hends, if_neg (by rcases hgood with h | h <;> simp [h])]
  · intro f id s o hop
    have hends := huskOpComplete_op hop
    refine ⟨fun hopc hready => answer_of_eq ?_, fun hopc => answer_of_eq ?_, fun hopc => answer_of_eq ?_⟩
    · have hgo : (isPQ (o.mod % 256) && o.fail.isNone && !o.started) = false := by
        rcases hready with h | h | h <;> simp [h]
      rw [hends, hopc, hgo]
      rfl
    · rw [hends, hopc]
      rfl
    · rw [hends, hopc]
      rfl

end Sys2Proof.Machine

/-! The system instructions of S7: the Sheaf, page tables and their deferred edits, frames, groups and directories, and handovers
(R375, R383 to R386). -/

namespace Sys2Proof.Machine

/-- Settles O19: each row's effect is its status and what it changes. -/
theorem sheafInstructions : Obligations.SheafInstructions := by
  intro f s p o
  exact ⟨fun h => slot_issues h rfl, fun h => slot_issues h rfl, fun h => slot_issues h rfl, fun h => slot_issues h rfl,
    fun h => slot_issues h rfl, fun h => slot_issues h rfl, fun h => slot_issues h rfl, fun h => slot_issues h rfl⟩

/-- A deferred edit whose frame no walk holds, and which no earlier edit of its entry precedes, is applied and completes (R78, R81). -/
theorem deferredEditApply_free {s : State} {g : FieldId} {id : Nat} {e : DeferredEdit}
    (hfind : (Table.get [] s.deferred g.val).find? (fun e => e.id = id) = some e)
    (hwalks : s.walked (s.editFrame e.opc (selOf e.sel)) = false)
    (hfirst : s.deferredEdits.any (fun d => d.id < e.id && d.touches e.opc (selOf e.sel)) = false) :
    deferredEditApply g id s =
      (({ s with deferred := Table.set s.deferred g.val ((Table.get [] s.deferred g.val).filter (fun d => d.id != id)) }.applyEdit
        e.opc e.sel e.handle e.param).finish e.furrow e.op (Done.ofCode 0x94)) := by
  simp only [deferredEditApply, hfind, hwalks, hfirst, Bool.or_false, Bool.false_eq_true, if_false]

/-- Settles O20: each row's effect, and the edit that had to wait. -/
theorem pageTables : Obligations.PageTables := by
  intro f s p o
  exact ⟨fun h => slot_issues h rfl, fun h => slot_issues h rfl, fun h => slot_issues h rfl, fun h => slot_issues h rfl,
    fun h => slot_issues h rfl, fun h => slot_issues h rfl, fun h => slot_issues h rfl, fun h => slot_issues h rfl,
    fun h => slot_issues h rfl,
    fun g id e hfind hwalks hfirst => answer_of_eq (deferredEditApply_free hfind hwalks hfirst)⟩

/-- Settles O21: each row's effect is its status and what it changes. -/
theorem poolAndTables : Obligations.PoolAndTables := by
  intro f s p o
  refine ⟨fun h => slot_issues h rfl, fun h => slot_issues h rfl, fun h => slot_issues h ?_, fun h => slot_issues h rfl,
    fun h => slot_issues h rfl, fun h => slot_issues h rfl, fun h => slot_issues h rfl, fun h => slot_issues h rfl,
    fun h => slot_issues h rfl, fun h => slot_issues h ?_, fun h => slot_issues h ?_⟩
  · dsimp only [opMgOpen, State.ctx, Ctx.y]
    rfl
  · dsimp only [opAdpPublish, State.ctx, Ctx.y]
    rfl
  · dsimp only [opAdpRetire, State.ctx, Ctx.y, Ctx.z]
    rfl

/-- Settles O22: each row's effect is its status and what it changes. -/
theorem handoverInstructions : Obligations.HandoverInstructions := by
  intro f s p o
  exact ⟨fun h => slot_issues h rfl, fun h => slot_issues h rfl, fun h => slot_issues h rfl, fun h => slot_issues h rfl,
    fun h => slot_issues h rfl, fun h => slot_issues h rfl, fun h => slot_issues h rfl⟩

end Sys2Proof.Machine

/-! Register accesses: what counters and records leave of the other registers, and a write of a register that no rule gives an effect
of its own (R8, R10, R511). -/

namespace Sys2Proof.Machine

/-! ### What counters and records leave -/

theorem State.rd_count_ne (s : State) {r q : Csr} (hi lo n : Nat) (h : r ≠ q) : (s.count r hi lo n).rd q = s.rd q := by
  obtain ⟨v, k, e⟩ := count_spec s r hi lo n
  rw [e]
  exact csrGet_set_ne s.csr v h

/-- A record may count as dropped (R460); it leaves every register but the two counters of that. -/
theorem State.rd_record (s : State) {q : Csr} (type severity unit : Nat) (body : List Byte) (hprot : q.reg ≠ .almProtDropCnt)
    (hother : q.reg ≠ .almDropCnt) : (s.record type severity unit body).rd q = s.rd q := by
  have hne : (if recProtected type then (⟨.almProtDropCnt, 0, 0, 0⟩ : Csr) else ⟨.almDropCnt, 0, 0, 0⟩) ≠ q := by
    intro e
    split at e
    · exact hprot (congrArg Csr.reg e).symm
    · exact hother (congrArg Csr.reg e).symm
  unfold State.record
  dsimp only
  generalize (if recProtected type then 128 else 96) = places
  split
  · rfl
  · exact State.rd_count_ne _ _ _ _ hne

/-- A refusal is recorded; a register with locked fields is not one of the drop counters. -/
theorem State.rd_configRefused (s : State) {r q : Csr} (v : Word) (hprot : q.reg ≠ .almProtDropCnt) (hother : q.reg ≠ .almDropCnt) :
    (s.configRefused r v).rd q = s.rd q :=
  State.rd_record s _ _ _ _ hprot hother

/-! ### A plain write -/

theorem RegSpec.hasAcc_iff (p : RegSpec) (a : Access) : p.hasAcc a = true ↔ ∃ g ∈ p.fields, g.acc = a := by
  simp [RegSpec.hasAcc]

/-- A write of plain fields with a value that is permitted, where it is refused of its locked fields or not. -/
theorem State.writePlain_permitted (s : State) {r : Csr} {v : Word} (h : r.reg.spec.permits v = true) :
    s.writePlain r v = (if s.lockedReg r && r.reg.spec.hasAcc .rwl then s.configRefused r v else s).wr r
      (r.reg.spec.afterWrite (!s.lockedReg r) (s.rd r) v) := by
  simp only [State.writePlain, h, Bool.not_true, Bool.false_eq_true, if_false]
  split
  · rename_i hrefused
    obtain ⟨hlocked, hrwl⟩ := Bool.and_eq_true_iff.mp hrefused
    have hprot : r.reg ≠ .almProtDropCnt := fun e => by rw [e] at hrwl; exact absurd hrwl (by decide)
    have hother : r.reg ≠ .almDropCnt := fun e => by rw [e] at hrwl; exact absurd hrwl (by decide)
    have hlock : (s.configRefused r v).lockedReg r = s.lockedReg r := by
      simp only [State.lockedReg, State.locked, State.repairLocked, State.rdb,
        State.rd_configRefused s (r := r) (q := ⟨.secLock, 0, 0, 0⟩) v (by decide) (by decide)]
    rw [hlock, State.rd_configRefused s v hprot hother]
  · rfl

/-- A write with a value that is not permitted is ignored as a whole (R511). -/
theorem State.writePlain_ignored (s : State) {r : Csr} {v : Word} (h : r.reg.spec.permits v = false) : s.writePlain r v = s := by
  simp only [State.writePlain, h, Bool.not_false, if_true]

/-! ### Registers without an effect of their own -/

/-- The registers whose write a rule gives an effect of its own. -/
def effectRegs : List RegName :=
  [.chpNodeId, .chpHeartbeat, .chpFallow, .almReadCtl, .almSwCmd, .secMboxCmd, .frwCqBase, .frwCqCtl, .frwCqTail, .frwSlice, .frwGlnReg,
    .frwQstCtl, .fldReeveCmd, .thrOpsOwn, .prtCtl, .shpCfg, .prtPol, .fabTimeout, .fabHoLease, .fabStt, .shfPart, .shfRingBase, .shfRingCtl,
    .shfRingHead, .slcCore, .slcCtl, .slcSrKey, .slcFrameMin, .clkRstCtl, .tltPkgCap, .tltSliceCap, .tltDomCap]

/-- Any other register takes a plain write. -/
theorem State.writeHere_plain {s : State} {r : Csr} (who : Who) (v : Word) (h : effectRegs.contains r.reg = false) :
    s.writeHere who r v = s.writePlain r v := by
  have hsub : [.tltPkgCap, .tltSliceCap, .tltDomCap] ⊆ effectRegs := by decide
  have hcap : capReg r = false :=
    Bool.eq_false_iff.mpr fun hc => Bool.eq_false_iff.mp h (List.contains_iff_mem.mpr (hsub (List.contains_iff_mem.mp hc)))
  unfold State.writeHere
  split
  case h_30 => rw [hcap]; rfl
  all_goals
    rename_i hreg
    exact absurd (h.symm.trans (congrArg effectRegs.contains hreg)) (by decide)

/-- A command that writes such a register, there and within reach, writes it plainly. -/
theorem registerWrite_plain {s : State} {who : Who} {r : Csr} (v : Word) (hreach : s.reaches who r true = true)
    (hin : r.inRange = true) (hon : s.csrOff r = false) (h : effectRegs.contains r.reg = false) :
    registerWrite who r v s = s.writePlain r v := by
  have hrst : r.reg ≠ .clkRstCtl := fun e => by rw [e] at h; exact absurd h (by decide)
  simp only [registerWrite, hrst, decide_false, Bool.false_and, Bool.false_eq_true, if_false]
  simp only [State.csrWrite, hreach, hin, hon, Bool.not_true, Bool.or_self, Bool.false_eq_true, if_false]
  exact State.writeHere_plain who v h

/-- Settles O23: a value that is permitted is written field by field, each bit by the access type of its field. -/
theorem plainRegisterWrites : Obligations.PlainRegisterWrites := by
  intro who r v s hreach hin hon hplain
  have hwrite := registerWrite_plain v hreach hin hon hplain
  dsimp only
  split
  · rename_i hpermits
    exact answer_of_eq (hwrite.trans (State.writePlain_ignored s hpermits))
  · rename_i hpermits
    refine ⟨r.reg.spec.afterWrite (!s.lockedReg r) (s.rd r) v, s.lockedReg r && r.reg.spec.hasAcc .rwl,
      answer_of_eq (hwrite.trans (State.writePlain_permitted s (Bool.eq_true_of_not_eq_false hpermits))), ?_, ?_⟩
    · rw [Bool.and_eq_true_iff, RegSpec.hasAcc_iff]
    · intro i hi
      rw [afterWrite_getLsbD r.reg _ _ _ hi]
      cases s.lockedReg r <;> rfl

end Sys2Proof.Machine

/-! Reads of registers, and what a core's loads and stores reach (R8, R10, R393, R398, R490, R491). -/

namespace Sys2Proof.Machine

/-! ### Reads of a register -/

section
variable {s : State} {who : Who} {r : Csr}

/-- A sender that does not reach the register gets nothing. -/
theorem coreRead_unreached (h : s.reaches who r false = false) : s.coreRead who r = s := by
  simp [State.coreRead, State.csrRead, h]

/-- A read where no register with power stands gets 0, is counted and recorded (R491, R494). -/
theorem coreRead_stray (h : s.reaches who r false = true) (hstray : r.inRange = false ∨ s.csrOff r = true) :
    s.coreRead who r = { s.strayAccess r.offset false with csrData := [0] } := by
  have hnone : (!r.inRange || s.csrOff r) = true := by rcases hstray with h | h <;> simp [h]
  simp [State.coreRead, State.csrRead, h, hnone]

/-- A read of a register there is gets what a read of it returns. -/
theorem coreRead_here (h : s.reaches who r false = true) (hin : r.inRange = true) (hon : s.csrOff r = false) :
    s.coreRead who r = { (s.readHere r).2 with csrData := [(s.readHere r).1] } := by
  simp only [State.coreRead, State.csrRead, h, hin, hon, Bool.not_true, Bool.or_self, Bool.false_eq_true, if_false]

/-- A register that no rule gives a read of its own returns its readable bits, and its RC fields are cleared. -/
theorem readHere_plain (s : State) (hmsg : r.reg ≠ .fldReeveMsg) (hhigh : r.reg ≠ .fldReeveMsgHi) (hmeas : r.reg ≠ .secMeas) :
    s.readHere r = (s.shown r &&& r.reg.spec.readMask,
      if r.reg.spec.hasAcc .rc then s.wr r (r.reg.spec.afterRead (s.rd r)) else s) := by
  unfold State.readHere
  split
  · exact absurd ‹_› hmsg
  · exact absurd ‹_› hhigh
  · exact absurd ‹_› hmeas
  · rfl

end

/-! ### A core's access -/

section
variable {s : State} {x : CoreAccess}

/-- A core in HOLD makes no access. -/
theorem reservedOffsetAccess_held (h : s.coreRuns x.core = false) : reservedOffsetAccess x s = s := by
  simp [reservedOffsetAccess, h]

/-- A running core's access goes where Table 15-5 places its address. -/
theorem reservedOffsetAccess_runs (h : s.coreRuns x.core = true) : reservedOffsetAccess x s =
    match regionOf x.addr x.size with
    | .granary => s.coreGranary x
    | .csr off => s.coreCsr x off
    | .plic off => s.corePlic x off
    | .reserved => s.coreFault x.core.val x.data.isSome x.addr := by
  simp only [reservedOffsetAccess, h, Bool.not_true, Bool.false_eq_true, if_false] <;> rfl

/-- An access to the control space that is not of an aligned word faults (R490). -/
theorem coreCsr_misshapen {off : Nat} (h : off % 8 ≠ 0 ∨ x.size ≠ 8) :
    s.coreCsr x off = s.coreFault x.core.val x.data.isSome x.addr :=
  if_pos (by rcases h with h | h <;> simp [h])

/-- An aligned word of a register is read or written, where the core reaches it (R393). -/
theorem coreCsr_word {off : Nat} {r : Csr} (halign : off % 8 = 0) (hsize : x.size = 8) (hreg : Csr.ofOffset off = some r) :
    s.coreCsr x off = if !s.reaches (s.coreWho x.core) r x.data.isSome then s.coreFault x.core.val x.data.isSome x.addr
      else match x.data with
        | none => s.coreRead (s.coreWho x.core) r
        | some v => registerWrite (s.coreWho x.core) r v s := by
  have hshape : (off % 8 != 0 || x.size != 8) = false := by simp [halign, hsize]
  simp only [State.coreCsr, hshape, hreg, Bool.false_eq_true, if_false] <;> rfl

/-- An access to the interrupt controller that is not a supervisor core's aligned half word faults. -/
theorem corePlic_misshapen {off : Nat} (h : (s.coreSlice x.core).isSome = true ∨ off % 4 ≠ 0 ∨ x.size ≠ 4) :
    s.corePlic x off = s.coreFault x.core.val x.data.isSome x.addr :=
  if_pos (by rcases h with h | h | h <;> simp [h])

/-- A store to the interrupt controller. -/
theorem corePlic_store {off : Nat} {v : Word} (hfree : s.coreSlice x.core = none) (halign : off % 4 = 0) (hsize : x.size = 4)
    (hdata : x.data = some v) : s.corePlic x off = { s with plic := s.plic.write off v.toNat } := by
  simp [State.corePlic, hfree, halign, hsize, hdata]

/-- A load of it; the load of a claim register claims. -/
theorem corePlic_load {off : Nat} (hfree : s.coreSlice x.core = none) (halign : off % 4 = 0) (hsize : x.size = 4)
    (hdata : x.data = none) :
    let t := s.coreGets (BitVec.ofNat 64 (s.plic.read off))
    s.corePlic x off = match plicAt off with
      | .claim c =>
        let u : State := { t with plic := s.plic.claim c }
        if eventSource (s.plic.best c) then u.releaseIrq (s.plic.best c) else u
      | _ => t := by
  have hshape : ((s.coreSlice x.core).isSome || off % 4 != 0 || x.size != 4) = false := by simp [hfree, halign, hsize]
  simp only [State.corePlic, hshape, hdata, Bool.false_eq_true, if_false] <;> rfl

/-- R393: every frame a bound core's access touches is one of its slice's. -/
theorem coreMay_iff (s : State) (slice : Option Nat) (a n : Nat) : s.coreMay slice a n = true ↔
    ∀ sl, slice = some sl → ∀ k ∈ (List.range ((a + n - 1) / 65536 - a / 65536 + 1)).map (· + a / 65536), s.frameOf sl k = true := by
  cases slice with
  | none => simp [State.coreMay]
  | some sl => simp [State.coreMay]

/-- An access to a frame the core may not reach faults. -/
theorem coreGranary_forbidden (h : s.coreMay (s.coreSlice x.core) x.addr x.size = false) :
    s.coreGranary x = s.coreFault x.core.val x.data.isSome x.addr := by
  simp [State.coreGranary, h]

/-- Any other goes through the caches. -/
theorem coreGranary_allowed (h : s.coreMay (s.coreSlice x.core) x.addr x.size = true) :
    let lines := (List.range ((x.addr + x.size - 1) / 64 - x.addr / 64 + 1)).map (· + x.addr / 64)
    let t := lines.foldl (fun (t : State) l => t.cacheFill x.core.val (s.coreSlice x.core) l x.data.isSome) s
    s.coreGranary x = match x.data with
      | none => t.coreGets (BitVec.ofNat 64 (fromBytes ((List.range x.size).map (fun i => t.coreByte (x.addr + i)))))
      | some v => t.coreStore x.addr (toBytes x.size v.toNat) := by
  simp only [State.coreGranary, h, Bool.not_true, Bool.false_eq_true, if_false] <;> rfl

end

/-! ### Registers whose read has an effect -/

theorem inRange_reeveMsg (f : FieldId) : Csr.inRange ⟨.fldReeveMsg, f.val, 0, 0⟩ = true := by
  simp [Csr.inRange, RegName.spec, fldReeveMsgSpec, RegBlock.count]

theorem inRange_reeveMsgHi (f : FieldId) : Csr.inRange ⟨.fldReeveMsgHi, f.val, 0, 0⟩ = true := by
  simp [Csr.inRange, RegName.spec, fldReeveMsgHiSpec, RegBlock.count]

theorem inRange_secMeas (i : Fin 8) (w : Fin 6) : Csr.inRange ⟨.secMeas, 0, i.val, w.val⟩ = true := by
  simp [Csr.inRange, RegName.spec, secMeasSpec, RegBlock.count]

/-- Settles O24: reads by what stands at the register, accesses by the window that holds the address. -/
theorem registerReads : Obligations.RegisterReads := by
  refine ⟨fun who r s h => answer_of_eq (coreRead_unreached h), fun who r s h hstray => answer_of_eq (coreRead_stray h hstray),
    fun who r s h hin hon hmsg hhigh hmeas => answer_of_eq ?_, fun c off v s hrun hfree hres halign hoff => ?_, fun x s => ?_,
    fun who f s hwho => ⟨answer_of_eq ?_, answer_of_eq ?_⟩, fun who i w s hwho => answer_of_eq ?_⟩
  · have hread := coreRead_here h hin hon
    rw [readHere_plain s hmsg hhigh hmeas] at hread
    exact hread
  · have hword (data : Option Word) := exec_csrWindow (off := off) (n := 8) data hrun (by omega)
    simp only [State.coreCsr_reserved_of_unbound _ _ hfree hres halign] at hword
    exact ⟨hword none, hword (some v)⟩
  · refine ⟨fun hheld => answer_of_eq (reservedOffsetAccess_held hheld), fun hrun => ?_⟩
    have hgoes := reservedOffsetAccess_runs hrun
    refine ⟨fun hregion => answer_of_eq ?_, fun off hregion => ?_, fun off hregion => ?_, fun hregion => ?_⟩ <;> rw [hregion] at hgoes
    · exact hgoes
    · refine ⟨fun hshape => answer_of_eq (hgoes.trans (coreCsr_misshapen hshape)), fun halign hsize r hreg => ?_⟩
      have hword := hgoes.trans (coreCsr_word halign hsize hreg)
      refine ⟨fun hreach => answer_of_eq (hword.trans (if_pos (by rw [hreach]; rfl))), fun hreach => ?_⟩
      rw [hreach, if_neg (by simp)] at hword
      exact ⟨fun hdata => answer_of_eq (by rw [hdata] at hword; exact hword),
        fun v hdata => answer_of_eq (by rw [hdata] at hword; exact hword)⟩
    · refine ⟨fun hshape => answer_of_eq (hgoes.trans (corePlic_misshapen hshape)), fun hfree halign hsize =>
        ⟨fun v hdata => answer_of_eq (hgoes.trans (corePlic_store hfree halign hsize hdata)), fun hdata => ?_⟩⟩
      have hload := hgoes.trans (corePlic_load hfree halign hsize hdata)
      refine ⟨fun hplain => answer_of_eq (hload.trans ?_), fun k hclaim => answer_of_eq (hload.trans ?_)⟩
      · split
        · exact absurd ‹_› (hplain _)
        · rfl
      · rw [hclaim]; rfl
    · refine ⟨fun hnot => answer_of_eq (hgoes.trans (coreGranary_forbidden ?_)), fun hmay => ?_⟩
      · exact Bool.eq_false_iff.mpr fun h => hnot ((coreMay_iff ..).mp h)
      · have hcached := hgoes.trans (coreGranary_allowed ((coreMay_iff ..).mpr hmay))
        obtain ⟨core, addr, size, data⟩ := x
        refine ⟨fun hdata => ?_, fun v hdata => ?_⟩
        · obtain rfl : data = none := hdata
          exact answer_of_eq hcached
        · obtain rfl : data = some v := hdata
          exact answer_of_eq hcached
  · exact coreRead_here (reaches_of_mayCommand false hwho) (inRange_reeveMsg f) rfl
  · exact coreRead_here (reaches_of_mayCommand false hwho) (inRange_reeveMsgHi f) rfl
  · exact coreRead_here (reaches_of_mayCommand false hwho) (inRange_secMeas i w) rfl

end Sys2Proof.Machine

/-! Writes of configuration registers that have an effect of their own (R29, R43, R44, R232, R287, R332, R333, R497). -/

namespace Sys2Proof.Machine

/-! ### Which write reaches its register -/

/-- A register whose indices lie below their counts is there (R496). -/
theorem Csr.inRange_of_lt {r : Csr} (hn : r.n < r.reg.spec.blk.count) (hj : r.j < r.reg.spec.cj) (hl : r.l < r.reg.spec.cl) :
    r.inRange = true := by
  simp [Csr.inRange, hn, hj, hl]

/-- A register of a unit whose domain is on has power (R494). -/
theorem csrOff_of_unit_on {s : State} {r : Csr} {u : UnitId} (h : csrUnit r = (some u).filter (fun u => regSwitched u r))
    (hon : s.domainOn (unitDomain u) = true) : s.csrOff r = false := by
  unfold State.csrOff
  rw [h, Option.filter_some]
  split
  · rfl
  · rename_i w hw
    obtain ⟨-, rfl⟩ : regSwitched u r = true ∧ u = w := by simpa using hw
    rw [hon]
    rfl

theorem csrOff_furrow_on {s : State} {f : FurrowId} (hon : s.domainOn f.val = true) {r : Csr} (hblk : r.reg.spec.blk = .furrow)
    (hn : r.n = f.val) : s.csrOff r = false := by
  refine csrOff_of_unit_on (u := .furrow f) ?_ hon
  have hf : Fin.ofNat 64 r.n = f := by ext; simp [hn]
  simp only [csrUnit, hblk, hf]

theorem csrOff_port_on {s : State} {p : PortId} (hon : s.domainOn (72 + p.val) = true) {r : Csr} (hblk : r.reg.spec.blk = .port)
    (hn : r.n = p.val) : s.csrOff r = false := by
  refine csrOff_of_unit_on (u := .port p) ?_ hon
  have hp : Fin.ofNat 24 r.n = p := by ext; simp [hn]
  simp only [csrUnit, hblk, hp]

/-- A write that does not reach its register changes nothing (R393). -/
theorem csrWrite_unreached {s : State} {who : Who} {r : Csr} (v : Word) (h : s.reaches who r true = false) : s.csrWrite who r v = s := by
  simp [State.csrWrite, h]

/-- A bound core writes no register but those of its queues (R393). -/
theorem csrWrite_bound (s : State) (sl : SliceId) {r : Csr} (v : Word) (h : queueReg r = false) :
    s.csrWrite (.bound sl) r v = s :=
  csrWrite_unreached v (by simp [State.reaches, h])

/-- A write of a register there is, by a sender that may give commands, is made there. -/
theorem csrWrite_command {s : State} {who : Who} {r : Csr} (v : Word) (hwho : mayCommand who = true) (hn : r.n < r.reg.spec.blk.count)
    (hj : r.j < r.reg.spec.cj) (hl : r.l < r.reg.spec.cl) (hon : s.csrOff r = false := by rfl) :
    s.csrWrite who r v = s.writeHere who r v :=
  csrWrite_here v (reaches_of_mayCommand true hwho) (Csr.inRange_of_lt hn hj hl) hon

/-! ### SHF_PART_s (R44) -/

/-- The partition that a value gives, enabled, shares an index with another slice's. -/
def State.partClash (s : State) (sl : Nat) (v : Word) : Bool :=
  v.getLsbD 32 && ((List.range 64).filter (fun i => i != sl)).any fun i =>
    (s.partition i).any (fun q => rangesMeet (fld v 14 0) (fld v 31 16) q.1 q.2)

/-- The value that a write of SHF_PART_s gives. -/
def partValue (v : Word) : Word := BitVec.ofNat 64 (fld v 14 0 + fld v 31 16 * 2 ^ 16 + bitVal (v.getLsbD 32) 32)

/-- The write would change the enabled partition while an entry of it is not FREE. -/
def State.partBusy (s : State) (sl : Nat) (v : Word) : Bool :=
  (s.partition sl).any fun q =>
    partValue v != s.rd ⟨.shfPart, 0, sl, 0⟩ && s.sheaf.any (fun p => q.1 ≤ p.1 && p.1 < q.1 + q.2 && p.2.state != .free)

theorem State.partClash_iff (s : State) (sl : Nat) (v : Word) : s.partClash sl v = true ↔
    v.getLsbD 32 = true ∧ ∃ i < 64, i ≠ sl ∧ ∃ b m, s.partition i = some (b, m) ∧ 0 < fld v 31 16 ∧ 0 < m ∧
      fld v 14 0 < b + m ∧ b < fld v 14 0 + fld v 31 16 := by
  simp [State.partClash, rangesMeet, Option.any_eq_true, and_assoc]

theorem State.partBusy_iff (s : State) (sl : Nat) (v : Word) : s.partBusy sl v = true ↔
    ∃ b m, s.partition sl = some (b, m) ∧ partValue v ≠ s.rd ⟨.shfPart, 0, sl, 0⟩ ∧
      ∃ p ∈ s.sheaf, b ≤ p.1 ∧ p.1 < b + m ∧ p.2.state ≠ .free := by
  simp [State.partBusy, Option.any_eq_true, and_assoc]

/-- A write of SHF_PART_s is refused for an overlap, a range past the table, or an entry that is not FREE. -/
theorem State.writePartition_eq (s : State) (sl : Nat) (v : Word) : s.writePartition sl v =
    if s.partClash sl v || 32768 < fld v 31 16 || 32768 < fld v 14 0 + fld v 31 16 || s.partBusy sl v
    then (s.bump ⟨.shfIllegalCnt, 0, 0, 0⟩).configRefused ⟨.shfPart, 0, sl, 0⟩ v
    else s.wr ⟨.shfPart, 0, sl, 0⟩ (partValue v) := by
  have hany (x : Option (Nat × Nat)) (test : Nat → Nat → Bool) :
      x.any (fun q => test q.1 q.2) = (match x with | none => false | some (b, m) => test b m) := by
    cases x <;> rfl
  rw [State.partBusy, hany _ (fun b m => partValue v != s.rd ⟨.shfPart, 0, sl, 0⟩ &&
    s.sheaf.any (fun p => b ≤ p.1 && p.1 < b + m && p.2.state != .free))]
  simp only [State.partClash, hany _ (rangesMeet (fld v 14 0) (fld v 31 16))] <;> rfl

/-! ### FAB_TIMEOUT and FAB_HO_LEASE (R29) -/

/-- A permitted value is written where the lease stays at least four time-outs long, else refused. -/
theorem State.writeLeasePair_permitted (s : State) {r : Csr} {v : Word} {timeout lease : Nat} (hpermits : r.reg.spec.permits v = true)
    (htimeout : (if r.reg = .fabTimeout then fld v 6 0 else s.rdf ⟨.fabTimeout, 0, 0, 0⟩ 6 0) = timeout)
    (hlease : (if r.reg = .fabHoLease then fld v 15 0 else s.rdf ⟨.fabHoLease, 0, 0, 0⟩ 15 0) = lease) :
    s.writeLeasePair r v = if decide (4 * timeout ≤ lease) then s.writePlain r v else s.configRefused r v := by
  simp only [State.writeLeasePair, hpermits, htimeout, hlease, Bool.not_true, Bool.false_eq_true, if_false, decide_eq_true_eq]
  by_cases h : 4 * timeout ≤ lease
  · rw [if_pos h, if_neg (Nat.not_lt.mpr h)]
  · rw [if_neg h, if_pos (Nat.lt_of_not_le h)]

/-! ### The obligation -/

/-- Settles O25: a bound core reaches none of the registers; another sender's write has the effect of its register. -/
theorem configurationWrites : Obligations.ConfigurationWrites := by
  refine ⟨fun sl k e p base v s c hc => ?_, fun who sl v s hwho => ⟨?_, ?_, ?_, fun e => ?_, ?_, ?_, fun p hp => ⟨?_, ?_⟩⟩⟩
  · simp only [List.mem_cons, List.not_mem_nil, or_false] at hc
    rcases hc with rfl | rfl | rfl | rfl | rfl | rfl | rfl | rfl | rfl | rfl
    case inr.inr.inl => cases base <;> exact answer_of_eq (csrWrite_bound s sl v rfl)
    all_goals exact answer_of_eq (csrWrite_bound s sl v rfl)
  · refine answer_of_eq ((csrWrite_command v hwho Nat.one_pos Nat.one_pos Nat.one_pos).trans ?_)
    rfl
  · have hwrite := (csrWrite_command (r := ⟨.shfPart, 0, sl.val, 0⟩) v hwho Nat.one_pos sl.isLt Nat.one_pos).trans
      (s.writePartition_eq sl.val v)
    refine ⟨fun hrefused => answer_of_eq (hwrite.trans (if_pos ?_)), fun hmeets hfits hbusy => answer_of_eq (hwrite.trans (if_neg ?_))⟩
    · simp only [Bool.or_eq_true, decide_eq_true_eq]
      rcases hrefused with h | h | h
      · exact .inl (.inl (.inl ((s.partClash_iff ..).mpr h)))
      · exact .inl (.inr h)
      · exact .inr ((s.partBusy_iff ..).mpr h)
    · simp only [Bool.or_eq_true, decide_eq_true_eq]
      rintro (((h | h) | h) | h)
      · exact hmeets ((s.partClash_iff ..).mp h)
      · omega
      · omega
      · exact hbusy ((s.partBusy_iff ..).mp h)
  · exact ⟨answer_of_eq (csrWrite_command (r := ⟨.shfRingBase, 0, sl.val, 0⟩) v hwho Nat.one_pos sl.isLt Nat.one_pos),
      answer_of_eq (csrWrite_command (r := ⟨.shfRingCtl, 0, sl.val, 0⟩) v hwho Nat.one_pos sl.isLt Nat.one_pos),
      answer_of_eq (csrWrite_command (r := ⟨.shfRingHead, 0, sl.val, 0⟩) v hwho Nat.one_pos sl.isLt Nat.one_pos)⟩
  · have hindex : 1024 * sl.val + e.val < 65536 := by omega
    have hslice : (1024 * sl.val + e.val) / 1024 = sl.val := by omega
    have hentry : (1024 * sl.val + e.val) % 1024 = e.val := by omega
    refine answer_of_eq ((csrWrite_command (r := sttReg sl.val e.val 0) v hwho Nat.one_pos hindex (show 0 < 4 by decide)).trans ?_)
    change s.commitStt ((1024 * sl.val + e.val) / 1024) ((1024 * sl.val + e.val) % 1024) v = _
    rw [hslice, hentry]
  · exact ⟨fun hpermits => answer_of_eq ((csrWrite_command v hwho Nat.one_pos Nat.one_pos Nat.one_pos).trans
        (s.writeLeasePair_permitted hpermits rfl rfl)),
      fun hpermits => answer_of_eq ((csrWrite_command v hwho Nat.one_pos Nat.one_pos Nat.one_pos).trans
        (s.writeLeasePair_permitted hpermits rfl rfl))⟩
  · exact answer_of_eq (csrWrite_command (r := ⟨.slcFrameMin, sl.val, 0, 0⟩) v hwho sl.isLt Nat.one_pos Nat.one_pos)
  · exact answer_of_eq (csrWrite_command (r := ⟨.shpCfg, p.val, sl.val, 0⟩) v hwho p.isLt sl.isLt Nat.one_pos
      (csrOff_port_on hp rfl rfl))
  · exact answer_of_eq (csrWrite_command (r := ⟨.prtPol, p.val, sl.val, 0⟩) v hwho p.isLt sl.isLt Nat.one_pos
      (csrOff_port_on hp rfl rfl))

end Sys2Proof.Machine

/-! Writes of Furrow, core and Almanac registers that have an effect of their own (R94, R158, R243, R391, R412, R464, R478). -/

namespace Sys2Proof.Machine

theorem fld_zero (w : Word) (hi : Nat) : fld w hi 0 = w.toNat % 2 ^ (hi + 1) := by
  simp [fld, bits]

/-! ### Command queues (R94, R107) -/

section
variable {s : State} {f : FurrowId} {q : QueueId} {who : Who} {v : Word}

/-- A sender that reaches FRW_CQ_CTL_q reaches the queue's other registers. -/
theorem reaches_queueReg {reg : RegName} (hreg : reg ∈ [RegName.frwCqBase, .frwCqCtl, .frwCqHead, .frwCqTail])
    (h : s.reaches who (cq .frwCqCtl f.val q.val) true = true) : s.reaches who (cq reg f.val q.val) true = true := by
  have hqueue : queueReg (cq reg f.val q.val) = true := List.contains_iff_mem.mpr hreg
  have hctl : queueReg (cq .frwCqCtl f.val q.val) = true := rfl
  cases who with
  | bound sl =>
    simp only [State.reaches, hctl, hqueue, Bool.not_true, Bool.false_and, Bool.or_false, Bool.true_and] at h ⊢
    exact h
  | _ => rfl

/-- A write of a register of a queue whose Furrow's domain is on is made there. -/
theorem csrWrite_queueReg {reg : RegName} (hon : s.domainOn f.val = true) (hreg : reg ∈ [RegName.frwCqBase, .frwCqCtl, .frwCqHead, .frwCqTail])
    (h : s.reaches who (cq .frwCqCtl f.val q.val) true = true) :
    s.csrWrite who (cq reg f.val q.val) v = s.writeHere who (cq reg f.val q.val) v := by
  refine csrWrite_here v (reaches_queueReg hreg h) ?_ ?_
  · have hcq : reg.spec.blk = .furrow ∧ reg.spec.cj = 4 ∧ reg.spec.cl = 1 := by
      simp only [List.mem_cons, List.not_mem_nil, or_false] at hreg
      rcases hreg with rfl | rfl | rfl | rfl <;> decide
    obtain ⟨hblk, hj, hl⟩ := hcq
    refine Csr.inRange_of_lt ?_ ?_ ?_
    · change f.val < reg.spec.blk.count
      rw [hblk]
      exact f.isLt
    · change q.val < reg.spec.cj
      rw [hj]
      exact q.isLt
    · change 0 < reg.spec.cl
      rw [hl]
      exact Nat.one_pos
  · refine csrOff_furrow_on hon ?_ rfl
    simp only [List.mem_cons, List.not_mem_nil, or_false] at hreg
    rcases hreg with rfl | rfl | rfl | rfl <;> rfl

/-- A permitted write of FRW_CQ_CTL_q that leaves LOG2SIZE as it is: ABORT also ends the running program. -/
theorem writeQueueCtl_same_size (hsize : fld v 3 0 = s.rdf (cq .frwCqCtl f.val q.val) 3 0)
    (hpermits : RegName.frwCqCtl.spec.permits v = true) : s.writeQueueCtl f.val q.val v =
      if v.getLsbD 6 then (s.writePlain (cq .frwCqCtl f.val q.val) v).abortQueue f.val q.val
      else s.writePlain (cq .frwCqCtl f.val q.val) v := by
  have hresized : (fld v 3 0 != s.rdf (cq .frwCqCtl f.val q.val) 3 0) = false := by simp [hsize]
  have hok : (cq .frwCqCtl f.val q.val).reg.spec.permits v = true := hpermits
  simp only [State.writeQueueCtl, hresized, hok, Bool.and_false, Bool.not_true, Bool.false_eq_true, if_false]

/-- FRW_CQ_CTL permits a value whose LOG2SIZE lies in 4 to 12. -/
theorem permits_frwCqCtl (hlo : 4 ≤ fld v 3 0) (hhi : fld v 3 0 ≤ 12) : RegName.frwCqCtl.spec.permits v = true := by
  simp [RegSpec.permits, RegName.spec, frwCqCtlSpec, Permit.ok, hlo, hhi]

/-- The word that a command writes to set bit i of FRW_CQ_CTL_q: LOG2SIZE and EN as they stand, and the bit. -/
def queueBitValue (w : Word) (i : Nat) : Word := BitVec.ofNat 64 (fld w 4 0 + 2 ^ i)

/-- Bit 5 or 6 lies above LOG2SIZE. -/
theorem fld_queueBitValue (w : Word) {i : Nat} (hi : i = 5 ∨ i = 6) : fld (queueBitValue w i) 3 0 = fld w 3 0 := by
  simp only [queueBitValue, fld_zero, BitVec.toNat_ofNat]
  rcases hi with rfl | rfl <;> omega

/-- Bit 6 of the word that sets bit 5, or bit 6. -/
theorem getLsbD_queueBitValue (w : Word) {i : Nat} (hi : i = 5 ∨ i = 6) : (queueBitValue w i).getLsbD 6 = decide (i = 6) := by
  have hlow : w.toNat % 32 < 32 := Nat.mod_lt _ (by decide)
  simp only [queueBitValue, fld_zero, BitVec.getLsbD_ofNat]
  rcases hi with rfl | rfl
  · rw [Nat.testBit_lt_two_pow (by omega)]
    rfl
  · rw [show w.toNat % 2 ^ (4 + 1) + 2 ^ 6 = 2 ^ 6 + w.toNat % 32 by omega, Nat.testBit_two_pow_add_eq, Nat.testBit_lt_two_pow (by omega)]
    rfl

/-- A command that sets a bit of FRW_CQ_CTL_q writes it plainly; ABORT also ends the running program. -/
theorem queueBit_sets {i : Nat} (hon : s.domainOn f.val = true) (hreach : s.reaches who (cq .frwCqCtl f.val q.val) true = true)
    (hlo : 4 ≤ s.rdf (cq .frwCqCtl f.val q.val) 3 0) (hhi : s.rdf (cq .frwCqCtl f.val q.val) 3 0 ≤ 12) (hi : i = 5 ∨ i = 6) :
    let t := s.writePlain (cq .frwCqCtl f.val q.val) (queueBitValue (s.rd (cq .frwCqCtl f.val q.val)) i)
    s.queueBit who f.val q.val i = if i = 6 then t.abortQueue f.val q.val else t := by
  have hfld := fld_queueBitValue (s.rd (cq .frwCqCtl f.val q.val)) hi
  have hctl := writeQueueCtl_same_size (s := s) (f := f) (q := q) hfld (permits_frwCqCtl (by rwa [hfld]) (by rwa [hfld]))
  rw [getLsbD_queueBitValue _ hi] at hctl
  refine (csrWrite_queueReg hon (by simp) hreach).trans (hctl.trans ?_)
  by_cases h : i = 6 <;> simp [h]

end

/-! ### Bindings (R391) -/

/-- A Furrow that runs a program, or one of whose queues is enabled, keeps its binding. -/
theorem frwSliceWrite_busy_iff (s : State) (n : Nat) :
    ((s.furrow n).prog.isSome || (List.range 4).any (fun q => s.rdb (cq .frwCqCtl n q) 4)) = true ↔
      (s.furrow n).prog.isSome = true ∨ ∃ q < 4, s.rdb (cq .frwCqCtl n q) 4 = true := by
  simp [Bool.or_eq_true, List.any_eq_true]

/-- What a sender that may give commands does with FRW_SLICE_n. -/
theorem frwSliceWrite_command {s : State} {who : Who} {f : FurrowId} (v : Word) (hwho : mayCommand who = true) :
    frwSliceWrite who f v s =
      if (s.furrow f.val).prog.isSome || (List.range 4).any (fun q => s.rdb (cq .frwCqCtl f.val q) 4) then s.bindRefused
      else ((List.range 4).foldl (fun s j => s.statClear f.val j)
        (s.modFurrow f.val (fun r => { r with hull := {}, glean := [] }))).wrf ⟨.frwSlice, f.val, 0, 0⟩ 6 0 (fld v 6 0) := by
  simp [frwSliceWrite, hwho]

/-- What such a sender does with SLC_CORE_c. -/
theorem slcCoreWrite_command {s : State} {who : Who} {c : CoreId} (v : Word) (hwho : mayCommand who = true) :
    let r : Csr := ⟨.slcCore, 0, c.val, 0⟩
    slcCoreWrite who c v s = if fld v 6 0 != s.rdf r 6 0 && !s.rdb r 7 then s.bindRefused
      else ((if fld v 6 0 = s.rdf r 6 0 then s else s.flushL2 c.val).wrf r 7 0 (fld v 7 0)).modUnit (.core c) (fun x =>
        { x with fenced := v.getLsbD 7 }) := by
  simp only [slcCoreWrite, hwho, Bool.not_true, Bool.false_eq_true, if_false]

/-! ### The obligation -/

/-- Settles O26: queues, statistics and regions of a Furrow that is on; bindings and the other registers; a bound core's writes. -/
theorem unitWrites : Obligations.UnitWrites := by
  refine ⟨fun who f q v s hon => ?_, fun who f v s hwho hon => ⟨fun j => ?_, fun j hpermits => ?_⟩,
    fun who f c v s hwho => ⟨⟨fun hbusy => ?_, fun hidle => ?_⟩, ?_, ?_, ?_, ?_, ?_⟩, fun sl f c v s i hi => ?_⟩
  · intro ctl bit hreach
    refine ⟨answer_of_eq (csrWrite_queueReg (reg := .frwCqTail) hon (by simp) hreach), fun hlo hhi => ⟨?_, ?_⟩⟩
    · exact answer_of_eq (queueBit_sets hon hreach hlo hhi (.inl rfl))
    · exact answer_of_eq (queueBit_sets hon hreach hlo hhi (.inr rfl))
  · have hclr : (v ||| (0x100 : Word)).getLsbD 8 = true := by simp
    refine answer_of_eq ((csrWrite_command (r := ⟨.frwQstCtl, f.val, j.val, 0⟩) _ hwho f.isLt j.isLt Nat.one_pos
      (csrOff_furrow_on hon rfl rfl)).trans ?_)
    exact if_pos hclr
  · refine answer_of_eq ((csrWrite_command (r := ⟨.frwGlnReg, f.val, j.val, 0⟩) _ hwho f.isLt j.isLt Nat.one_pos
      (csrOff_furrow_on hon rfl rfl)).trans ?_)
    exact if_pos hpermits
  · exact answer_of_eq ((frwSliceWrite_command v hwho).trans (if_pos ((frwSliceWrite_busy_iff s f.val).mpr hbusy)))
  · exact answer_of_eq ((frwSliceWrite_command v hwho).trans (if_neg (mt (frwSliceWrite_busy_iff s f.val).mp hidle)))
  · exact answer_of_eq (slcCoreWrite_command v hwho)
  · exact answer_of_eq (if_pos hwho)
  · exact answer_of_eq (if_pos hwho)
  · exact answer_of_eq (if_pos hwho)
  · exact answer_of_eq (if_pos hwho)
  · simp only [List.mem_cons, List.not_mem_nil, or_false] at hi
    rcases hi with rfl | rfl | rfl | rfl | rfl | rfl <;> rfl

end Sys2Proof.Machine

/-! Programs, bundles and exceptions of the Sower (R88 to R100, R107, R108, R368). -/

namespace Sys2Proof.Machine

section
variable {s : State} {f : FurrowId}

/-! ### Programs start, prefetch and complete -/

/-- The slice that a Furrow is bound to, where there is one, is not enabled (Table 15-2). -/
def State.sliceHolds (s : State) (n : Nat) : Bool :=
  match s.bound n with
  | none => false
  | some sl => !s.sliceEnabled sl

theorem sliceHolds_eq_true {n b : Nat} (hb : s.bound n = some b) (hoff : s.sliceEnabled b = false) : s.sliceHolds n = true := by
  simp [State.sliceHolds, hb, hoff]

theorem sliceHolds_eq_false {n : Nat} (hon : ∀ b, s.bound n = some b → s.sliceEnabled b = true) : s.sliceHolds n = false := by
  cases hb : s.bound n with
  | none => simp [State.sliceHolds, hb]
  | some b => simp [State.sliceHolds, hb, hon b hb]

/-- Granary address of the descriptor at the head of a queue. -/
def State.headAddr (s : State) (n q : Nat) : Nat := s.descAddr n q (s.rdf (cq .frwCqHead n q) 11 0)

/-- The descriptor at the head of a queue: the prefetched copy, if there is one of it (R92). -/
def State.headDescriptor (s : State) (n q : Nat) : List Byte :=
  match Table.find (s.furrow n).prefetch q with
  | some (j, bs) => if j = s.rdf (cq .frwCqHead n q) 11 0 then bs else s.mem.readBytes (s.headAddr n q) 64
  | none => s.mem.readBytes (s.headAddr n q) 64

/-- The state once the Sower has used its copy of a queue's head. -/
def State.unprefetch (s : State) (n q : Nat) : State :=
  s.modFurrow n (fun r => { r with prefetch := Table.erase r.prefetch q })

/-- The slice that a descriptor names (Table 4-1). -/
def descriptorSlice (d : List Byte) : Nat := bits (leAt d 0 8) 17 12

/-- A Furrow whose program is the one that a descriptor starts (R91). -/
def Furrow.start (r : Furrow) (d : List Byte) (q i addr : Nat) : Furrow :=
  { r with g := startRegs d, h := [], p := [], v := [], a := [],
           prog := some { queue := q, index := i, addr, slice := descriptorSlice d, irq := (leAt d 0 8).testBit 18,
                          tag := bits (leAt d 0 8) 63 32, pc := bits (leAt d 0 8) 11 0 } }

/-- What an idle Sower that serves does with the head of its lowest-numbered ready queue. -/
theorem commandTake_ready {q : Nat} (hserves : s.furrowServes f = true) (hidle : (s.furrow f.val).prog = none)
    (hready : firstBelow 4 (s.queueReady f.val) = some q) : commandTake f s =
      if s.sliceHolds f.val then s
      else if s.bound f.val != some (descriptorSlice (s.headDescriptor f.val q)) then
        (s.unprefetch f.val q).completeCommand f.val q (s.headAddr f.val q) ((leAt (s.headDescriptor f.val q) 0 8).testBit 18) (some 0x06) 0
      else (s.unprefetch f.val q).modFurrow f.val
        (fun r => r.start (s.headDescriptor f.val q) q (s.rdf (cq .frwCqHead f.val q) 11 0) (s.headAddr f.val q)) := by
  simp only [commandTake, hserves, hidle, hready, Option.isSome_none, Bool.not_true, Bool.or_self, Bool.false_eq_true, if_false] <;> rfl

/-- Settles O27: the three outcomes of the head of a ready queue; prefetching; the completion of a program. -/
theorem programsStartAndEnd : Obligations.ProgramsStartAndEnd := by
  refine ⟨fun f s q hserves hidle hready => ?_, fun f s p hprog => ?_, fun f s p hprog hphase hops => ?_⟩
  · have htake := commandTake_ready hserves hidle hready
    refine ⟨fun b hb hoff => ?_, fun hother hon => ?_, fun hsame hon => ?_⟩
    · exact answer_of_eq (htake.trans (if_pos (sliceHolds_eq_true hb hoff)))
    · have hne : s.bound f.val ≠ some (descriptorSlice (s.headDescriptor f.val q)) := hother
      rw [if_neg (ne_true_of_eq_false (sliceHolds_eq_false hon)), if_pos (bne_iff_ne.mpr hne)] at htake
      exact answer_of_eq htake
    · have heq : s.bound f.val = some (descriptorSlice (s.headDescriptor f.val q)) := hsame
      have hheld : s.sliceHolds f.val = false := sliceHolds_eq_false (fun b hb => by
        rwa [Option.some.inj (hb.symm.trans hsame)])
      rw [if_neg (ne_true_of_eq_false hheld), if_neg (fun hne => bne_iff_ne.mp hne heq)] at htake
      exact answer_of_eq htake
  · refine answer_of_eq ?_
    simp only [descriptorPrefetch, hprog]
  · refine answer_of_eq ?_
    simp only [programComplete, hprog, hphase, hops]
    rfl

/-! ### Bundles (R95 to R100, R368) -/

/-- BUNDLE_FETCH of a running program that holds no bundle. -/
theorem bundleFetch_effect {p : Program} (hrun : s.running f.val = some p) (hnone : p.fetched = none) : bundleFetch f s =
    if (s.furrow f.val).imageLen ≤ p.pc then s.raise f.val 0x04 0 (BitVec.ofNat 64 p.pc)
    else match bundleCheck (Table.get 0 (s.furrow f.val).imem p.pc) with
      | some (code, k, info) => s.raise f.val code k info
      | none => s.modProg f.val (fun r => { r with fetched := some (Table.get 0 (s.furrow f.val).imem p.pc) }) := by
  simp only [bundleFetch, hrun, hnone, Option.isSome_none, Bool.false_eq_true, if_false] <;> rfl

/-- The effects of a bundle none of whose taken slots waits or fails, then the decrements of the others. -/
def State.bundleEffects (s : State) (n : Nat) (all : List Issue) : State :=
  let t := s.modProg n (fun p => { p with pc := p.pc + 1, issued := p.issued + 1, fetched := none, stallSince := none })
  let u := (issueOrder (all.filter Issue.taken)).foldl (fun (t : State) i => i.op.run i.c t) t
  (all.filter (fun i => !i.taken)).foldl (fun (t : State) i => t.arrive n i.c.ctr Done.ok) u

/-- BUNDLE_ISSUE of a running program's fetched bundle. -/
theorem bundleIssue_effect {p : Program} {b : BitVec 512} (hrun : s.running f.val = some p) (hsome : p.fetched = some b) :
    let all := issues f.val (s.furrow f.val) p.slice b
    bundleIssue f s = if (all.filter Issue.taken).any (fun i => i.held s) then s.stall f.val
      else match issueFault (all.filter Issue.taken) s with
        | some (code, k, info) => s.slotRaise f.val k (code, info)
        | none => s.bundleEffects f.val all := by
  simp only [bundleIssue, hrun, hsome] <;> rfl

/-! ### Exceptions (R107, R108) -/

/-- The watchdog raises its exception exactly once a stall has outlasted FRW_WDOG. -/
theorem watchdogExpiry_effect {p : Program} {a : Nat} (hrun : s.running f.val = some p) (hstall : p.stallSince = some a) :
    let lim := s.rdf ⟨.frwWdog, f.val, 0, 0⟩ 31 0
    watchdogExpiry f s = if lim != 0 && lim * 1024 < s.aclkCycles (f.val / 16) (s.time - a) then s.raise f.val 0x0A 0 0 else s := by
  simp only [watchdogExpiry, hrun, hstall]

/-- Settles O28: fetch and issue by their outcomes, the watchdog, and the two stages of an exception. -/
theorem bundlesAndExceptions : Obligations.BundlesAndExceptions := by
  refine ⟨fun f s p hrun hnone => ?_, fun f s p b hrun hsome => ?_, fun f s p a hrun hstall => ?_, fun f s p e hprog hphase => ?_⟩
  · have hfetch := bundleFetch_effect hrun hnone
    refine ⟨fun hout => ?_, fun code k info hin hbad => ?_, fun hin hlegal => ?_⟩
    · exact answer_of_eq (hfetch.trans (if_pos hout))
    · rw [if_neg (not_le.mpr hin), hbad] at hfetch
      exact answer_of_eq hfetch
    · rw [if_neg (not_le.mpr hin), hlegal] at hfetch
      exact answer_of_eq hfetch
  · intro all on
    have hissue : bundleIssue f s = _ := bundleIssue_effect hrun hsome
    refine ⟨fun hheld => ?_, fun code k info hfree hfault => ?_, fun hfree hfine => ?_⟩
    · exact answer_of_eq (hissue.trans (if_pos hheld))
    · rw [if_neg (ne_true_of_eq_false hfree), hfault] at hissue
      exact answer_of_eq hissue
    · rw [if_neg (ne_true_of_eq_false hfree), hfine] at hissue
      exact answer_of_eq hissue
  · have hexpiry := watchdogExpiry_effect hrun hstall
    refine ⟨fun hset hlate => ?_, fun hfine => ?_⟩
    · exact answer_of_eq (hexpiry.trans (if_pos (by simp [hset, hlate])))
    · refine answer_of_eq (hexpiry.trans (if_neg ?_))
      rcases hfine with hzero | hearly
      · simp [hzero]
      · simp [not_lt.mpr hearly]
  · refine ⟨fun hrows => answer_of_eq ?_, fun hrows hops => answer_of_eq ?_⟩
    · have hheld : (!(s.furrow f.val).rows.isEmpty) = true := by simpa using hrows
      simp only [exceptionComplete, hprog, hphase, hheld, if_true]
    · have hheld : (!(s.furrow f.val).rows.isEmpty) = false := by simp [hrows]
      have hout : (s.furrow f.val).ops.isEmpty = true := by simp [hops]
      simp only [exceptionComplete, hprog, hphase, hheld, hout, Bool.false_eq_true, if_false, if_true]
      rfl

end

end Sys2Proof.Machine

/-! Walks (R70 to R80), the evictor (R234 to R236) and adoptions (R359). -/

namespace Sys2Proof.Machine

section
variable {s : State} {id : Nat}

/-! ### Latching leaves the walk in the store, latched -/

@[simp] theorem setFrame_walks (s : State) (n : Nat) (d : FrameDesc) : (s.setFrame n d).walks = s.walks := by
  simp only [State.setFrame]
  split <;> split <;> rfl

@[simp] theorem walkCount_walks (s : State) (n : Nat) (up : Bool) : (s.walkCount n up).walks = s.walks := setFrame_walks ..

@[simp] theorem touch_walks (s : State) (n : Nat) : (s.touch n).walks = s.walks := by
  simp only [State.touch]
  split
  · rfl
  · exact setFrame_walks ..

@[simp] theorem cbCount_walks (s : State) (id gen : Nat) (queued up : Bool) : (s.cbCount id gen queued up).walks = s.walks := by
  simp only [State.cbCount]
  split <;> rfl

@[simp] theorem holdBooks_walks (s : State) (keys : List Nat) (up : Bool) : (s.holdBooks keys up).walks = s.walks :=
  foldl_keeps State.walks _ (fun _ _ => cbCount_walks ..) keys s

/-- A change of one walk of the store is found under that walk's id. -/
theorem walk?_modWalk {v w : Walk} (hv : s.walk? id = some v) (hid : w.id = v.id) : (s.modWalk v.id (fun _ => w)).walk? id = some w := by
  have hvid : v.id = id := by simpa using List.find?_some hv
  have hkeep : ∀ x : Walk, (if x.id = v.id then w else x).id = x.id := fun x => by
    split
    · next h => rw [hid, h]
    · rfl
  have hfind : s.walks.find? (fun x => decide (x.id = id)) = some v := hv
  have hp : (fun x : Walk => decide (x.id = id)) ∘ (fun x => if x.id = v.id then w else x) = fun x : Walk => decide (x.id = id) :=
    funext fun x => by simp only [Function.comp_apply, hkeep]
  change (s.walks.map (fun x => if x.id = v.id then w else x)).find? (fun x => decide (x.id = id)) = some w
  rw [List.find?_map, hp, hfind, Option.map_some, if_pos rfl]

/-- A walk that latches stays in the store, of its kind and for its request. -/
theorem latch_walk {v : Walk} (hv : s.walk? id = some v) :
    ∃ w, (s.latch v).walk? id = some w ∧ w.latched = true ∧ w.kind = v.kind ∧ w.req = v.req := by
  have hstored : ∀ (t : State) (keys held : List Nat), State.walk? (held.foldl
      (fun s n => if s.demotes v then s.walkCount n true else (s.walkCount n true).touch n) (t.holdBooks keys true)) id = t.walk? id := by
    intro t keys held
    have hwalks := foldl_keeps (view := State.walks) (pass := fun (s : State) n =>
      if s.demotes v then s.walkCount n true else (s.walkCount n true).touch n) (fun u n => by split <;> simp) held (t.holdBooks keys true)
    simp only [State.walk?, hwalks, holdBooks_walks]
  simp only [State.latch, hstored]
  split <;> exact ⟨_, walk?_modWalk hv rfl, rfl, rfl, rfl⟩

/-! ### Walks latch and release -/

theorem tryLatch_waits {v : Walk} (hv : s.walk? id = some v)
    (hwait : v.latched = true ∨ 8 ≤ s.walkSlots v.furrow ∨ s.walkBlocked v = true ∨ s.walkAhead v = true) : s.tryLatch id = s := by
  have hcond : (v.latched || 8 ≤ s.walkSlots v.furrow || s.walkBlocked v || s.walkAhead v) = true := by
    simpa [or_assoc] using hwait
  simp only [State.tryLatch, hv, hcond, if_true]

theorem tryLatch_latches {v : Walk} (hv : s.walk? id = some v) (hfresh : v.latched = false) (hslots : s.walkSlots v.furrow < 8)
    (hfree : s.walkBlocked v = false) (hfirst : s.walkAhead v = false) : s.tryLatch id = s.latch v := by
  have hcond : (v.latched || 8 ≤ s.walkSlots v.furrow || s.walkBlocked v || s.walkAhead v) = false := by
    simp [hfresh, hfree, hfirst, hslots]
  simp only [State.tryLatch, hv, hcond, Bool.false_eq_true, if_false]

/-- What a walk does once it has latched: a pull or a push goes on with the pages it need not read. -/
def State.afterLatch (t : State) (w : Walk) : State :=
  match w.kind, w.req with
  | .pull, some m => t.pullLatched w m
  | .push, _ => t.pushLatched w
  | _, _ => t

/-- WALK_LATCH of a walk that still waits. -/
theorem walkLatch_waits {v : Walk} (hv : s.walk? id = some v) (hsame : s.tryLatch id = s) : walkLatch id s = s := by
  simp only [walkLatch, hsame, hv, Bool.or_not_self, if_true]

/-- WALK_LATCH of a walk that may latch. -/
theorem walkLatch_latches {v w : Walk} (hv : s.walk? id = some v) (hfresh : v.latched = false) (htry : s.tryLatch id = s.latch v)
    (hw : (s.latch v).walk? id = some w) (hlatched : w.latched = true) : walkLatch id s = (s.latch v).afterLatch w := by
  simp only [walkLatch, htry, hv, hw, hfresh, hlatched, Bool.not_true, Bool.or_self, Bool.false_eq_true, if_false] <;> rfl

/-- What a walk reads of a frame before it lets the frame go. -/
def State.readThenRelease (s : State) (w : Walk) (frame : Nat) : State :=
  match w.kind, w.req with
  | .pull, some m => s.pullRelease w m frame
  | .push, _ => s.pushRelease w frame
  | _, _ => (s.walkReadFrame w frame).releaseFrame w.id frame

/-- WALK_FRAME_RELEASE of a walk. -/
theorem walkFrameRelease_walk {w : Walk} (frame : Nat) (hw : s.walk? id = some w) : walkFrameRelease id frame s =
    if !w.latched || !w.held.contains frame || frame = handleFrame w.root then s else s.readThenRelease w frame := by
  have hid : w.id = id := by simpa using List.find?_some hw
  subst hid
  simp only [walkFrameRelease, hw] <;> rfl

/-- Settles O30: no walk, a walk that waits, a walk that latches; then the release of a frame of a latched walk. -/
theorem walksAdvance : Obligations.WalksAdvance := by
  refine ⟨fun id s hnone => ⟨?_, fun frame => ?_⟩, fun id s v hv => ⟨fun hwait => ?_, fun hfresh hslots hfree hfirst => ?_⟩,
    fun id frame s w hw => ⟨fun hkeep => ?_, fun hlatched hheld hroot => ?_⟩⟩
  · refine answer_of_eq ?_
    simp only [walkLatch, State.tryLatch, hnone]
  · refine answer_of_eq ?_
    simp only [walkFrameRelease, hnone]
  · exact answer_of_eq (walkLatch_waits hv (tryLatch_waits hv hwait))
  · obtain ⟨w, hw, hlatched, hkind, hreq⟩ := latch_walk hv
    have hlatch := walkLatch_latches hv hfresh (tryLatch_latches hv hfresh hslots hfree hfirst) hw hlatched
    refine ⟨fun hk => answer_of_eq (hlatch.trans ?_), fun m hk hm => ⟨w, hw, hlatched, answer_of_eq (hlatch.trans ?_)⟩,
      fun hk => ⟨w, hw, hlatched, answer_of_eq (hlatch.trans ?_)⟩⟩
    · rcases hk with hk | hk <;> simp [State.afterLatch, hkind, hk]
    · simp only [State.afterLatch, hkind, hk, hreq, hm]
    · simp only [State.afterLatch, hkind, hk]
  · refine answer_of_eq ((walkFrameRelease_walk frame hw).trans (if_pos ?_))
    rcases hkeep with h | h | h <;> simp [h]
  · have hid : w.id = id := by simpa using List.find?_some hw
    have hrelease := (walkFrameRelease_walk frame hw).trans (if_neg (by simp [hlatched, hheld, hroot]))
    refine ⟨fun m hk hm => answer_of_eq (hrelease.trans ?_), fun hk => answer_of_eq (hrelease.trans ?_),
      fun hk => answer_of_eq (hrelease.trans ?_)⟩
    · simp only [State.readThenRelease, hk, hm]
    · simp only [State.readThenRelease, hk]
    · rcases hk with hk | hk <;> simp [State.readThenRelease, hk, hid]

/-! ### Eviction (R234 to R236) -/

/-- EVICTION_PASS: the pass ends, does not begin, or acts on the candidates in order of age. -/
theorem evictionPass_eq (s : State) :
    let low := s.rdf ⟨.slcPoolWm, 0, 0, 0⟩ 22 0
    let high := s.rdf ⟨.slcPoolWm, 0, 0, 0⟩ 54 32
    let t : State := { s with evicting := true }
    let l := ((s.desc.map Prod.fst).filter t.candidate).foldl (fun acc n => t.ageInsert n acc) []
    evictionPass s = if !s.rdb ⟨.slcPoolEvict, 0, 0, 0⟩ 8 then { s with evicting := false }
      else if high ≤ s.headroom then { s with evicting := false }
      else if !s.evicting && low ≤ s.headroom then s
      else l.foldl (fun (u : State) n => if u.comingHeadroom < high && u.candidate n then u.evict n else u) t := rfl

/-- The condition under which a demotion commits (R236). -/
theorem demotionCommit_condition (s : State) (d : FrameDesc) (x : SheafEntry) (h : Word) :
    (d.pool = 2 && d.walks = 0 && s.minAge ≤ d.age && !x.inStep && demotable x.state && !handleFlag h 4) = true ↔
      d.pool = 2 ∧ d.walks = 0 ∧ s.minAge ≤ d.age ∧ x.inStep = false ∧ demotable x.state = true ∧ handleFlag h 4 = false := by
  simp [and_assoc]

/-- An adoption whose lookups have all been answered, enough of them with a copy. -/
theorem adoptLookupComplete_decided {a : Adoption} (ha : Table.find s.adoptions id = some a) (hdone : a.waiting = [])
    (henough : adoptNeed a.template.mirrorPolicy ≤ a.got.length) (hrefused : s.admitStatus a.slice a.template ≠ 0) :
    adoptLookupComplete id s = s.adoptStatus id a (s.admitStatus a.slice a.template) := by
  simp only [adoptLookupComplete, ha, hdone, List.isEmpty_nil, Bool.not_true, Bool.false_eq_true, if_false, not_lt.mpr henough]
  split
  · next hzero _ => exact absurd hzero hrefused
  · rfl

/-- Settles O31: the passes of the evictor, the commit of a demotion and the end of an adoption, case by case. -/
theorem evictionAndAdoption : Obligations.EvictionAndAdoption := by
  refine ⟨fun s => ?_, fun n a root s copy h pushed x hfound hback => ?_, fun n s copy pushed hfound hback => ?_, fun id s a ha => ?_⟩
  · have hpass := evictionPass_eq s
    refine ⟨fun hend => answer_of_eq (hpass.trans ?_), fun hon hlow hidle hroom => answer_of_eq (hpass.trans ?_),
      fun hon hlow hgo => answer_of_eq (hpass.trans ?_)⟩
    · rcases hend with hoff | hhigh
      · exact if_pos (by simp [hoff])
      · exact (congrArg (ite _ _) (if_pos hhigh)).trans (ite_self _)
    · rw [if_neg (by simp [hon]), if_neg (not_le.mpr hlow), if_pos (by simp [hidle, hroom])]
    · rw [if_neg (by simp [hon]), if_neg (not_le.mpr hlow), if_neg ?_]
      rcases hgo with hgo | hgo
      · simp [hgo]
      · simp [not_le.mpr hgo]
  · refine ⟨fun hok => answer_of_eq ?_, fun hno => answer_of_eq ?_⟩
    · simp only [demotionCommit, hfound, hback]
      exact if_pos ((demotionCommit_condition s (s.frame n) x h).mpr hok)
    · simp only [demotionCommit, hfound, hback]
      exact if_neg (mt (demotionCommit_condition s (s.frame n) x h).mp hno)
  · refine answer_of_eq ?_
    simp only [demotionCommit, hfound, hback]
  · refine ⟨fun hwait => answer_of_eq ?_, fun hdone hfew => answer_of_eq ?_, fun hdone henough =>
      ⟨fun hrefused => answer_of_eq (adoptLookupComplete_decided ha hdone henough hrefused), fun i hadmit hi => answer_of_eq ?_⟩⟩
    · have hsome : (!a.waiting.isEmpty) = true := by simpa using hwait
      simp only [adoptLookupComplete, ha, hsome, if_true]
    · simp only [adoptLookupComplete, ha, hdone, List.isEmpty_nil, Bool.not_true, Bool.false_eq_true, if_false, hfew, if_true]
    · simp only [adoptLookupComplete, ha, hdone, List.isEmpty_nil, Bool.not_true, Bool.false_eq_true, if_false, not_lt.mpr henough, hadmit, hi]

end

end Sys2Proof.Machine

/-! Arriving write-class requests: how one is taken (R287 to R293, R302) and what it does in its turn (R189, R259, R261, R279 to R281,
R284, R352, R353). -/

namespace Sys2Proof.Machine

section
variable {s u : State} {m : Req}

/-! ### A request's place in its stream -/

/-- Whether a port has an engine does not depend on counters. -/
theorem bump_hasEngine (s : State) {r : Csr} (hr : r.reg ≠ .fabEng) (p : Nat) : (s.bump r).hasEngine p = s.hasEngine p := by
  have hne : r ≠ ⟨.fabEng, 0, p, 0⟩ := fun h => hr (congrArg Csr.reg h)
  have hrd : (s.bump r).rd ⟨.fabEng, 0, p, 0⟩ = s.rd ⟨.fabEng, 0, p, 0⟩ := by
    rw [bump_eq]
    split
    · exact rd_wrf_ne s _ _ _ hne
    · exact rd_wrf_ne { s with freeCount := s.freeCount + 1 } _ _ _ hne
  simp only [State.hasEngine, State.rdb, hrd]

/-- A violation that is only counted leaves a request's stream as it is. -/
theorem reqStream_violation (u : State) (m : Req) (port : Option PortId) (c : Nat) :
    (u.violation port c false false).reqStream m = u.reqStream m := by
  cases port with
  | none => rfl
  | some p =>
    have hengine := bump_hasEngine u (r := ⟨.prtPvCnt, p.val, c, 0⟩) (by simp)
    simp only [State.violation, State.reqStream, Bool.false_eq_true, if_false, hengine]

/-- A request that carries RESYNC is next in its stream once the stream has restarted at its SEQ. -/
theorem seqAhead_restart (m : Req) (x : RxStream) : seqAhead m (x.restart m.seq) = 0 := by
  simp [seqAhead, RxStream.restart]

/-- The state in which a request that carries RESYNC takes its turn (R292). -/
def State.resynced (u : State) (m : Req) : State :=
  let v := if (u.rxStream (u.reqStream m)).lost then u else u.violation m.port 12 false false
  v.setRx (u.reqStream m) ((v.rxStream (u.reqStream m)).restart m.seq)

theorem reqStream_resynced (u : State) (m : Req) : (u.resynced m).reqStream m = u.reqStream m := by
  simp only [State.resynced, reqStream_setRx]
  split
  · rfl
  · exact reqStream_violation ..

theorem rxStream_resynced (u : State) (m : Req) : seqAhead m ((u.resynced m).rxStream (u.reqStream m)) = 0 := by
  simp only [State.resynced, rxStream_setRx, seqAhead_restart]

/-- A request that carries RESYNC restarts its stream and takes its turn. -/
theorem order_resync {t : Target} (hresync : m.resync = true) :
    u.order serveWrite m (some t) = (u.resynced m).takesTurn m (serveWrite m t) := by
  simp only [State.takesTurn, reqStream_resynced]
  simp only [State.order, hresync, if_true]
  exact if_pos (rxStream_resynced u m)

/-- What becomes of a request that comes before its turn: it is dropped, answered RETRY or held. -/
theorem order_early {t : Target} (hplain : m.resync = false) (hearly : seqAhead m (u.rxStream (u.reqStream m)) ≠ 0) :
    let x := u.rxStream (u.reqStream m)
    u.order serveWrite m (some t) =
      if x.held.any (fun h => h.1.seq == m.seq) then u
      else if !u.storeRoom (reqField m) m.payload.length then u.respond m { op := 0, status := 0x5E }
      else u.setRx (u.reqStream m)
        { x with held := x.held ++ [(m, some t)], holeSince := x.holeSince.or (some u.time),
                 holeWait := if x.holeSince.isNone then u.fabTimeout else x.holeWait } := by
  simp only [State.order, hplain, Bool.false_eq_true, if_false, hearly, Option.isSome_some, Bool.true_and]
  cases hhole : (u.rxStream (u.reqStream m)).holeSince <;> simp [State.timeHole]

theorem arriveWrite_discarded (h : s.screen m = (.discarded, u)) : s.arriveWrite m = u := by
  simp only [State.arriveWrite, h]

theorem arriveWrite_refused (h : s.screen m = (.refused, u)) : s.arriveWrite m = u.order serveWrite m none := by
  simp only [State.arriveWrite, h]

theorem arriveWrite_served {t : Target} (h : s.screen m = (.served t, u)) : s.arriveWrite m = u.order serveWrite m (some t) := by
  simp only [State.arriveWrite, h]

/-- Settles O32: a request's screening and its SEQ decide how it is taken. -/
theorem writesInOrder : Obligations.WritesInOrder := by
  intro m s
  refine ⟨fun c hc => ?_, fun hreserved => ?_⟩
  · have hcommand : (∀ v, s.arriveWrite c.2 = v → exec c.1 s = .next v.sense) ∧
        c.2.resync = m.resync ∧ c.2.port = m.port ∧ c.2.seq = m.seq ∧ c.2.payload = m.payload := by
      simp only [List.mem_cons, List.not_mem_nil, or_false] at hc
      rcases hc with rfl | rfl | rfl | rfl | rfl | rfl | rfl | rfl | rfl | rfl | rfl | rfl | rfl | rfl <;>
        exact ⟨fun _ h => answer_of_eq h, rfl, rfl, rfl, rfl⟩
    obtain ⟨hexec, hresync, hport, hseq, hpayload⟩ := hcommand
    rw [← hresync, ← hport, ← hseq, ← hpayload]
    refine ⟨fun u h => hexec _ (arriveWrite_discarded h), fun u h hplain hnext => ?_, fun t u h => hexec _ (arriveWrite_turn h),
      fun t u h hres => hexec _ ((arriveWrite_served h).trans (order_resync hres)), fun t u h hplain => ?_⟩
    · exact hexec _ ((arriveWrite_refused h).trans (order_turn hplain hnext))
    · intro k x hearly
      have horder := (arriveWrite_served h).trans (order_early hplain hearly)
      refine ⟨fun hheld => hexec _ (horder.trans (if_pos hheld)), fun hnew hfull => hexec _ (horder.trans ?_),
        fun hnew hroom => hexec _ (horder.trans ?_)⟩
      · exact (if_neg (ne_true_of_eq_false hnew)).trans (if_pos (by simp [hfull]))
      · exact (if_neg (ne_true_of_eq_false hnew)).trans (if_neg (by simp [hroom]))
  · exact answer_of_eq (if_pos (Bool.or_eq_true_iff.mpr hreserved))

/-! ### What a request does in its turn -/

/-- Settles O33: each of the commands takes its turn with the effect of its operation. -/
theorem storesAndAtomics : Obligations.StoresAndAtomics := by
  intro m s u t
  refine ⟨fun p hp => ?_, fun h => ?_, fun h => ?_, fun h => ?_, fun h => ?_, fun h => ?_, fun h => ?_, fun h => ?_, fun h => ?_, fun h => ?_⟩
  · simp only [List.mem_cons, List.not_mem_nil, or_false] at hp
    rcases hp with rfl | rfl <;> exact fun h => answer_of_eq (arriveWrite_turn h)
  all_goals exact answer_of_eq (arriveWrite_turn h)

/-- The kind of a notify is the low two bits of its first word. -/
theorem bits_notifyKind (m : Req) : bits (leAt m.payload 0 8) 1 0 = notifyKind m := by
  have hbyte := leAt_byte m.payload 0 (n := 8) (k := 0) (by decide)
  simp only [Nat.mul_zero, Nat.pow_zero, Nat.div_one, Nat.add_zero] at hbyte
  simp only [bits, notifyKind, Nat.shiftRight_zero, ← hbyte]
  omega

/-- A notify that is not a slot release lowers a counter, or is dropped and counted. -/
theorem serveNotify_counter (u : State) (hkind : notifyKind m = 0) : u.serveNotify m =
    if u.notifyOk m then (u.arrive (bits (leAt m.payload 0 8) 7 2) (some (bits (leAt m.payload 0 8) 12 8)) Done.ok).ack m []
    else (u.bump ⟨.fabNotifyDropCnt, 0, 0, 0⟩).respond m { op := 0, status := 0x60, arg0 := m.seq } := by
  have hno : bits (leAt m.payload 0 8) 1 0 ≠ 1 := by
    rw [bits_notifyKind, hkind]
    decide
  exact if_neg hno

/-- Settles O34: a notify of either kind, a row update, a page write and an abort, each in its turn. -/
theorem otherWrites : Obligations.OtherWrites := by
  intro m s u t
  refine ⟨?_, fun h => ?_, fun h => ?_, fun h => ?_⟩
  · intro n w h
    refine ⟨fun hkind => answer_of_eq ((if_pos hkind).trans ((arriveWrite_turn h).trans ?_)),
      fun hkind => answer_of_eq ((if_pos hkind).trans ((arriveWrite_turn h).trans ?_))⟩
    · exact congrArg (u.takesTurn n) (funext fun _ => funext fun v => serveNotify_counter v hkind)
    · have hone : bits (leAt n.payload 0 8) 1 0 = 1 := (bits_notifyKind n).trans hkind
      exact congrArg (u.takesTurn n) (funext fun _ => funext fun v => if_pos hone)
  all_goals exact answer_of_eq (arriveWrite_turn h)

end

end Sys2Proof.Machine

/-! Arriving read-class requests (R184, R245, R279 to R285, R294, R336) and the timers of the fabric (R188 to R191, R292 to R298). -/

namespace Sys2Proof.Machine

section
variable {m : Req} {s u : State} {t : Target}

/-! ### Loads and copies -/

/-- The answer to a read of places: their bytes, or all ones where a line is poisoned. -/
def State.answerRead (s v : State) (m : Req) (l : List (Option Nat × Nat × Nat)) : State :=
  v.respond m { op := 0, poison := (s.readPlaces l).2,
                payload := if (s.readPlaces l).2 then fillBytes (s.readPlaces l).1.length 0xFF else (s.readPlaces l).1 }

theorem serveLoad_refused (glean : Bool) (h : s.places (gaSlice m.addr) t m.len false = none) : s.serveLoad m t glean = s.refuse m 0x54 := by
  simp only [State.serveLoad, h]

/-- A load of one place in Granary goes through Glean. -/
theorem serveLoad_granary {a k : Nat} (h : s.places (gaSlice m.addr) t m.len false = some [(none, a, k)]) : s.serveLoad m t true =
    let r := s.loadGranary a k
    (if r.2.ranAhead m then r.2 else r.2.touchRange a k).respond m { op := 0, poison := r.1.2, payload := r.1.1 } := by
  simp only [State.serveLoad, h]

/-- A load of one place in Hull reads it as it is. -/
theorem serveLoad_hull {f a k : Nat} (glean : Bool) (h : s.places (gaSlice m.addr) t m.len false = some [(some f, a, k)]) :
    s.serveLoad m t glean = s.answerRead s m [(some f, a, k)] := by
  cases glean <;> simp only [State.serveLoad, h] <;> rfl

/-- A copy reads every place and touches the frames of those in Granary. -/
theorem serveLoad_copy {l : List (Option Nat × Nat × Nat)} (h : s.places (gaSlice m.addr) t m.len false = some l) : s.serveLoad m t false =
    s.answerRead (l.foldl (fun (v : State) q => if q.1.isNone && !v.ranAhead m then v.touchRange q.2.1 q.2.2 else v) s) m l := by
  simp only [State.serveLoad, h] <;> rfl

/-- The bytes of one place in Hull. -/
theorem readPlaces_hull (s : State) (f a k : Nat) :
    s.readPlaces [(some f, a, k)] = ((s.hull f).readBytes a k, (s.hull f).anyPoison a k) := by
  simp [State.readPlaces]

theorem ldRequest_waits (hs : s.screen { m with op := 0x01 } = (.served t, u)) (hwait : u.ordWaits { m with op := 0x01 } = true) :
    let n : Req := { m with op := 0x01 }
    ldRequest m s = u.setRx (u.reqStream n)
      { u.rxStream (u.reqStream n) with loads := (u.rxStream (u.reqStream n)).loads ++ [(n, t)] } := by
  simp only [ldRequest, hs, hwait, if_true]

theorem ldRequest_served (hs : s.screen { m with op := 0x01 } = (.served t, u)) (hfree : u.ordWaits { m with op := 0x01 } = false) :
    ldRequest m s = u.serveLoad { m with op := 0x01 } t true := by
  simp only [ldRequest, hs, hfree, Bool.false_eq_true, if_false]

theorem copyRd_served (hs : s.screen { m with op := 0x04 } = (.served t, u)) : copyRd m s = u.serveLoad { m with op := 0x04 } t false := by
  simp only [copyRd, hs]

/-! ### Pulls -/

/-- One answer of a code for each page that a pull asks for. -/
def State.pullRefusal (v : State) (n : Req) (code : Nat) : State :=
  (List.range (pullReqOf n.payload).count).foldl
    (fun (v : State) j => v.respond n { op := 0, status := code, arg0 := (pullReqOf n.payload).first + j }) v

/-- A pull that the holder refuses is counted, recorded and answered for every page. -/
theorem pull_refused {c : Nat} (hs : s.screen { m with op := 0x06 } = (.served t, u))
    (hcode : u.holderCode (gaSlice m.addr) m.src (pullReqOf m.payload).epoch true (u.holding (gaSlice m.addr) (pullReqOf m.payload).request) = c + 1) :
    pull m s = State.pullRefusal ((u.bump ⟨.fabRefuseInCnt, 0, 0, 0⟩).fabFault (c + 1) m.addr m.src (gaSlice m.addr) 0x06)
      { m with op := 0x06 } (c + 1) := by
  simp only [pull, hs, hcode] <;> rfl

/-- The walk of a pull at its holder (R336). -/
def State.pullWalk (u : State) (n : Req) (x : Holding) (f : Nat) : Walk :=
  { id := u.fresh.1, kind := .pull, furrow := f, op := u.fresh.1, req := some n, slice := gaSlice n.addr, root := u.holdingRoot x,
    layer := (pullReqOf n.payload).layer, first := (pullReqOf n.payload).first,
    cap := (pullReqOf n.payload).first + (pullReqOf n.payload).count, src := x.source, parity := u.holdingParity x }

/-- A pull that the holder admits: outside its layers it is answered so, else it takes a walk if one is free. -/
theorem pull_admitted {x : Holding} {root f : Nat} (hs : s.screen { m with op := 0x06 } = (.served t, u))
    (hcode : u.holderCode (gaSlice m.addr) m.src (pullReqOf m.payload).epoch true (u.holding (gaSlice m.addr) (pullReqOf m.payload).request) = 0)
    (hx : u.holding (gaSlice m.addr) (pullReqOf m.payload).request = some x) (hroot : u.holdingFrame x = some root)
    (hf : u.servingFurrow (gaSlice m.addr) (u.holdingField x) = some f) :
    let n : Req := { m with op := 0x06 }
    pull m s = if u.rootLayers root ≤ (pullReqOf m.payload).layer then u.pullRefusal n 0x80
      else (u.fresh.2.walkStart (u.pullWalk n x f)).getD (u.fresh.2.respond n { op := 0, status := 0x5E }) := by
  rw [hx] at hcode
  simp only [pull, hs, hx, hcode, hroot, hf] <;> rfl

/-! ### Ships -/

/-- A ship's group is aborted here (R189). -/
def State.shipAborted (u : State) (m : Req) : Bool :=
  (shipReqOf m.payload).group != 0 && u.abortFilter.any (fun p => p.1 == (shipReqOf m.payload).group)

theorem qship_aborted (hs : s.screen { m with op := 0x07 } = (.served t, u)) (habort : u.shipAborted m = true) :
    qship m s = u.bump ⟨.fabMgFilterCnt, 0, 0, 0⟩ := by
  simp only [State.shipAborted] at habort
  simp only [qship, hs, habort, if_true]

theorem qship_refused {c : Nat} (hs : s.screen { m with op := 0x07 } = (.served t, u)) (hlive : u.shipAborted m = false)
    (hcode : u.holderCode (gaSlice m.addr) m.src (shipReqOf m.payload).epoch false (u.holding (gaSlice m.addr) (shipReqOf m.payload).request) = c + 1) :
    qship m s = u.refuse { m with op := 0x07 } (c + 1) := by
  simp only [State.shipAborted] at hlive
  simp only [qship, hs, hlive, Bool.false_eq_true, if_false, hcode]

/-- The walk of a ship at its holder, with the end of its service (R185, R336). -/
def State.shipWalk (u : State) (n : Req) (x : Holding) (f : Nat) : Walk :=
  { id := u.fresh.1, kind := .qship, furrow := f, op := u.fresh.1, req := some n, slice := gaSlice n.addr, root := u.holdingRoot x,
    layer := (shipReqOf n.payload).layer, first := (shipReqOf n.payload).first, cap := (shipReqOf n.payload).last, src := x.source,
    stopAt := if (shipReqOf n.payload).group = 0 then none else some (deadlineAt u.fresh.2.time (shipReqOf n.payload).stop) }

/-- A ship that its holder admits and has an array for takes a walk if one is free. -/
theorem qship_admitted {x : Holding} {g : Geometry} {root f k : Nat} (hs : s.screen { m with op := 0x07 } = (.served t, u))
    (hlive : u.shipAborted m = false)
    (hcode : u.holderCode (gaSlice m.addr) m.src (shipReqOf m.payload).epoch false (u.holding (gaSlice m.addr) (shipReqOf m.payload).request) = 0)
    (hx : u.holding (gaSlice m.addr) (shipReqOf m.payload).request = some x) (hg : u.geometry (u.holdingModel x) = some g)
    (hshape : (shipReqOf m.payload).bad g m.payload.length = false) (hroot : u.holdingFrame x = some root)
    (hf : u.servingFurrow (gaSlice m.addr) (u.holdingField x) = some f) (hk : u.anyArray (f / 16) = some k) :
    let n : Req := { m with op := 0x07 }
    qship m s = match u.fresh.2.walkStart (u.shipWalk n x f) with
      | none => u.fresh.2.respond n { op := 0, status := 0x5E }
      | some v => v.queueJob k ⟨.ship, f, u.fresh.1⟩ := by
  rw [hx] at hcode
  simp only [State.shipAborted] at hlive
  simp only [qship, hs, hlive, Bool.false_eq_true, if_false, hx, hcode, hg, hshape, hroot, hf, hk] <;> rfl

/-- Settles O35: loads, copies, pulls and ships by what their checks and their holder answer. -/
theorem readRequests : Obligations.ReadRequests := by
  refine ⟨fun m s u t => ⟨fun hs hwait => answer_of_eq (ldRequest_waits hs hwait), fun hs hfree => ?_⟩, fun m s u t hs => ?_,
    fun m s u t hs => ⟨fun c hcode => answer_of_eq (pull_refused hs hcode), fun x root f hcode hx hroot hf => ?_⟩, fun m s u t hs => ?_⟩
  · have hload := ldRequest_served hs hfree
    refine ⟨fun hnone => answer_of_eq (hload.trans (serveLoad_refused true hnone)),
      fun a k hone => answer_of_eq (hload.trans (serveLoad_granary hone)), fun f a k hone => ?_⟩
    have hhull := hload.trans (serveLoad_hull true hone)
    rw [State.answerRead, readPlaces_hull] at hhull
    exact answer_of_eq hhull
  · have hcopy := copyRd_served hs
    exact ⟨fun hnone => answer_of_eq (hcopy.trans (serveLoad_refused false hnone)),
      fun l hl => answer_of_eq (hcopy.trans (serveLoad_copy hl))⟩
  · have hpull := pull_admitted hs hcode hx hroot hf
    exact ⟨fun hout => answer_of_eq (hpull.trans (if_pos hout)), fun hin => answer_of_eq (hpull.trans (if_neg (not_le.mpr hin)))⟩
  · refine ⟨fun habort => answer_of_eq (qship_aborted hs habort), fun c hlive hcode => answer_of_eq (qship_refused hs hlive hcode),
      fun x g root f k hlive hcode hx hg hshape hroot hf hk => ?_⟩
    have hship := qship_admitted hs hlive hcode hx hg hshape hroot hf hk
    refine ⟨fun hfull => answer_of_eq (hship.trans ?_), fun v hv => answer_of_eq (hship.trans ?_)⟩
    · have hnone : u.fresh.2.walkStart (u.shipWalk { m with op := 0x07 } x f) = none := hfull
      simp only [hnone]
    · have hsome : u.fresh.2.walkStart (u.shipWalk { m with op := 0x07 } x f) = some v := hv
      simp only [hsome]

end

/-! ### The ends of ships and the timers of the fabric -/

section
variable {s : State} {id : Nat}

/-- The state at the end of a ship's service, before its answer. -/
def State.shipServed (s : State) (w : Walk) (m : Req) (k : Nat) : State :=
  ((s.shipDo w m).2.2.s.jobEnd k w.slice (s.shipDo w m).2.2.cycles).walkEnd w.id

/-- An array ends a ship's service: nothing is answered once the service's deadline has passed (R184, R189). -/
theorem qshipServiceComplete_ship {f : FurrowId} {k : Nat} {w : Walk} {m : Req} (hw : s.walk? id = some w)
    (hk : s.arrayOf ⟨.ship, f.val, id⟩ = some k) (hreq : w.req = some m) (hkind : w.kind = .qship) :
    qshipServiceComplete f id s = if w.stopAt.any (fun d => decide (d ≤ s.time)) then s.shipServed w m k
      else (s.shipServed w m k).answerShip m (s.shipDo w m).1 (s.shipDo w m).2.1 (s.shipDo w m).2.2 := by
  have hid : w.id = id := by simpa using List.find?_some hw
  subst hid
  have hne : (w.kind != WalkKind.qship) = false := by simp [hkind]
  simp only [qshipServiceComplete, hw, hk, hreq, hne, Bool.false_eq_true, if_false]
  cases w.stopAt <;> rfl

/-- The deadline of a service that has one. -/
theorem serviceDeadlineExpiry_ship {d : Nat} {w : Walk} (hw : s.walk? id = some w) (hstop : w.stopAt = some d) (hkind : w.kind = .qship) :
    serviceDeadlineExpiry id s = if d ≤ s.time then s.shipStop w else s := by
  simp [serviceDeadlineExpiry, hw, hstop, hkind]

theorem abortResend_due {o : FabOp} {t : Nat} (ho : s.fabOp? id = some o) (hdue : o.resendAt = some t) (hop : o.req.op = 0x0B) :
    abortResend id s = if t ≤ s.time && !o.again then (s.modFab id (fun p => { p with resendAt := none })).dispatch o else s := by
  simp only [abortResend, ho, hdue, hop]

theorem fabRetryResend_due {o : FabOp} {t : Nat} (ho : s.fabOp? id = some o) (hdue : o.resendAt = some t) (hagain : o.again = true)
    (htime : t ≤ s.time) : fabRetryResend id s = ((s.bump ⟨.fabRetryCnt, 0, 0, 0⟩).modFab id
      (fun p => { p with resendAt := none, again := false, retries := p.retries + 1 })).dispatch o := by
  have hgo : (decide (s.time < t) || !o.again) = false := by simp [hagain, htime]
  simp only [fabRetryResend, ho, hdue, hgo, Bool.false_eq_true, if_false]

theorem fabOpTimeout_early {o : FabOp} {d : Nat} (ho : s.fabOp? id = some o) (hd : o.deadline = some d) (hearly : s.time ≤ d) :
    fabOpTimeout id s = s := by
  have hlate : decide (d < s.time) = false := decide_eq_false (not_lt.mpr hearly)
  simp only [fabOpTimeout, ho, hd, hlate, Bool.not_false, Bool.true_or, if_true]

/-- An operation of a slot that is in no group and has no answer in time ends as timed out. -/
theorem fabOpTimeout_late {o : FabOp} {d f j : Nat} (ho : s.fabOp? id = some o) (hd : o.deadline = some d) (hgroup : o.group = none)
    (hlate : d < s.time) (hanswer : s.answers.any (fun r => r.tag = o.tag && o.inTime r.stamp) = false) (howner : o.owner = .op f j) :
    fabOpTimeout id s = (((s.bump ⟨.fabTimeoutCnt, 0, 0, 0⟩).holeSent o).lateFault o).deliver o (lateReply o) .late := by
  have hdue : decide (d < s.time) = true := decide_eq_true hlate
  simp only [fabOpTimeout, ho, hd, hgroup, hdue, hanswer, howner, Bool.not_true, Option.isSome_none, Bool.or_self, Bool.false_eq_true, if_false]

/-- A hole of a stream with a source elsewhere times out in that stream alone. -/
theorem seqHoleTimeout_remote {src : NodeId} (slice : SliceId) (cls : Fin 8) (hremote : src.val ≠ s.node) :
    seqHoleTimeout src slice cls s = s.holeTimeout (src.val, slice.val, cls.val) := by
  simp only [seqHoleTimeout, hremote, if_false, List.foldl]

theorem holeTimeout_closed {k : Nat × Nat × Nat} (hk : (s.rxStream k).holeSince = none) : s.holeTimeout k = s := by
  simp only [State.holeTimeout, hk]

/-- A hole that has lasted its time refuses the requests held behind it. -/
theorem holeTimeout_open {k : Nat × Nat × Nat} {t : Nat} (hk : (s.rxStream k).holeSince = some t) :
    let x := s.rxStream k
    s.holeTimeout k = if s.time < t + x.holeWait then s
      else (x.held.foldl (fun (v : State) h => if h.2.isSome then v.refuse h.1 0x5A else v)
        ((s.setRx k { next := x.next, lost := true, loads := x.loads }).bump ⟨.fabSeqLostCnt, 0, 0, 0⟩)).wakeLoads k := by
  simp only [State.holeTimeout, hk]

/-- Settles O36: the end of a ship's service and each timer of the fabric. -/
theorem fabricTimers : Obligations.FabricTimers := by
  refine ⟨fun f id k s w m hw hk hreq hkind => ?_, fun g s hopen => ?_,
    fun id d s w hw hstop hkind => answer_of_eq (serviceDeadlineExpiry_ship hw hstop hkind), fun g s => rfl,
    fun id t s o ho hdue => ⟨fun hop => answer_of_eq (abortResend_due ho hdue hop),
      fun hagain htime => answer_of_eq (fabRetryResend_due ho hdue hagain htime)⟩,
    fun id d s o ho hd hgroup => ⟨fun hearly => answer_of_eq (fabOpTimeout_early ho hd hearly),
      fun f j hlate hanswer howner => answer_of_eq (fabOpTimeout_late ho hd hgroup hlate hanswer howner)⟩, fun src sl c s hremote => ?_⟩
  · have hid : w.id = id := by simpa using List.find?_some hw
    have hend := qshipServiceComplete_ship hw hk hreq hkind
    subst hid
    refine ⟨fun d hstop hlate => answer_of_eq (hend.trans (if_pos (by simpa [hstop] using hlate))),
      fun hstop => answer_of_eq (hend.trans (if_neg (by simp [hstop])))⟩
  · exact answer_of_eq (if_pos hopen)
  · have hhole := seqHoleTimeout_remote (s := s) sl c hremote
    refine ⟨fun hclosed => answer_of_eq (hhole.trans (holeTimeout_closed hclosed)), fun t hopen => ?_⟩
    have htimed := hhole.trans (holeTimeout_open hopen)
    exact ⟨fun hearly => answer_of_eq (htimed.trans (if_pos hearly)), fun hlate => answer_of_eq (htimed.trans (if_neg (not_lt.mpr hlate)))⟩

end

end Sys2Proof.Machine

/-! Responses and the operations they complete (R191, R291, R292, R299, R302); copies and weight streams (R185, R240, R241, R353, R357,
R358). -/

namespace Sys2Proof.Machine

section
variable {s : State} {r : Rsp}

/-! ### Responses -/

/-- A response that names no operation. -/
theorem receive_unnamed (hnone : s.fabOp? r.tag = none) : s.receive r = (s.takeAnswer r).strayAnswer r := by
  have hnone' : (s.takeAnswer r).fabOp? r.tag = none := hnone
  simp only [State.receive, State.answer, hnone', List.foldl_nil]

/-- What a response does to the operation that its tag names. -/
theorem answer_named {o : FabOp} (ho : s.fabOp? r.tag = some o) :
    let t := s.takeAnswer r
    s.answer r = if r.op != o.req.op + 128 || o.unsent then ([], t.strayAnswer r)
      else if r.src != o.dst then ([], t.violation r.port 7 true false)
      else if !o.inTime r.stamp then ([], t.bump (if o.group.isSome then ⟨.fabMgLateCnt, 0, 0, 0⟩ else ⟨.fabLateCnt, 0, 0, 0⟩))
      else if r.status = 0x5E && o.retries < 4 then
        ([], t.modFab o.tag (fun o => { o with resendAt := some (t.time + 1000), again := true }))
      else
        let u := (t.answerFaults o r (replyOf o r)).seqLost o r.status
        ((o, replyOf o r) :: (u.covered o r).map (fun p => (p, ⟨r, { poison := p.req.poison }, false⟩)), u) := by
  have ho' : (s.takeAnswer r).fabOp? r.tag = some o := ho
  simp only [State.answer, ho'] <;> rfl

/-- A response that completes nothing. -/
theorem receive_nothing {u : State} (h : s.answer r = ([], u)) : s.receive r = u := by
  simp only [State.receive, h, List.foldl_nil]

/-- A response that completes an operation, and with it those it covers. -/
theorem receive_completes {u : State} {o : FabOp} {x : Reply} {l : List FabOp} {y : FabOp → Reply}
    (h : s.answer r = ((o, x) :: l.map (fun p => (p, y p)), u)) :
    s.receive r = l.foldl (fun (v : State) q => v.deliver q (y q) (if q.tag = r.tag then .answered else .silent))
      (u.deliver o x (if o.tag = r.tag then .answered else .silent)) := by
  simp only [State.receive, h, List.foldl_cons, List.foldl_map]

theorem writeAck_receive (h : isWriteAck r.op = true) : writeAck r s = s.receive r := if_pos h

theorem engineFenceAnswer_receive {p : PortId} {o : FabOp}
    (h : s.fabOps.find? (fun o => o.fixed = some p.val && o.req.op = 0x0C && leAt o.req.payload 12 1 = 18) = some o) :
    engineFenceAnswer p s = s.receive { op := 0x8C, src := o.dst, tag := o.tag, arg0 := o.req.seq, port := some p, stamp := s.time } := by
  simp only [engineFenceAnswer, h]

/-- Settles O37: each command receives its response; then the response's checks, one by one. -/
theorem responsesArrive : Obligations.ResponsesArrive := by
  intro m p s ks c hc
  have hcommand : exec c.1 s = .next (s.receive c.2).sense := by
    simp only [ks, List.mem_append, List.mem_cons, List.not_mem_nil, or_false] at hc
    rcases hc with (((hc | hc) | hc) | hc) | hc
    · rcases hc with rfl | rfl | rfl | rfl | rfl <;> rfl
    · split at hc
      · next hack =>
        obtain rfl := List.mem_singleton.mp hc
        exact answer_of_eq (writeAck_receive hack)
      · cases hc
    · split at hc
      · next hkind =>
        obtain rfl := List.mem_singleton.mp hc
        exact answer_of_eq (if_pos hkind)
      · cases hc
    · split at hc
      · next hkind =>
        obtain rfl := List.mem_singleton.mp hc
        exact answer_of_eq (if_pos hkind)
      · cases hc
    · split at hc
      · cases hc
      · next o hfind =>
        obtain rfl := List.mem_singleton.mp hc
        exact answer_of_eq (engineFenceAnswer_receive hfind)
  have hexec : ∀ u, s.receive c.2 = u → exec c.1 s = .next u.sense := fun u hu => by rw [hcommand, hu]
  refine ⟨fun hnone => hexec _ (receive_unnamed hnone), fun o ho => ?_⟩
  have hanswer := answer_named ho
  refine ⟨fun hstray => hexec _ (receive_nothing (hanswer.trans (if_pos ?_))), fun hop hsent => ?_⟩
  · rcases hstray with h | h <;> simp [h]
  replace hanswer := hanswer.trans (if_neg (by simp [hop, hsent]))
  refine ⟨fun hsrc => hexec _ (receive_nothing (hanswer.trans (if_pos (bne_iff_ne.mpr hsrc)))), fun hsrc hlate => ?_,
    fun hsrc htime hretry hfew => ?_, fun hsrc htime hdone => ?_⟩
  all_goals replace hanswer := hanswer.trans (if_neg (by simp [hsrc]))
  · exact hexec _ (receive_nothing (hanswer.trans (if_pos (by simp [hlate]))))
  · exact hexec _ (receive_nothing (hanswer.trans ((if_neg (by simp [htime])).trans (if_pos (by simp [hretry, hfew])))))
  · have hends : ¬ (decide (c.2.status = 0x5E) && decide (o.retries < 4)) = true := by
      rcases hdone with h | h <;> simp [h]
    exact hexec _ (receive_completes (hanswer.trans ((if_neg (by simp [htime])).trans (if_neg hends))))

end

/-! ### Answers of ships -/

section
variable {s t : State} {r : Rsp}

theorem qshipAnswer_nothing (h : (s.answer { r with op := 0x87 }).1 = []) : qshipAnswer r s = (s.answer { r with op := 0x87 }).2 := by
  simp only [qshipAnswer, h, List.foldl_nil]

/-- A ship's answer goes to the attention operation that owns the ship. -/
theorem qshipAnswer_owned {o : FabOp} {x : Reply} {f id : Nat} {a : AsyncOp} (h : (s.answer { r with op := 0x87 }).1 = [(o, x)])
    (howner : o.owner = .op f id) (ha : ((s.answer { r with op := 0x87 }).2.closeAnswered o r).op? f id = some a) :
    qshipAnswer r s = ((s.answer { r with op := 0x87 }).2.closeAnswered o r).replyShip f a o x := by
  simp only [qshipAnswer, h, List.foldl_cons, List.foldl_nil, howner, ha]

end

/-! ### Parity deltas (R353) -/

section
variable {s : State} {id : Nat}

/-- What a delta that every member has answered does. -/
theorem parityDeltaResolve_answered {d : Delta} (hd : s.delta? id = some d) (hsent : d.sent = true) (hdone : d.waiting = []) :
    parityDeltaResolve id s = if d.fail = 0 then
        State.nextDelta (match s.holdFind d.slice d.request with
          | none => (if d.made then s.freeFrame d.frame else s).refuse d.req 0x26
          | some i => s.installPage d.req (s.holdAt d.slice i) d.layer d.index d.frame d.made) d
      else if !d.back && !d.applied.isEmpty then
        (s.modDelta id (fun d => { d with back := true })).sendDelta { d with back := true } d.applied
      else
        let t := (s.bump ⟨.fabMirRevertCnt, 0, 0, 0⟩).refuse d.req (if d.lost then 0x75 else d.fail)
        (if d.made then t.freeFrame d.frame else t).nextDelta d := by
  simp only [parityDeltaResolve, hd, hsent, hdone, List.isEmpty_nil, Bool.not_true, Bool.or_self, Bool.false_eq_true, if_false] <;> rfl

/-! ### Rebuilds (R357, R358) -/

/-- The first usable page that a rebuild has been sent gives its tag. -/
def Rebuild.pageTag (r : Rebuild) : Option Word :=
  (r.got.filter (fun p => p.2.usable)).findSome? (fun p => match p.2 with | .page t _ => some t | _ => none)

/-- A rebuild's next page, with what its sources have sent so far and nothing asked. -/
theorem rebuildPage_next {r : Rebuild} {layer index : Nat} {q : List (Nat × Nat)} (hr : Table.find s.rebuilds id = some r)
    (hwait : r.waiting = []) (htodo : r.todo = (layer, index) :: q) (hasked : r.got.any (fun p => p.2 = .asked) = false) :
    rebuildPage id s = if r.d.need ≤ r.usable then
        match r.pageTag with
        | none => s.rebuildNext id
        | some tag => (s.rebuildWrite id r layer index tag
            (r.d.decode ((r.got.filter (fun p => p.2.usable)).map (fun p => (p.1, p.2.bytes))))).rebuildNext id
      else if r.fresh.length < r.d.need - r.usable then (s.rebuildLost id r layer index 0x84).rebuildNext id
      else (r.fresh.take (r.d.need - r.usable)).foldl (fun (t : State) m => t.rebuildAsk id r layer index m) s := by
  simp only [rebuildPage, hr, hwait, htodo, hasked, Bool.false_eq_true, if_false] <;> rfl

/-- The hold record that a rebuild ends with, where there is one. -/
theorem rebuildEnd_held {r : Rebuild} {i : Nat} (hr : Table.find s.rebuilds id = some r) (htodo : r.todo = []) (hwait : r.waiting = [])
    (hi : ({ s with rebuilds := Table.erase s.rebuilds id } : State).holdFind r.slice r.d.request = some i) :
    let d := r.d
    let t : State := { s with rebuilds := Table.erase s.rebuilds id }
    let covered := leastOf (r.covered.map Prod.snd)
    let u := t.setHold r.slice i { t.holdAt r.slice i with covered, rebuilding := false, fenced := false }
    let tell (v : State) (node kind : Nat) : State :=
      (v.errand .notice r.slice (hoAsk (nodeAddr node r.slice) { request := d.request, epoch := d.epoch, kind } [])).getD v
    let v := d.sources.foldl (fun (v : State) m => tell v m.2 17) u
    rebuildEnd id s =
      (if r.lost then tell v d.owner 15 else v).finish r.furrow r.op (if r.lost then { code := r.code, poison := true } else Done.ok) := by
  simp only [rebuildEnd, hr, htodo, hwait, List.isEmpty_nil, Bool.not_true, Bool.or_self, Bool.false_eq_true, if_false, hi]

end

/-! ### Weight streams (R240, R241) -/

section
variable {s : State} {f : FurrowId} {k : Fin 4} {x : WStream}

theorem wstreamLayerStart_waits (hx : s.stream? f.val k.val = some x) (hwait : x.mayStart = false) : wstreamLayerStart f k s = s := by
  simp only [wstreamLayerStart, hx, hwait, Bool.not_false, if_true]

/-- A stream ends with its last layer's last unit acknowledged, or with its first failure. -/
theorem wstreamEnd_eq (hx : s.stream? f.val k.val = some x) : wstreamEnd f k s =
    if x.ended = false ∧ (x.fail.isSome = true ∨ ((windowDesc x.desc).last < x.next ∧ x.unacked = 0)) then
      (s.modStream f.val x.op (fun y => { y with ended := true })).finish f.val x.op
        { x.fail.getD Done.ok with poison := (x.fail.getD Done.ok).poison || x.poison }
    else s := by
  simp only [wstreamEnd, hx, Bool.and_eq_true, Bool.or_eq_true, Bool.not_eq_true', decide_eq_true_eq]

/-- Settles O38: a ship's answer, the outcomes of a delta and of a rebuild's page, a rebuild's end, and weight streams. -/
theorem copiesAndStreams : Obligations.CopiesAndStreams := by
  refine ⟨fun r s => ?_, fun r s o x f id a => ?_, fun id s d hd hsent hdone => ?_, fun id layer index s r q hr hwait htodo hasked => ?_,
    fun id i s r hr htodo hwait => ?_, fun f k s x hx => ⟨fun hwait => answer_of_eq (wstreamLayerStart_waits hx hwait), fun hgo => ?_,
      fun hno => answer_of_eq ((wstreamEnd_eq hx).trans (if_neg hno)), fun hends => answer_of_eq ((wstreamEnd_eq hx).trans (if_pos hends))⟩⟩
  · exact fun hnothing => answer_of_eq (qshipAnswer_nothing hnothing)
  · exact fun hone howner ha => answer_of_eq (qshipAnswer_owned hone howner ha)
  · have hdelta := parityDeltaResolve_answered hd hsent hdone
    refine ⟨fun i hok hi => answer_of_eq (hdelta.trans ((if_pos hok).trans ?_)), fun hok hnone => answer_of_eq (hdelta.trans ((if_pos hok).trans ?_)),
      fun hfail hfirst hsome => answer_of_eq (hdelta.trans ((if_neg hfail).trans (if_pos ?_))),
      fun hfail hend => answer_of_eq (hdelta.trans ((if_neg hfail).trans (if_neg ?_)))⟩
    · simp only [hi]
    · simp only [hnone]
    · simp [hfirst, hsome]
    · rcases hend with h | h <;> simp [h]
  · have hpage := rebuildPage_next hr hwait htodo hasked
    refine ⟨fun tag henough htag => answer_of_eq (hpage.trans ((if_pos henough).trans ?_)),
      fun hshort hfew => answer_of_eq (hpage.trans ((if_neg (not_le.mpr hshort)).trans (if_pos hfew))),
      fun hshort hmore => answer_of_eq (hpage.trans ((if_neg (not_le.mpr hshort)).trans (if_neg (not_lt.mpr hmore))))⟩
    have hfirst : r.pageTag = some tag := htag
    simp only [hfirst]
  · exact fun hi => answer_of_eq (rebuildEnd_held hr htodo hwait hi)
  · refine answer_of_eq ?_
    simp only [wstreamLayerStart, hx, hgo, Bool.not_true, Bool.false_eq_true, if_false]

end

end Sys2Proof.Machine

/-! The messages of handovers and mirrors (R335 to R357) and the clocks of handovers (R339, R344 to R350, R355, R486). -/

namespace Sys2Proof.Machine

/-! ### A message's kind (Table 13-3) -/

/-- The kind of a handover message is byte 12 of its payload. -/
theorem hoMsgOf_kind (bs : List Byte) : (hoMsgOf bs).kind = leAt bs 12 1 := by
  have hbyte := leAt_byte bs 8 (n := 8) (k := 4) (by decide)
  simp only [hoMsgOf, bits, Nat.shiftRight_eq_div_pow]
  exact hbyte

section
variable {m : Req} {h : HoMsg} {v : State} {j i : Nat}

/-- A command of a kind takes its turn exactly when its message is of that kind. -/
theorem arriveHandover_turn {s u : State} {t : Target} {k : Nat} (hkind : leAt m.payload 12 1 = k)
    (hturn : s.inTurn { m with op := 0x0C } t u) :
    s.arriveHandover m k = u.takesTurn { m with op := 0x0C } (fun _ v => v.serveHandover { m with op := 0x0C }) :=
  (if_pos hkind).trans (arriveWrite_turn hturn)

/-! ### Messages at the journal (R344 to R350) -/

/-- No record of a side means none of a narrower one. -/
theorem jnlOf_narrower {sl : Nat} {req : Word} {side : JnlRec → Bool} (hnone : v.jnlOf sl req side = none) (also : JnlRec → Bool) :
    v.jnlOf sl req (fun r => side r && also r) = none := by
  simp only [State.jnlOf, State.jnlFind] at hnone ⊢
  cases hsize : v.jnlSize sl with
  | none => rfl
  | some n =>
    simp only [hsize, firstBelow, List.find?_eq_none] at hnone ⊢
    exact fun x hx hcond => hnone x hx (by simp_all)

/-- An offer that is new here, with room in its slice's inbox, enters the inbox. -/
theorem serveOffer_enters {n : Nat} (hjnl : v.jnlOf (gaSlice m.addr) h.request JnlRec.in' = none) (hfallow : v.fallow = false)
    (hstate : v.sliceState (gaSlice m.addr) ≠ 3)
    (hnew : ∀ i ∈ v.inboxSlots (gaSlice m.addr), ∀ g, v.inboxOffer (gaSlice m.addr) i = some g → (g.1.request == h.request) = false)
    (hsize : v.inboxSize (gaSlice m.addr) = some n)
    (hroom : ((v.inboxEnds (gaSlice m.addr)).2 + 1) % n ≠ (v.inboxEnds (gaSlice m.addr)).1 % n) :
    let sl := gaSlice m.addr
    let rec' := m.payload.take 280 ++ toBytes 8 m.stamp ++ toBytes 8 m.src
    v.serveOffer m h = ((v.gwrite (v.inboxAddr sl (v.inboxEnds sl).2) (rec' ++ fillBytes (384 - rec'.length) 0) false).wrf
      ⟨.fabHoInboxCtl, 0, sl, 0⟩ 43 32 (((v.inboxEnds sl).2 + 1) % n)).ack m [] := by
  simp only [State.serveOffer, jnlOf_narrower hjnl, hfallow, hstate, hsize, Bool.false_eq_true, if_false]
  rw [List.filterMap_eq_nil_iff.mpr fun i hi => ?_]
  · simp only [List.contains_nil, List.isEmpty_nil, Bool.not_true, Bool.false_eq_true, if_false, hroom]
  · cases hoffer : v.inboxOffer (gaSlice m.addr) i with
    | none => rfl
    | some g => simp only [hnew i hi g hoffer, Bool.false_eq_true, if_false]

/-- An ACCEPT by D of an offer under way moves it to COMMIT_SENT with the lease E. -/
theorem serveAccept_commits (hj : v.jnlFor (gaSlice m.addr) h.request JnlRec.out h.epoch 0 = some j)
    (hepoch : h.epoch = (v.jnlAt (gaSlice m.addr) j).epoch) (hphase : (v.jnlAt (gaSlice m.addr) j).phase = 1)
    (hstamp : m.stamp ≤ (v.jnlAt (gaSlice m.addr) j).d) (hi : v.jnlEntry (v.jnlAt (gaSlice m.addr) j) = some i) :
    let sl := gaSlice m.addr
    let r := v.jnlAt sl j
    let e := m.stamp + v.leaseOf sl j
    let w := ((v.setEntry i { v.entry i with lease := e }).setJnl sl j { r with phase := 2, e }).endExchange sl j 1
    v.serveAccept m h = (w.startExchange sl j r.addr { request := h.request, epoch := h.epoch, kind := 4, arg := e } [] e false).ack m [] := by
  have hlive : (h.epoch != (v.jnlAt (gaSlice m.addr) j).epoch || decide (3 ≤ (v.jnlAt (gaSlice m.addr) j).phase)) = false := by
    simp [hepoch, hphase]
  have hnext : (v.jnlAt (gaSlice m.addr) j).phase ≠ 2 := by simp [hphase]
  simp only [State.serveAccept, hj, hlive, hnext, not_lt.mpr hstamp, hi, Bool.false_eq_true, if_false]

/-- A COMMIT of an accepted offer admits the sequence and starts the ACK. -/
theorem serveCommit_admits (hj : v.jnlFor (gaSlice m.addr) h.request JnlRec.in' h.epoch 0 = some j)
    (hepoch : h.epoch = (v.jnlAt (gaSlice m.addr) j).epoch) (hphase : (v.jnlAt (gaSlice m.addr) j).phase = 8)
    (hi : v.jnlEntry (v.jnlAt (gaSlice m.addr) j) = some i) (hstate : (v.entry i).state = .handoverIn) :
    let sl := gaSlice m.addr
    let r := v.jnlAt sl j
    let e1 := epochPlus r.epoch 1
    let w := (v.setEntry i { v.entry i with epoch := e1, admitTime := v.time, epochRound := true }).transition i
      (if r.target = 3 then .parked else .decode) 0x35
    let x := (w.setJnl sl j { r with phase := 9, e := h.arg }).endExchange sl j 2
    v.serveCommit m h =
      (x.startExchange sl j r.addr { request := h.request, epoch := e1, kind := 5 } [] (h.arg + x.leaseOf sl j) false).ack m [] := by
  have hsame : (h.epoch != (v.jnlAt (gaSlice m.addr) j).epoch) = false := by simp [hepoch]
  have hwaits : ((v.jnlAt (gaSlice m.addr) j).phase != 8) = false := by simp [hphase]
  have hin : ((v.entry i).state != ReqState.handoverIn) = false := by simp [hstate]
  simp only [State.serveCommit, hj, hsame, hwaits, hi, hin, Bool.false_eq_true, if_false]

/-- An ACK by E confirms a handover that has been committed. -/
theorem serveAck_confirms (hj : v.jnlFor (gaSlice m.addr) h.request JnlRec.out h.epoch 1 = some j)
    (hepoch : h.epoch = epochPlus (v.jnlAt (gaSlice m.addr) j).epoch 1) (hphase : (v.jnlAt (gaSlice m.addr) j).phase = 2)
    (hstamp : m.stamp ≤ (v.jnlAt (gaSlice m.addr) j).e) :
    let sl := gaSlice m.addr
    v.serveAck m h = (((v.setPhase sl j 3).endExchange sl j 4).ack m []).hoSend sl (v.jnlAt sl j).addr
      { request := h.request, epoch := h.epoch, kind := 6 } := by
  have hsame : (h.epoch != epochPlus (v.jnlAt (gaSlice m.addr) j).epoch 1) = false := by simp [hepoch]
  simp only [State.serveAck, hj, hsame, hphase, hstamp, Bool.false_eq_true, if_false, if_true]

/-- A CONFIRM or a RELEASED confirms a receiver that had not heard yet. -/
theorem serveConfirm_confirms (hj : v.jnlFor (gaSlice m.addr) h.request JnlRec.in' h.epoch 1 = some j)
    (hepoch : h.epoch = epochPlus (v.jnlAt (gaSlice m.addr) j).epoch 1) (hcommitted : (v.jnlAt (gaSlice m.addr) j).phase ≠ 8)
    (hopen : (v.jnlAt (gaSlice m.addr) j).phase ≠ 10) :
    v.serveConfirm m h = (v.confirmIn (gaSlice m.addr) j).ack m [] ∧ v.serveReleased m h = (v.confirmIn (gaSlice m.addr) j).ack m [] := by
  have hfresh : (h.epoch != epochPlus (v.jnlAt (gaSlice m.addr) j).epoch 1 || decide ((v.jnlAt (gaSlice m.addr) j).phase = 8)) = false := by
    simp [hepoch, hcommitted]
  have hwaits : ((v.jnlAt (gaSlice m.addr) j).phase != 10) = true := by simp [hopen]
  constructor
  · simp only [State.serveConfirm, hj, hfresh, hopen, Bool.false_eq_true, if_false]
  · simp only [State.serveReleased, hj, hfresh, hwaits, Bool.false_eq_true, if_false, if_true]

/-- A STEPPED releases the copy that the sender retained. -/
theorem serveStepped_releases (hj : v.jnlFor (gaSlice m.addr) h.request JnlRec.out h.epoch 1 = some j)
    (hepoch : h.epoch = epochPlus (v.jnlAt (gaSlice m.addr) j).epoch 1) (hphase : (v.jnlAt (gaSlice m.addr) j).phase = 3) :
    v.serveStepped m h = ((v.releaseCopy (gaSlice m.addr) j).ack m []).hoSend (gaSlice m.addr) (v.jnlAt (gaSlice m.addr) j).addr
      { request := h.request, epoch := h.epoch, kind := 8 } := by
  have hsame : (h.epoch != epochPlus (v.jnlAt (gaSlice m.addr) j).epoch 1) = false := by simp [hepoch]
  simp only [State.serveStepped, hj, hsame, hphase, Bool.false_eq_true, if_false, if_true]

/-- A RECLAIM discards the receiver's entry. -/
theorem serveReclaim_discards (hj : v.jnlFor (gaSlice m.addr) h.request JnlRec.in' h.epoch 2 = some j)
    (hepoch : h.epoch = epochPlus (v.jnlAt (gaSlice m.addr) j).epoch 2) (hopen : (v.jnlAt (gaSlice m.addr) j).phase ≠ 10) :
    v.serveReclaim m h = ((v.discard (gaSlice m.addr) j).ack m []).hoSend (gaSlice m.addr) (v.jnlAt (gaSlice m.addr) j).addr
      { request := h.request, epoch := h.epoch, kind := 10 } := by
  have hfresh : (h.epoch != epochPlus (v.jnlAt (gaSlice m.addr) j).epoch 2 || decide ((v.jnlAt (gaSlice m.addr) j).phase = 10)) = false := by
    simp [hepoch, hopen]
  simp only [State.serveReclaim, hj, hfresh, Bool.false_eq_true, if_false]

/-- The answer to a RECLAIM frees the journal record. -/
theorem serveReclaimAck_frees (hj : v.jnlFor (gaSlice m.addr) h.request (fun r => r.phase = 4) h.epoch 2 = some j)
    (hepoch : h.epoch = epochPlus (v.jnlAt (gaSlice m.addr) j).epoch 2) :
    v.serveReclaimAck m h = ((v.endExchange (gaSlice m.addr) j 9).freeJnl (gaSlice m.addr) j).ack m [] := by
  have hsame : (h.epoch != epochPlus (v.jnlAt (gaSlice m.addr) j).epoch 2) = false := by simp [hepoch]
  simp only [State.serveReclaimAck, hj, hsame, Bool.false_eq_true, if_false]

/-! ### Messages at a hold record (R351 to R357) -/

theorem atHold_held (k : Nat → HoldRec → State) (hi : v.holdFind (gaSlice m.addr) h.request = some i) :
    v.atHold m h k = k i (v.holdAt (gaSlice m.addr) i) := by
  simp only [State.atHold, hi]

theorem atEpoch_held (k : Nat → HoldRec → State) (hi : v.holdFind (gaSlice m.addr) h.request = some i)
    (hepoch : h.epoch = (v.holdAt (gaSlice m.addr) i).epoch) : v.atEpoch m h k = k i (v.holdAt (gaSlice m.addr) i) :=
  (atHold_held _ hi).trans (if_pos hepoch)

end

/-- Settles O39: each message takes its turn as its kind says; then what each kind does at the record it names. -/
theorem handoverMessages : Obligations.HandoverMessages := by
  refine ⟨fun m s u t p hp => ?_, fun m h v j => ⟨fun n hjnl hfallow hstate hnew hsize hroom => ?_,
    fun i hj hepoch hphase hstamp hi => serveAccept_commits hj hepoch hphase hstamp hi,
    fun i hj hepoch hphase hi hstate => serveCommit_admits hj hepoch hphase hi hstate,
    fun hj hepoch hphase hstamp => serveAck_confirms hj hepoch hphase hstamp,
    fun hj hepoch hcommitted hopen => serveConfirm_confirms hj hepoch hcommitted hopen,
    fun hj hepoch hphase => serveStepped_releases hj hepoch hphase, fun hj hepoch hopen => serveReclaim_discards hj hepoch hopen,
    fun hj hepoch => serveReclaimAck_frees hj hepoch⟩, fun m h v i hi => ⟨fun hnew => ?_, fun hold => ?_, fun hsame => ⟨?_, ?_, ?_⟩⟩⟩
  · have hcommand : exec p.2.1 s = answer (s.arriveHandover m p.1) := by
      simp only [List.mem_cons, List.not_mem_nil, or_false] at hp
      rcases hp with rfl | rfl | rfl | rfl | rfl | rfl | rfl | rfl | rfl | rfl | rfl | rfl | rfl | rfl | rfl | rfl | rfl <;> rfl
    have hserve : leAt m.payload 12 1 = p.1 →
        (fun (_ : Option Req) (v : State) => v.serveHandover { m with op := 0x0C }) = fun _ v => p.2.2 v := by
      intro hkind
      have hmsg : (hoMsgOf m.payload).kind = p.1 := (hoMsgOf_kind _).trans hkind
      funext _ v
      simp only [List.mem_cons, List.not_mem_nil, or_false] at hp
      rcases hp with rfl | rfl | rfl | rfl | rfl | rfl | rfl | rfl | rfl | rfl | rfl | rfl | rfl | rfl | rfl | rfl | rfl <;>
        simp only [State.serveHandover, hmsg] <;> rfl
    rw [hcommand]
    exact ⟨fun hkind hturn => answer_of_eq ((arriveHandover_turn hkind hturn).trans (congrArg (u.takesTurn { m with op := 0x0C }) (hserve hkind))),
      fun hother => answer_of_eq (if_neg hother)⟩
  · exact serveOffer_enters hjnl hfallow hstate hnew hsize hroom
  · exact (atHold_held _ hi).trans ((if_neg (not_lt.mpr hnew.le)).trans (if_neg hnew.ne'))
  · exact (atHold_held _ hi).trans (if_pos hold)
  · exact atEpoch_held _ hi hsame
  · exact atEpoch_held _ hi hsame
  · exact atEpoch_held _ hi hsame

/-! ### The clocks of handovers -/

section
variable {s : State} {id : Nat}

theorem hoResend_found {x : Exchange} (hx : s.exchanges.find? (fun x => x.id = id) = some x) :
    hoResend id s = if x.next ≤ s.time && s.time < x.limit then
      { s with exchanges := s.exchanges.map (fun (y : Exchange) => if y.id = id then { y with next := y.next + y.every } else y) }.sendExchange x
      else s := by
  simp only [hoResend, hx]

theorem hoResendEnd_found {x : Exchange} (hx : s.exchanges.find? (fun x => x.id = id) = some x) :
    let t : State := { s with exchanges := s.exchanges.filter (fun (y : Exchange) => y.id != id) }
    hoResendEnd id s = if s.time < x.limit then s else if x.kind = 7 || x.kind = 9 then t.freeJnl x.slice x.jnl else t := by
  simp only [hoResendEnd, hx]

/-- What the expiry of a lease does in a slice that has a journal. -/
theorem leaseExpiry_journal {sl : SliceId} (j : Nat) (hjnl : (s.jnlSize sl.val).isSome = true) :
    let r := s.jnlAt sl.val j
    leaseExpiry sl j s = if s.time ≤ r.e then s else if r.phase = 3 then s.releaseCopy sl.val j
      else if r.phase = 2 then s.reclaim sl.val j else s := by
  have hsome : (s.jnlSize sl.val).isNone = false := by simpa using hjnl
  simp only [leaseExpiry, hsome, Bool.false_or, decide_eq_true_eq]

/-- A record whose partner is up is resolved and leaves the list. -/
theorem journalResolve_listed {sl : SliceId} {j : Nat} (hlisted : s.resolving.contains (sl.val, j) = true)
    (hup : s.partnerUp (s.jnlAt sl.val j).partner = true) :
    let t := { s with resolving := s.resolving.filter (fun (k : Nat × Nat) => k != (sl.val, j)) }.resolveRecord sl.val j
    journalResolve sl j s = if t.resolving.isEmpty then t.wrf ⟨.clkRstStatus, 0, 0, 0⟩ 1 1 0 else t := by
  simp only [journalResolve, hlisted, hup, Bool.and_self, if_true]

/-- Settles O40: each clock of handovers, in a slice that has the tables it looks at. -/
theorem handoverTimers : Obligations.HandoverTimers := by
  refine ⟨fun id s x hx => ⟨answer_of_eq (hoResend_found hx), fun hearly => answer_of_eq ((hoResendEnd_found hx).trans (if_pos hearly)),
      fun hlate => answer_of_eq ((hoResendEnd_found hx).trans (if_neg (not_lt.mpr hlate)))⟩,
    fun sl j s hjnl => ⟨answer_of_eq ?_, answer_of_eq (leaseExpiry_journal j hjnl), answer_of_eq ?_, answer_of_eq ?_, answer_of_eq ?_⟩,
    fun sl h l s hl => answer_of_eq ?_,
    fun sl j s => ⟨fun hlisted hup => answer_of_eq (journalResolve_listed hlisted hup), fun hnot => answer_of_eq ?_⟩⟩
  · simp only [offerDeadline, hjnl, Bool.true_and, Bool.and_eq_true, decide_eq_true_eq]
  · simp only [acceptWindowExpiry, hjnl, Bool.true_and, Bool.and_eq_true, decide_eq_true_eq]
  · simp only [receiverUnresolved, hjnl, Bool.true_and, Bool.and_eq_true, decide_eq_true_eq]
  · simp only [journalRetainExpiry, hjnl, Bool.true_and, Bool.and_eq_true, decide_eq_true_eq]
  · simp only [holdExpiry, hl, Bool.and_eq_true, decide_eq_true_eq, bne_iff_ne, and_assoc]
  · simp only [journalResolve, hnot, Bool.false_and, Bool.false_eq_true, if_false]

end

end Sys2Proof.Machine

/-! The states of a port (Table 12-5, R303 to R308, R319 to R322, R497). -/

namespace Sys2Proof.Machine

section
variable {p : PortId} {s : State}

/-! ### Commands of a port -/

/-- PORT_RETRAIN retrains an ACTIVE port and restarts a FAILED one. -/
theorem portRetrain_eq (p : PortId) (s : State) : portRetrain p s =
    if s.portState p.val = 7 then
      ((s.portGo p.val 1 2).modPort p.val (fun x => { x with failures := 0 })).bump ⟨.prtRetrainCnt, p.val, 0, 0⟩
    else if s.portState p.val = 5 then (s.portGo p.val 2 2).bump ⟨.prtRetrainCnt, p.val, 0, 0⟩ else s := rfl

/-- The end of FEED_CHECK wants wavelengths enough at their alarm threshold. -/
theorem feedCheckComplete_eq (p : PortId) (power : List Nat) (s : State) :
    let q := p.val
    let t := (List.range 9).foldl (fun (t : State) k => t.wr ⟨.prtFeedPwr, q, k, 0⟩ (BitVec.ofNat 64 (power.getD k 0 % 65536))) s
    let alarm := t.rdf ⟨.prtFeedTh, q, 0, 0⟩ 31 16
    let good := ((List.range 9).filter (fun k => alarm ≤ power.getD k 0)).length
    feedCheckComplete p power s = if s.portState q ≠ 1 then s
      else if (if t.portCtl q 2 then 4 else 8) ≤ good then t.portGo q 2 0 else t.trainFail q 3 := by
  simp only [feedCheckComplete, bne_iff_ne]

theorem alignComplete_eq (p : PortId) (ok : Bool) (s : State) : alignComplete p ok s =
    if s.portState p.val ≠ 3 then s else if ok then s.portGo p.val 4 0 else s.trainFail p.val 5 := by
  simp only [alignComplete, bne_iff_ne]

/-! ### PHY_TRAIN (R306) -/

/-- The wavelengths that locked. -/
def lockedWaves (l : List Bool) : List Nat := (List.range 9).filter (fun k => l.getD k false)

/-- The state once PHY_TRAIN has shown what each wavelength of the receive direction did. -/
def State.wavesShown (s : State) (q : Nat) (rx : List Bool) : State :=
  s.wrf ⟨.prtLaneStatus, q, 0, 0⟩ 26 0 (((List.range 9).map (fun k => (if rx.getD k false then 1 else 4) * 2 ^ (3 * k))).sum)

/-- The end of PHY_TRAIN: no wavelength in a direction, too few lanes, or the lanes chosen in both. -/
theorem phyTrainComplete_training {tx rx : List Bool} {peerHalf : Bool} (hst : s.portState p.val = 2) :
    let q := p.val
    let half := s.portCtl q 2 && peerHalf
    let t := s.wavesShown q rx
    phyTrainComplete p tx rx peerHalf s = if (lockedWaves tx).isEmpty || (lockedWaves rx).isEmpty then t.trainFail q 4
      else match laneChoice (lockedWaves tx) half, laneChoice (lockedWaves rx) half with
        | some a, some b =>
          (((t.wr ⟨.prtLaneMap, q, 0, 0⟩ (laneMapWord b.1 b.2)).wrf ⟨.prtStatus, q, 0, 0⟩ 12 12
            (if (lockedWaves rx).length < 8 then 1 else 0)).modPort q (fun x =>
              { x with coefficients := true, txMap := (a.1.zipIdx.map (fun (a, j) => (j, a))) ++ [(8, a.2)] })).portGo q 3 0
        | _, _ => t.trainFail q 8 := by
  simp only [phyTrainComplete, hst, bne_self_eq_false, Bool.false_eq_true, if_false] <;> rfl

theorem phyTrainComplete_elsewhere {tx rx : List Bool} {peerHalf : Bool} (hst : s.portState p.val ≠ 2) :
    phyTrainComplete p tx rx peerHalf s = s := if_pos (bne_iff_ne.mpr hst)

/-! ### INIT (R307, R308) -/

/-- The state once INIT has recorded what the partner says of itself. -/
def State.partnerShown (s : State) (q : Nat) (body : List Byte) : State :=
  (s.wrf ⟨.prtStatus, q, 0, 0⟩ 27 14 (bits (leAt body 0 8) 13 0)).wrf ⟨.prtStatus, q, 0, 0⟩ 28 28 (bits (leAt body 0 8) 14 14)

/-- The partner's INIT message: its FEC mode and its role decide. -/
theorem ctrlInit_init (body : List Byte) (hst : s.portState p.val = 4) :
    let q := p.val
    let w := leAt body 0 8
    let t := s.partnerShown q body
    ctrlInit p body s = if w.testBit 15 != (t.port q).lowFec then t.trainFail q 6
      else if w.testBit 14 != t.hasEngine q then t.trainFail q 7
      else ((t.sendCtrl q 1 (t.initBody q)).wrf ⟨.prtStatus, q, 0, 0⟩ 11 11 (bits w 16 16)).portActive q (bits w 13 0) (bits w 54 39)
        (bits w 28 17) := by
  simp only [ctrlInit, hst, bne_self_eq_false, Bool.false_eq_true, if_false] <;> rfl

theorem ctrlInit_elsewhere (body : List Byte) (hst : s.portState p.val ≠ 4) : ctrlInit p body s = s := if_pos (bne_iff_ne.mpr hst)

/-! ### Limits -/

theorem trainingTimeout_unlimited (h : s.trainLimit p.val = none) : trainingTimeout p s = s := by
  simp only [trainingTimeout, h]

theorem trainingTimeout_limited {t reason : Nat} (h : s.trainLimit p.val = some (t, reason)) :
    trainingTimeout p s = if t ≤ s.portAge p.val then s.trainFail p.val reason else s := by
  simp only [trainingTimeout, h]

theorem quarantineEnd_eq (p : PortId) (s : State) :
    quarantineEnd p s = if s.portState p.val = 6 ∧ 10000 ≤ s.portAge p.val then s.portGo p.val 2 0 else s := by
  simp only [quarantineEnd, Bool.and_eq_true, decide_eq_true_eq]

theorem failedAutoRetry_eq (p : PortId) (s : State) : failedAutoRetry p s =
    if s.portState p.val = 7 ∧ s.portCtl p.val 3 = true ∧ (s.port p.val).failures < 3 ∧ 100000000 ≤ s.portAge p.val then s.portGo p.val 1 0
    else s := by
  simp only [failedAutoRetry, Bool.and_eq_true, decide_eq_true_eq, and_assoc]

/-- Settles O41: each command and each end of a training state, in the state it is for and in the others. -/
theorem portTraining : Obligations.PortTraining := by
  refine fun p s => ⟨rfl, rfl, answer_of_eq (portRetrain_eq p s), fun power => answer_of_eq (feedCheckComplete_eq p power s),
    fun tx rx peerHalf => ?_, fun ok => answer_of_eq (alignComplete_eq p ok s), rfl, fun body => ?_,
    fun h => answer_of_eq (trainingTimeout_unlimited h), fun t reason h => answer_of_eq (trainingTimeout_limited h),
    answer_of_eq (quarantineEnd_eq p s), answer_of_eq (failedAutoRetry_eq p s)⟩
  · refine ⟨fun hst => answer_of_eq (phyTrainComplete_elsewhere hst), fun hst hnone => ?_, fun hst htx hrx => ?_⟩ <;>
      have htrain := phyTrainComplete_training (tx := tx) (rx := rx) (peerHalf := peerHalf) hst
    · have hnone : lockedWaves tx = [] ∨ lockedWaves rx = [] := hnone
      refine answer_of_eq (htrain.trans (if_pos ?_))
      simpa only [Bool.or_eq_true, List.isEmpty_iff] using hnone
    · have hsome : ¬ ((lockedWaves tx).isEmpty || (lockedWaves rx).isEmpty) = true := by
        simpa only [Bool.or_eq_true, List.isEmpty_iff, not_or] using ⟨htx, hrx⟩
      replace htrain := htrain.trans (if_neg hsome)
      refine ⟨fun hfew => answer_of_eq (htrain.trans ?_), fun a b ha hb => answer_of_eq (htrain.trans ?_)⟩
      · split
        · next ha hb => exact absurd hfew (not_or.mpr ⟨fun h => Option.some_ne_none _ (ha.symm.trans h), fun h => Option.some_ne_none _ (hb.symm.trans h)⟩)
        · rfl
      · have ha' : laneChoice (lockedWaves tx) (s.portCtl p.val 2 && peerHalf) = some a := ha
        have hb' : laneChoice (lockedWaves rx) (s.portCtl p.val 2 && peerHalf) = some b := hb
        simp only [ha', hb'] <;> rfl
  · refine ⟨fun hst => answer_of_eq (ctrlInit_elsewhere body hst), fun hst hfec => ?_, fun hst hfec hrole => ?_, fun hst hfec hrole => ?_⟩ <;>
      have hinit := ctrlInit_init (p := p) body hst
    · exact answer_of_eq (hinit.trans (if_pos (bne_iff_ne.mpr hfec)))
    · exact answer_of_eq (hinit.trans ((if_neg (fun h => bne_iff_ne.mp h hfec)).trans (if_pos (bne_iff_ne.mpr hrole))))
    · exact answer_of_eq (hinit.trans ((if_neg (fun h => bne_iff_ne.mp h hfec)).trans (if_neg (fun h => bne_iff_ne.mp h hrole))))

end

end Sys2Proof.Machine

/-! Wavelengths, laser feed and beacons (R303 to R316), the link layer (R318, R323 to R328) and the egress scheduler (R329, R330). -/

namespace Sys2Proof.Machine

section
variable {p : PortId} {s : State} {q : Nat}

/-! ### Wavelengths -/

/-- What a failed wavelength does once its status shows it, with the lane that uses it, if any (R309 to R313). -/
theorem waveFailed_eq (v : State) (q k : Nat) :
    let map : Csr := ⟨.prtLaneMap, q, 0, 0⟩
    let t := v.wrf ⟨.prtLaneStatus, q, 0, 0⟩ (3 * k + 2) (3 * k + 2) 1
    let spare := t.rdf map 35 32
    v.waveFailed q k = if t.portState q != 5 then t
      else if spare = k then t.wrf map 35 32 15
      else match firstBelow 8 (fun j => t.rdf map (4 * j + 3) (4 * j) = k) with
        | none => t
        | some j =>
          if spare = 15 then t.retrain q 0x0C
          else
            let w := ((t.wrf map (4 * j + 3) (4 * j) spare).wrf map 35 32 15).bump ⟨.prtRemapCnt, q, 0, 0⟩
            (w.modPort q (fun x => { x with laneAsk := some (j, spare), askLanes := List.range (w.lanes q 11) })).portRecord q 1 j := by
  simp only [State.waveFailed] <;> rfl

/-- A lane's request moves the transmit lane to the spare, where the port is ACTIVE, has one and hears the request. -/
theorem laneRemapRequest_eq (p : PortId) (lane : Fin 8) (heard : List Bool) (s : State) :
    let q := p.val
    let spare := Table.get 8 (s.port q).txMap 8
    let hears := (heard.take (s.lanes q 12)).any id
    laneRemapRequest p lane heard s = if s.portState q != 5 || spare = 15 || !hears then s
      else ((s.modPort q (fun x => { x with txMap := Table.set (Table.set x.txMap lane.val spare) 8 15 })).bump
        ⟨.prtRemapCnt, q, 0, 0⟩).portRecord q 2 lane.val := rfl

/-! ### Beacons (R314 to R316) -/

theorem every_again {duty period : Nat} (f : State → State) (h : Table.find s.paced duty = some (s.time / period)) :
    s.every duty period f = s := if_pos h

theorem every_first {duty period : Nat} (f : State → State) (h : Table.find s.paced duty ≠ some (s.time / period)) :
    s.every duty period f = f { s with paced := Table.set s.paced duty (s.time / period) } := if_neg h

theorem beaconTimer_eq (p : PortId) (s : State) : beaconTimer p s =
    if s.portState p.val = 5 ∧ s.rdb ⟨.prtTime, p.val, 0, 0⟩ 0 = true then s.sendCtrl p.val 5 (toBytes 8 s.time) else s := by
  simp only [beaconTimer, Bool.and_eq_true, decide_eq_true_eq]

theorem beaconReply_elsewhere (body : List Byte) (hst : s.portState p.val ≠ 5) : beaconReply p body s = s := if_pos (bne_iff_ne.mpr hst)

/-- A beacon's answer gives delay and offset, and steers system time through an upstream port. -/
theorem beaconReply_active (body : List Byte) (hst : s.portState p.val = 5) :
    let q := p.val
    let t1 : Int := leAt body 0 8
    let t2 : Int := leAt body 8 8
    let t3 : Int := leAt body 16 8
    let t4 : Int := s.time
    let off := ((t2 - t1) - (t4 - t3)) / 2
    let t := ((s.wr ⟨.prtTimeDelay, q, 0, 0⟩ (BitVec.ofNat 64 (unsigned 32 (((t4 - t1) - (t3 - t2)) / 2)))).wr
      ⟨.prtTimeOff, q, 0, 0⟩ (BitVec.ofNat 64 (unsigned 32 off))).modPort q (fun x => { x with offset := some off })
    let offs := t.upstream.filterMap (fun i => (t.port i).offset)
    beaconReply p body s = if t.upstream.contains q then t.steer (offs.foldl (· + ·) 0 / (offs.length : Int)) else t := by
  simp only [beaconReply, hst, bne_self_eq_false, Bool.false_eq_true, if_false]

/-! ### Acknowledgement and replay (R323 to R326) -/

theorem ctrlNak_elsewhere (body : List Byte) (hst : s.portState p.val ≠ 5) : ctrlNak p body s = s := if_pos (bne_iff_ne.mpr hst)

/-- A NAK sends again from the flit it names; the eighth in a row that names it retrains. -/
theorem ctrlNak_active (body : List Byte) (hst : s.portState p.val = 5) :
    let q := p.val
    let n := leAt body 0 2 % 4096
    let x := (s.port q).acked ((n + 4095) % 4096)
    let run := if x.nakRun.1 = n && x.nakRun.2 != 0 then x.nakRun.2 + 1 else 1
    let t := s.modPort q (fun _ => { x with nakRun := (n, run) })
    ctrlNak p body s = if 8 ≤ run then (t.modPort q (fun x => { x with nakRun := (0, 0) })).retrain q 0x0B
      else if x.replay.isEmpty then t
      else (t.modPort q (fun x => x.put x.replay)).bump ⟨.prtReplayCnt, q, 0, 0⟩ := by
  simp only [ctrlNak, hst, bne_self_eq_false, Bool.false_eq_true, if_false]

theorem nakResend_due {t : Nat} (h : (s.port p.val).nakSince = some t) :
    nakResend p s = if s.portState p.val = 5 && t ≤ s.time then s.sendNak p.val else s := by
  simp only [nakResend, h]

theorem reassemblyTimeout_found {f : FieldId} {id : Nat} {r : Reassembly}
    (h : s.reasm.find? (fun r => r.id = id && r.field = f.val) = some r) : reassemblyTimeout f id s =
      if s.time < r.stamp + r.limit then s
      else { s with reasm := s.reasm.filter (fun (x : Reassembly) => x.id != id) }.bump ⟨.prtReasmDropCnt, 0, 0, 0⟩ := by
  simp only [reassemblyTimeout, h]

/-! ### Flits (R318, R324, R327) -/

/-- A port receives flits in INIT and ACTIVE only. -/
theorem flitIn_elsewhere (bs : List Byte) (hinit : s.portState p.val ≠ 4) (hactive : s.portState p.val ≠ 5) : s.flitIn p bs = s := by
  simp only [State.flitIn, bne_iff_ne.mpr hinit, bne_iff_ne.mpr hactive, Bool.and_self, if_true]

/-- A flit whose CRC is wrong is counted, and NAKed once by an ACTIVE port. -/
theorem flitIn_crc {bs : List Byte} (hrx : s.portState p.val = 4 ∨ s.portState p.val = 5) (hcrc : crcOk bs = false) :
    let t := s.bump ⟨.prtCrcCnt, p.val, 0, 0⟩
    s.flitIn p bs = if s.portState p.val = 5 && (t.port p.val).nakSince.isNone then t.sendNak p.val else t := by
  have hin : (s.portState p.val != 4 && s.portState p.val != 5) = false := by
    rcases hrx with h | h <;> simp [h]
  simp only [State.flitIn, hin, hcrc, Bool.not_false, Bool.false_eq_true, if_false, if_true]

theorem flitIn_reserved {bs : List Byte} (hrx : s.portState p.val = 4 ∨ s.portState p.val = 5) (hcrc : crcOk bs = true)
    (hres : flitReserved bs = true) : s.flitIn p bs = s.bump ⟨.prtLinkErrCnt, p.val, 0, 0⟩ := by
  have hin : (s.portState p.val != 4 && s.portState p.val != 5) = false := by
    rcases hrx with h | h <;> simp [h]
  simp only [State.flitIn, hin, hcrc, hres, Bool.not_true, Bool.false_eq_true, if_false, if_true]

/-- What a legal flit does: nothing more where it is empty, a control message, or data in an ACTIVE port. -/
def State.flitTaken (t : State) (p : PortId) (f : Flit) (active : Bool) : State :=
  if f.kind = 0 then t
  else if f.kind = 3 then t.ctrlReceive p f
  else if !active || (t.port p.val).quarantineDue then t
  else if f.fseq = (t.port p.val).expect then t.dataFlit p f
  else if (t.port p.val).nakSince.isSome then t
  else t.sendNak p.val

/-- A legal flit, with the reports it carries to an ACTIVE port. -/
theorem flitIn_legal {bs : List Byte} (hrx : s.portState p.val = 4 ∨ s.portState p.val = 5) (hcrc : crcOk bs = true)
    (hlegal : flitReserved bs = false) :
    let t := if s.portState p.val = 5 then s.flitReports p.val (flitOf bs) else s
    s.flitIn p bs = (t.flitTaken p (flitOf bs) (s.portState p.val == 5)).unblock p := by
  have hin : (s.portState p.val != 4 && s.portState p.val != 5) = false := by
    rcases hrx with h | h <;> simp [h]
  simp only [State.flitIn, hin, hcrc, hlegal, Bool.not_true, Bool.false_eq_true, if_false, State.flitTaken]
  congr 1
  split
  · next h => simp only [h, if_true]
  · next h => simp only [h, Nat.reduceEqDiff, if_true, if_false]
  · next hzero hthree => exact ((if_neg hzero).trans (if_neg hthree)).symm

/-! ### Codewords (R305) -/

/-- A port takes codewords once its lanes are aligned. -/
theorem flitReceive_codeword (lanes : List (Nat × List (BitVec 10))) : flitReceive p (.codeword lanes) s =
    if s.portState p.val = 4 || s.portState p.val = 5 || s.portState p.val = 6 then s.codewordIn p lanes else s := rfl

/-- The bits that a codeword adds to those a port has received. -/
def State.bitsIn (t : State) (q : Nat) (bits : List (Option Bool)) : State :=
  t.modPort q (fun x => { x with rxBits := x.rxBits ++ bits })

/-- The symbols of a codeword, gathered from the lanes. -/
def State.codewordOf (s : State) (q : Nat) (lanes : List (Nat × List (BitVec 10))) : List Nat :=
  fromLanes (fecCode (s.port q).lowFec).length (lanes.map (fun l => l.2.map BitVec.toNat))

/-- A codeword that is not deskewed or does not decode is counted, and its bits are lost. -/
theorem codewordIn_lost {lanes : List (Nat × List (BitVec 10))}
    (h : deskewed (lanes.map Prod.fst) = false ∨ (fecCode (s.port p.val).lowFec).decode (s.codewordOf p.val lanes) = none) :
    s.codewordIn p lanes = ((s.bump ⟨.prtFecUncorrCnt, p.val, 0, 0⟩).bitsIn p.val
      (List.replicate (10 * (fecCode (s.port p.val).lowFec).message) none)).flitsOut p 6 := by
  have hnone : (if deskewed (lanes.map Prod.fst) then (fecCode (s.port p.val).lowFec).decode (s.codewordOf p.val lanes) else none) = none := by
    rcases h with h | h
    · simp [h]
    · simp [h]
  simp only [State.codewordOf] at hnone
  simp only [State.codewordIn, hnone, State.bitsIn]

/-- A codeword that decodes gives its bits; corrected errors are counted. -/
theorem codewordIn_decoded {lanes : List (Nat × List (BitVec 10))} {v : List Nat} {places : List Nat}
    (hskew : deskewed (lanes.map Prod.fst) = true)
    (hdecode : (fecCode (s.port p.val).lowFec).decode (s.codewordOf p.val lanes) = some (v, places)) :
    s.codewordIn p lanes = ((if places = [] then s else s.bump ⟨.prtFecCorrCnt, p.val, 0, 0⟩).bitsIn p.val
      ((codewordBits (s.port p.val).lowFec v).map some)).flitsOut p 6 := by
  simp only [State.codewordOf] at hdecode
  simp only [State.codewordIn, hskew, if_true, hdecode, State.bitsIn, State.bumpIf]
  cases places <;> rfl

/-! ### The egress scheduler (R328 to R330) -/

theorem egressSchedule_unusable (h : s.portUsable p.val = false) : egressSchedule p s = s := by
  simp only [egressSchedule, h, Bool.not_false, if_true]

/-- The classes that a port may send of now. -/
def State.eligible (s : State) (q : Nat) : List Nat :=
  (List.range 8).filter (fun c => (c = 7 || !(s.port q).quarantineDue) && (s.subQueue q c).isSome)

/-- The state once the classes that come to have something to send have their start tags. -/
def State.woken (s : State) (q : Nat) : State :=
  s.modPort q (fun x =>
    { ((s.eligible q).filter (fun c => !x.awake.contains c)).foldl (fun (y : Port) c =>
        { y with start := Table.set y.start c (tagMax y.vtime (Table.get 0 y.finish c)) }) x with awake := s.eligible q })

/-- Class 7 goes first, by strict priority. -/
def State.strictFirst (s : State) (q : Nat) : Bool :=
  (s.woken q).rdb ⟨.prtSchedCtl, q, 0, 0⟩ 0 && (s.eligible q).contains 7 && ((s.woken q).port q).recent7 < 512

/-- A usable port sends the packet of the class that its tags choose, or a CREDIT. -/
theorem egressSchedule_usable (h : s.portUsable p.val = true) :
    let q := p.val
    let t := s.woken q
    egressSchedule p s = match (if s.strictFirst q then some 7 else (t.port q).firstClass (s.eligible q)) with
      | none => t.sendCredit q
      | some c =>
        match t.subQueue q c with
        | none => t
        | some k => (t.sendPacket q k !(s.strictFirst q)).quarantineIfDue q := by
  simp only [egressSchedule, h, Bool.not_true, Bool.false_eq_true, if_false] <;> rfl

/-! ### The obligation -/

/-- Settles O42: wavelengths, lane requests and beacons; then flits, codewords and the egress scheduler, each by its outcomes. -/
theorem lanesAndLinkLayer : Obligations.LanesAndLinkLayer := by
  refine ⟨fun p s => ⟨fun k => ⟨rfl, rfl, fun errors symbols => rfl, fun v => ?_⟩, fun lane heard => ?_, rfl, fun power => rfl, ?_, fun body => ?_⟩,
    fun p s => ⟨fun body => ?_, rfl, fun t ht => answer_of_eq (nakResend_due ht), fun f id r hr => answer_of_eq (reassemblyTimeout_found hr),
      fun bs => ?_, fun lanes => ?_, fun hoff => answer_of_eq (egressSchedule_unusable hoff), fun hon => ?_⟩⟩
  · have hwave := waveFailed_eq v p.val k.val
    refine ⟨fun hst => hwave.trans (if_pos (bne_iff_ne.mpr hst)), fun hst hspare => ?_, fun hst hspare hnone => ?_, fun j hst hspare hj => ?_⟩
    all_goals replace hwave := hwave.trans (if_neg (fun hne => bne_iff_ne.mp hne hst))
    · exact hwave.trans (if_pos hspare)
    · refine hwave.trans ((if_neg hspare).trans ?_)
      simp only [hnone]
    · replace hwave := hwave.trans (if_neg hspare)
      simp only [hj] at hwave
      exact ⟨fun hno => hwave.trans (if_pos hno), fun hsome => hwave.trans (if_neg hsome)⟩
  · have hask := laneRemapRequest_eq p lane heard s
    refine ⟨fun hno => answer_of_eq (hask.trans (if_pos ?_)), fun hst hspare hhears => answer_of_eq (hask.trans (if_neg ?_))⟩
    · rcases hno with h | h | h <;> simp [h]
    · simp [hst, hspare, hhears]
  · refine ⟨fun hagain => answer_of_eq (every_again _ hagain), fun hnew => ?_⟩
    exact answer_of_eq ((every_first _ hnew).trans (beaconTimer_eq p _))
  · exact ⟨rfl, fun hst => answer_of_eq (beaconReply_elsewhere body hst), fun hst => answer_of_eq (beaconReply_active body hst)⟩
  · exact ⟨rfl, rfl, fun hst => answer_of_eq (ctrlNak_elsewhere body hst), fun hst => answer_of_eq (ctrlNak_active body hst)⟩
  · refine ⟨fun hinit hactive => answer_of_eq (flitIn_elsewhere bs hinit hactive), fun hcrc hst => ?_, fun hcrc hst => ?_,
      fun hrx hcrc hres => answer_of_eq (flitIn_reserved hrx hcrc hres), fun hst hcrc hlegal => ?_, fun hst hcrc hlegal => ?_⟩
    · exact answer_of_eq ((flitIn_crc (.inl hst) hcrc).trans (if_neg (by simp [hst])))
    · have hflit := flitIn_crc (p := p) (.inr hst) hcrc
      simp only [hst, decide_true, Bool.true_and] at hflit
      exact answer_of_eq hflit
    · have hflit := flitIn_legal (p := p) (.inl hst) hcrc hlegal
      simp only [hst, Nat.reduceEqDiff, if_false, State.flitTaken] at hflit
      refine answer_of_eq (hflit.trans (congrArg (State.unblock · p) ?_))
      split
      · next h => simp [h]
      · rfl
    · have hflit := flitIn_legal (p := p) (.inr hst) hcrc hlegal
      simp only [hst, if_true] at hflit
      refine ⟨fun hkind => ?_, fun hkind => ?_, fun hzero hthree => ⟨fun hdue => ?_, fun hfree hnext => ?_, fun hfree hskip => ?_⟩⟩ <;>
        refine answer_of_eq (hflit.trans (congrArg (State.unblock · p) ?_))
      · exact if_pos hkind
      · exact (if_neg (by simp [hkind])).trans (if_pos hkind)
      · exact (if_neg hzero).trans ((if_neg hthree).trans (if_pos (by simp [hdue])))
      · exact (if_neg hzero).trans ((if_neg hthree).trans ((if_neg (by simp [hfree])).trans (if_pos hnext)))
      · exact (if_neg hzero).trans ((if_neg hthree).trans ((if_neg (by simp [hfree])).trans (if_neg hskip)))
  · have hcode := flitReceive_codeword (p := p) (s := s) lanes
    refine ⟨fun hout => answer_of_eq (hcode.trans (if_neg ?_)), fun hin => ?_⟩
    · simp only [Bool.or_eq_true, decide_eq_true_eq]
      omega
    · replace hcode := hcode.trans (if_pos (by simpa [or_assoc] using hin))
      exact ⟨fun hlost => answer_of_eq (hcode.trans (codewordIn_lost hlost)),
        fun v places hskew hdecode => answer_of_eq (hcode.trans (codewordIn_decoded hskew hdecode))⟩
  · have hsched := egressSchedule_usable hon
    refine ⟨fun hnone => answer_of_eq (hsched.trans ?_), fun c k hc hk => answer_of_eq (hsched.trans ?_)⟩
    · have hchoice : (if s.strictFirst p.val then some 7 else ((s.woken p.val).port p.val).firstClass (s.eligible p.val)) = none := hnone
      simp only [hchoice] <;> rfl
    · have hchoice : (if s.strictFirst p.val then some 7 else ((s.woken p.val).port p.val).firstClass (s.eligible p.val)) = some c := hc
      have hqueue : (s.woken p.val).subQueue p.val c = some k := hk
      simp only [hchoice, hqueue] <;> rfl

end

end Sys2Proof.Machine

/-! Slices and meters (R389 to R397), Reeves and the two views of a unit (R401 to R411, R469, R516), and Fallow mode (R412 to R415). -/

namespace Sys2Proof.Machine

section
variable {s : State} {who : Who} {sl : SliceId}

/-! ### Slice commands -/

theorem sliceMove_unheard {n : Nat} (a b : Nat) (h : s.sliceSender who n = false) : s.sliceMove who n a b = s := by
  simp only [State.sliceMove, h, Bool.not_false, if_true]

/-- A slice moves from the state its command is for, and reports an error from another. -/
theorem sliceMove_heard {n : Nat} (a b : Nat) (h : s.sliceSender who n = true) :
    (s.sliceState n = a → s.sliceMove who n a b = s.wrf (slcCtl n) 2 0 b) ∧
      (s.sliceState n ≠ a → s.sliceMove who n a b = s.sliceError who n) := by
  simp only [State.sliceMove, h, Bool.not_true, Bool.false_eq_true, if_false]
  exact ⟨fun hst => if_pos hst, fun hst => if_neg hst⟩

theorem create_occupied (h : s.sliceSender who sl.val = true) (hst : s.sliceState sl.val ≠ 0) : create who sl s = s.sliceError who sl.val :=
  (if_neg (by simp [hst])).trans ((sliceMove_heard 0 1 h).2 hst)

/-- TEARDOWN of a slice other than slice 0, by a sender that may give it. -/
theorem teardown_heard (h : s.sliceSender who sl.val = true) (hn : sl.val ≠ 0) : teardown who sl s =
    let t := (s.wrf (slcCtl sl.val) 2 0 4).abortSlice sl.val
    if s.sliceState sl.val = 1 || s.sliceState sl.val = 2 || s.sliceState sl.val = 3 then
      { t with sheaf := t.sheaf.map (fun (p : Nat × SheafEntry) =>
          (p.1, if p.2.slice = sl.val && p.2.inStep then { p.2 with teardownRecorded := true } else p.2)) }
    else s.sliceError who sl.val := by
  have hgo : (decide (sl.val = 0) || !s.sliceSender who sl.val) = false := by simp [h, hn]
  simp only [teardown, hgo, Bool.false_eq_true, if_false]

/-- A sender that may not command the slice changes nothing. -/
theorem sliceCommand_unheard (h : s.sliceSender who sl.val = false) : create who sl s = s ∧ start who sl s = s ∧
    Sys2Proof.Machine.drain who sl s = s ∧ resume who sl s = s ∧ teardown who sl s = s := by
  refine ⟨(if_neg (by simp [h])).trans (sliceMove_unheard 0 1 h), sliceMove_unheard 1 2 h, ?_, sliceMove_unheard 3 2 h, if_pos (by simp [h])⟩
  exact (congrArg (ite _ _) (sliceMove_unheard 2 3 h)).trans (ite_self _)

theorem teardownComplete_waits (h : s.sliceState sl.val ≠ 4 ∨ s.sliceRuns sl.val = true) : teardownComplete sl s = s :=
  if_pos (by rcases h with h | h <;> simp [h])

theorem teardownComplete_clears (hst : s.sliceState sl.val = 4) (hidle : s.sliceRuns sl.val = false) : teardownComplete sl s =
    (((((((s.clearEntries sl.val).clearWork sl.val).clearTables sl.val).clearFrames sl.val).clearBooks sl.val).clearAdapters
      sl.val).finalSnapshot sl.val).wrf (slcCtl sl.val) 2 0 0 := if_neg (by simp [hst, hidle])

/-- A snapshot is due in the first ten nanoseconds of a second that has none. -/
theorem snapshotDue_iff (s : State) : s.snapshotDue = true ↔ s.time % 1000000000 < 10 ∧ s.snapped ≠ some (s.time / 1000000000) := by
  simp [State.snapshotDue]

theorem meterSnapshot_none (h : ¬ s.snapshotDue = true) : meterSnapshot s = s := if_pos (by simpa using h)

theorem meterSnapshot_due (h : s.snapshotDue = true) :
    let t := { s with hmpSent := [], snapped := some (s.time / 1000000000) }.bump ⟨.slcMtrSeq, 0, 0, 0⟩
    meterSnapshot s = (List.range 64).foldl (fun (u : State) sl => u.snapshot sl (t.rdf ⟨.slcMtrSeq, 0, 0, 0⟩ 31 0) false) t :=
  if_neg (by simp [h])

/-- Settles O43: the commands of a slice by sender and state, the end of a teardown, and the snapshots. -/
theorem slicesAndMeters : Obligations.SlicesAndMeters := by
  refine ⟨fun who sl s => ⟨fun h c hc => ?_, fun hn => ⟨answer_of_eq (if_pos hn), answer_of_eq (if_pos (by simp [hn]))⟩, fun h => ?_⟩,
    fun sl s => ⟨fun h => answer_of_eq (teardownComplete_waits h), fun hst hidle => answer_of_eq (teardownComplete_clears hst hidle)⟩,
    fun s => ⟨fun h => answer_of_eq (meterSnapshot_none ?_), fun hfirst hnone => answer_of_eq (meterSnapshot_due ?_)⟩⟩
  · obtain ⟨hcreate, hstart, hdrain, hresume, hteardown⟩ := sliceCommand_unheard h
    simp only [List.mem_cons, List.not_mem_nil, or_false] at hc
    rcases hc with rfl | rfl | rfl | rfl | rfl
    · exact answer_of_eq hcreate
    · exact answer_of_eq hstart
    · exact answer_of_eq hdrain
    · exact answer_of_eq hresume
    · exact answer_of_eq hteardown
  · have hmove : ∀ (c : Instr) (a b : Nat), exec c s = answer (s.sliceMove who sl.val a b) →
        (s.sliceState sl.val = a → exec c s = .next (s.wrf (slcCtl sl.val) 2 0 b).sense) ∧
        (s.sliceState sl.val ≠ a → exec c s = .next (s.sliceError who sl.val).sense) := fun c a b hc =>
      ⟨fun hst => hc.trans (answer_of_eq ((sliceMove_heard a b h).1 hst)), fun hst => hc.trans (answer_of_eq ((sliceMove_heard a b h).2 hst))⟩
    refine ⟨hmove _ 1 2 rfl, hmove _ 3 2 rfl, fun hn => hmove _ 2 3 (congrArg answer (if_neg hn)),
      fun hst => answer_of_eq (create_occupied h hst), fun hst => answer_of_eq (if_pos (by simp [h, hst])),
      fun hn hst => answer_of_eq ((teardown_heard h hn).trans (if_neg ?_)), fun hn hst => answer_of_eq ((teardown_heard h hn).trans (if_pos ?_))⟩
    · simp only [Bool.or_eq_true, decide_eq_true_eq]
      omega
    · simpa [or_assoc] using hst
  · rw [snapshotDue_iff]
    rintro ⟨hfirst, hnone⟩
    rcases h with h | h
    · omega
    · exact hnone h
  · exact (snapshotDue_iff s).mpr ⟨hfirst, hnone⟩

end

/-! ### Reeves -/

section
variable {s : State} {u : UnitId}

/-- A core's command in Fallow mode is answered so; in another mode it waits behind those of its Reeve. -/
theorem reeveCore_eq (s : State) (f code : Nat) (u : UnitId) : s.reeveCore f code u =
    if s.fallow then (s.wrf ⟨.fldReeveRsp, f, 0, 0⟩ 7 0 0xB1).wrf ⟨.fldReeveRsp, f, 0, 0⟩ 8 8 1
    else s.reeveSend f { code, unit := u, core := true } := rfl

/-- Each Reeve command gives its code to the Reeve of its Field. -/
theorem reeve_command (f : FieldId) (u : UnitId) (s : State) (who : Who) :
    ∀ p ∈ ([(1, fun w => .reeveStatus w f u), (2, fun w => .reevePowerOn w f u), (3, fun w => .reevePowerOff w f u),
      (4, fun w => .reeveFence w f u), (5, fun w => .reeveUnfence w f u), (6, fun w => .reeveSelftest w f u)] : List (Nat × (Who → Instr))),
      exec (p.2 who) s = answer (s.reeveBy who f.val p.1 u) := by
  intro p hp
  simp only [List.mem_cons, List.not_mem_nil, or_false] at hp
  rcases hp with rfl | rfl | rfl | rfl | rfl | rfl <;> rfl

theorem domainOnComplete_not (d : DomainId) (h : s.turningOn.contains d.val = false) : domainOnComplete d s = s :=
  if_neg (ne_true_of_eq_false h)

theorem selftestComplete_idle (pass : Bool) (h : (s.unit u).testing = false) : selftestComplete u pass s = s := if_pos (by simp [h])

/-- A self-test ends with its result; a unit failed until the next cold boot fails it. -/
theorem selftestComplete_testing (pass : Bool) (h : (s.unit u).testing = true) :
    let pass' := pass && !s.failedForGood u
    let t := s.modUnit u (fun x => { x with testing := false, failed := !pass' })
    let v := if pass' then t else t.post ((unitFields u).headD 0) (2 + unitCode u * 2 ^ 8 + 2 * 2 ^ 24)
    selftestComplete u pass s = if (v.unit u).recon = 3 then v.reconEnd u pass' else v.reeveDone 6 u (if pass' then 0 else 7) :=
  if_neg (by simp [h])

theorem viewCompare_runs (hpower : s.powered = true) (hfull : s.minimal = false) :
    viewCompare s = allUnits.foldl (fun (t : State) u => t.compareUnit u) s := if_pos (by simp [hpower, hfull])

theorem viewCompare_rests (h : s.powered = false ∨ s.minimal = true) : viewCompare s = s :=
  if_neg (by rcases h with h | h <;> simp [h])

/-- What a unit that has failed and was fenced t nanoseconds into system time does 20 µs later. -/
theorem failPowerCheck_fenced {t : Nat} (h : (s.unit u).failFence = some t) :
    let v := s.modUnit u (fun x => { x with failFence := none })
    failPowerCheck u s = if s.time < t + 20000 then s
      else if v.pathView u = .serving then State.switchOff (match (generalizing := false) u with | .furrow n => v.dropOps n | _ => v) u else v := by
  simp only [failPowerCheck, h] <;> rfl

/-- Settles O44: the six Reeve commands by sender, then the ends of a power-on, of a self-test and of a fence, and the comparison. -/
theorem reevesAndViews : Obligations.ReevesAndViews := by
  refine ⟨fun f u s p hp => ?_, fun d s => ⟨fun h => answer_of_eq (domainOnComplete_not d h), fun h => answer_of_eq (if_pos h)⟩,
    fun u pass s => ⟨fun h => answer_of_eq (selftestComplete_idle pass h), fun h => answer_of_eq (selftestComplete_testing pass h)⟩,
    fun s => ⟨fun hagain => answer_of_eq (every_again _ hagain), fun hnew => ?_⟩, fun u t s h => answer_of_eq (failPowerCheck_fenced h)⟩
  · have hreeve := fun who => reeve_command f u s who p hp
    refine ⟨fun sl => hreeve (.bound sl), fun hfallow => ?_, fun hnormal => ?_, hreeve .hmp⟩
    · exact (hreeve .supervisor).trans (answer_of_eq ((reeveCore_eq s f.val p.1 u).trans (if_pos hfallow)))
    · exact (hreeve .supervisor).trans (answer_of_eq ((reeveCore_eq s f.val p.1 u).trans (if_neg (ne_true_of_eq_false hnormal))))
  · have hfirst := every_first viewCompare (duty := 0) hnew
    exact ⟨fun hpower hfull => answer_of_eq (hfirst.trans (viewCompare_runs hpower hfull)),
      fun hrest => answer_of_eq (hfirst.trans (viewCompare_rests hrest))⟩

end

/-! ### Fallow mode -/

section
variable {s : State} {who : Who}

theorem enterFallow_again (cause : FallowCause) (h : s.fallow = true) : s.enterFallow cause = s := if_pos h

/-- Entry latches every queue's tail and records its cause. -/
theorem enterFallow_enters (cause : FallowCause) (h : s.fallow = false) :
    let tails := (List.range 256).foldl (fun t i => Table.set t i (s.rdf (cq .frwCqTail (i / 4) (i % 4)) 11 0)) []
    s.enterFallow cause = ({ s with fallowTails := tails, beatSince := false }.wrf ⟨.chpFallow, 0, 0, 0⟩ 0 0 1).record 0x12 2 0xFFFF
      (toBytes 1 (fallowCode cause)) := if_neg (ne_true_of_eq_false h)

theorem fallowExit_leaves (hwho : who = .supervisor) (hfallow : s.fallow = true) (hbeat : s.beatSince = true) : fallowExit who s =
    ({ s with fallowTails := [] }.wrf ⟨.chpFallow, 0, 0, 0⟩ 0 0 0).record 0x12 0 0xFFFF [0] := if_pos (by simp [hwho, hfallow, hbeat])

theorem fallowExit_stays (h : who ≠ .supervisor ∨ s.fallow = false ∨ s.beatSince = false) : fallowExit who s = s :=
  if_neg (by rcases h with h | h | h <;> simp [h])

theorem coreMachineCheck_off {c : CoreId} (cause : Word) (h : s.domainOn (96 + c.val) = false) : coreMachineCheck c cause s = s :=
  if_pos (by simp [unitDomain, h])

/-- A core's machine check is recorded and reported, and may be the last of them. -/
theorem coreMachineCheck_on {c : CoreId} (cause : Word) (h : s.domainOn (96 + c.val) = true) :
    let u : UnitId := .core c
    let t := ((s.modUnit u (fun x => { x with failed := true })).record 0x05 2 (unitCode u) (toBytes 8 cause.toNat)).post
      ((unitFields u).headD 0) (2 + unitCode u * 2 ^ 8 + 2 ^ 24)
    coreMachineCheck c cause s = if t.coresStopped then t.enterFallow .machineChecks else t := if_neg (by simp [unitDomain, h])

/-- Settles O45: the ways into Fallow mode and out of it, and a core's machine check. -/
theorem fallowMode : Obligations.FallowMode := by
  refine ⟨fun s => ⟨rfl, rfl, rfl, rfl, fun h => answer_of_eq (enterFallow_again .command h), fun h => answer_of_eq (enterFallow_enters .command h)⟩,
    fun who s => ⟨fun hwho hfallow hbeat => answer_of_eq (fallowExit_leaves hwho hfallow hbeat), fun h => answer_of_eq (fallowExit_stays h)⟩,
    fun c cause s => ⟨fun h => answer_of_eq (coreMachineCheck_off cause h), fun h => answer_of_eq (coreMachineCheck_on cause h)⟩⟩

end

end Sys2Proof.Machine

/-! The HMP commands that read and set (R403, R406, R407). -/

namespace Sys2Proof.Machine

section
variable {s u : State} {c : Sender} {type n : Nat} {body : List Byte} {f : State → Nat × List Byte × State}

/-! ### How a command is taken -/

theorem hmpCommand_unopened (type : Nat) (f : State → Nat × List Byte × State) (h : s.session? c.val = none) : s.hmpCommand c type f = s :=
  if_pos (by simp [h])

theorem hmpCommand_busy (f : State → Nat × List Byte × State) (hopen : (s.session? c.val).isSome = true)
    (hbusy : s.hmpClear.takes c.val type = false) : s.hmpCommand c type f = s.hmpClear.hmpReply c type 5 [] := by
  have hsession : (s.session? c.val).isNone = false := by simpa using hopen
  simp only [State.hmpCommand, hsession, hbusy, Bool.not_false, Bool.false_eq_true, if_false, if_true]

/-- A command that is taken is answered with what it gives. -/
theorem hmpCommand_taken {code : Nat} {out : List Byte} (h : (s.session? c.val).isSome = true ∧ s.hmpClear.takes c.val type = true)
    (hf : f s.hmpClear = (code, out, u)) : s.hmpCommand c type f = u.hmpReply c type code out := by
  obtain ⟨hopen, htakes⟩ := h
  have hsession : (s.session? c.val).isNone = false := by simpa using hopen
  simp only [State.hmpCommand, hsession, htakes, hf, Bool.not_true, Bool.false_eq_true, if_false]

/-- A command whose body has another length than it needs is answered BAD_LENGTH. -/
theorem hmpCommand_badLength (f : State → Nat × List Byte × State)
    (h : (s.session? c.val).isSome = true ∧ s.hmpClear.takes c.val type = true) (hlen : body.length ≠ n) :
    s.hmpCommand c type (needs n body f) = s.hmpClear.hmpReply c type 2 [] := hmpCommand_taken h (if_neg hlen)

/-- A command with a body of its length is answered with what it gives. -/
theorem hmpCommand_fits {code : Nat} {out : List Byte} (h : (s.session? c.val).isSome = true ∧ s.hmpClear.takes c.val type = true)
    (hlen : body.length = n) (hf : f s.hmpClear = (code, out, u)) :
    s.hmpCommand c type (needs n body f) = u.hmpReply c type code out := hmpCommand_taken h ((if_pos hlen).trans hf)

/-- The commands that need a body of one length, with that length. (Noncomputable, as the compiler has no tag left for these constructors.) -/
noncomputable def fixedCommands (c : Sender) (body : List Byte) : List (Nat × Nat × Instr) :=
  [(0x01, 0, .hello c body), (0x02, 12, .csrRead c body), (0x03, 24, .csrWrite c body), (0x04, 16, .almanacRead c body),
    (0x06, 4, .unitStatus c body), (0x07, 8, .unitSet c body), (0x09, 12, .meterRead c body), (0x0A, 12, .journalRead c body),
    (0x0E, 4, .sessionCfg c body), (0x1F, 0, .challenge c body)]

theorem exec_fixedCommand (s : State) {r : Nat × Nat × Instr} (hr : r ∈ fixedCommands c body) :
    ∃ f, exec r.2.2 s = answer (s.hmpCommand c r.1 (needs r.2.1 body f)) := by
  simp only [fixedCommands, List.mem_cons, List.not_mem_nil, or_false] at hr
  rcases hr with rfl | rfl | rfl | rfl | rfl | rfl | rfl | rfl | rfl | rfl <;> exact ⟨_, rfl⟩

theorem exec_anyCommand (s : State) {r : Nat × Nat × Instr} (hr : r ∈ (0x0B, 0, .powerCap c body) :: fixedCommands c body) :
    ∃ f, exec r.2.2 s = answer (s.hmpCommand c r.1 f) := by
  rcases List.mem_cons.mp hr with rfl | hfixed
  · exact ⟨_, rfl⟩
  · obtain ⟨f, hf⟩ := exec_fixedCommand s hfixed
    exact ⟨_, hf⟩

/-! ### UNIT_SET and POWER_CAP -/

/-- UNIT_SET of a unit: its view must be one it can take, and the unit neither under reconciliation nor FAILED. -/
theorem unitSet_named {x : UnitId} (h : (s.session? c.val).isSome = true ∧ s.hmpClear.takes c.val 0x07 = true) (hlen : body.length = 8)
    (hx : unitOfCode (leAt body 0 4) = some x) :
    let t := s.hmpClear
    unitSet c body s = if 2 < leAt body 4 4 then t.hmpReply c 0x07 3 []
      else if (t.unit x).recon != 0 then t.hmpReply c 0x07 5 []
      else if (t.unit x).mgmt = .failed then t.hmpReply c 0x07 7 []
      else (t.setView x (leAt body 4 4)).hmpReply c 0x07 0 [] := by
  dsimp only
  split_ifs with hview hrecon hfailed <;> refine hmpCommand_fits h hlen ?_
  · simp only [hx, hview, if_true]
  · simp only [hx, hview, hrecon, if_true, if_false]
  · simp only [hx, hview, hrecon, hfailed, Bool.false_eq_true, if_true, if_false]
  · simp only [hx, hview, hrecon, hfailed, Bool.false_eq_true, if_false]

/-- POWER_CAP: minimal-power mode at once, or caps of the package and of the slices its body lists. -/
theorem powerCap_taken (h : (s.session? c.val).isSome = true ∧ s.hmpClear.takes c.val 0x0B = true) :
    let t := s.hmpClear
    let w := leAt body 0 4
    let n := bits w 31 24
    let cap := bits w 15 0
    powerCap c body s = if body.length < 4 then t.hmpReply c 0x0B 2 []
      else if w.testBit 16 then (t.minimalPower 9).hmpReply c 0x0B 0 []
      else if 64 < n then t.hmpReply c 0x0B 3 []
      else if body.length ≠ 4 + 4 * n then t.hmpReply c 0x0B 2 []
      else if cap < 300 ∨ 820 < cap then t.hmpReply c 0x0B 3 []
      else ((t.wrf ⟨.tltPkgCap, 0, 0, 0⟩ 15 0 cap).setSliceCaps body n).hmpReply c 0x0B 0 [] := by
  dsimp only
  split_ifs with hshort hmin hmany hlen hout <;> refine hmpCommand_taken h ?_
  · exact if_pos hshort
  · exact (if_neg hshort).trans (if_pos hmin)
  all_goals refine (if_neg hshort).trans ((if_neg hmin).trans ?_)
  · exact if_pos hmany
  all_goals refine (if_neg hmany).trans ?_
  · exact if_pos (bne_iff_ne.mpr hlen)
  all_goals refine (if_neg (mt bne_iff_ne.mp hlen)).trans ?_
  · exact if_pos (by simpa using hout)
  · exact if_neg (by simpa using hout)

/-! ### The obligation -/

/-- Settles O46: how every command is taken; then each of them, by what its body asks for. -/
theorem hmpCommands : Obligations.HmpCommands := by
  intro c body s
  refine ⟨fun r hr hnone => ?_, fun r hr hopen hbusy => ?_, fun r hr htaken hlen => ?_, fun h hb => answer_of_eq (hmpCommand_fits h hb rfl),
    fun h hb => ⟨fun hbad => ?_, fun hgood => ?_⟩, fun h hb => ⟨fun hbad => ?_, fun hgood hnone => ?_, fun r hgood hr => ?_⟩,
    fun h hb => ⟨fun hbad => ?_, fun hregion hone hmost => ?_⟩, fun h hb => ⟨fun hnone => ?_, fun u hu => ?_⟩,
    fun h hb => answer_of_eq (hmpCommand_fits h hb rfl), fun h hb => ⟨fun hnone => ?_, fun u hu => ?_⟩, fun h hb => ⟨fun hbad => ?_, fun hgood => ?_⟩,
    fun h hb => ⟨fun hbad => ?_, fun hgood hnone => ?_, fun j hgood hj => ?_⟩, fun h hb => answer_of_eq (hmpCommand_fits h hb rfl), fun h => ?_⟩
  · obtain ⟨f, hf⟩ := exec_anyCommand s hr
    exact hf.trans (answer_of_eq (hmpCommand_unopened r.1 f hnone))
  · obtain ⟨f, hf⟩ := exec_anyCommand s hr
    exact hf.trans (answer_of_eq (hmpCommand_busy f hopen hbusy))
  · obtain ⟨f, hf⟩ := exec_fixedCommand s hr
    exact hf.trans (answer_of_eq (hmpCommand_badLength f htaken hlen))
  · exact answer_of_eq (hmpCommand_fits h hb (if_pos hbad))
  · exact answer_of_eq (hmpCommand_fits h hb (if_neg (ne_true_of_eq_false hgood)))
  · exact answer_of_eq (hmpCommand_fits h hb (if_pos hbad))
  · refine answer_of_eq (hmpCommand_fits h hb ((if_neg (ne_true_of_eq_false hgood)).trans ?_))
    simp only [hnone]
    rfl
  · refine answer_of_eq (hmpCommand_fits h hb ((if_neg (ne_true_of_eq_false hgood)).trans ?_))
    simp only [hr]
    rfl
  · exact answer_of_eq (hmpCommand_fits h hb (if_pos (by simpa [or_assoc] using hbad)))
  · refine answer_of_eq (hmpCommand_fits h hb (if_neg ?_))
    simp only [Bool.or_eq_true, decide_eq_true_eq]
    omega
  · refine answer_of_eq (hmpCommand_fits h hb ?_)
    simp only [hnone]
    rfl
  · refine answer_of_eq (hmpCommand_fits h hb ?_)
    simp only [hu]
    rfl
  · refine answer_of_eq (hmpCommand_fits h hb ?_)
    simp only [hnone]
    rfl
  · have hset := unitSet_named h hb hu
    refine ⟨fun hview => answer_of_eq (hset.trans (if_pos hview)), fun hview hrecon => ?_, fun hview hidle hfailed => ?_, fun hview hidle hlive => ?_⟩
    all_goals replace hset := hset.trans (if_neg (not_lt.mpr hview))
    · exact answer_of_eq (hset.trans (if_pos (bne_iff_ne.mpr hrecon)))
    · exact answer_of_eq (hset.trans ((if_neg (fun hne => bne_iff_ne.mp hne hidle)).trans (if_pos hfailed)))
    · exact answer_of_eq (hset.trans ((if_neg (fun hne => bne_iff_ne.mp hne hidle)).trans (if_neg hlive)))
  · exact answer_of_eq (hmpCommand_fits h hb (if_pos hbad))
  · exact answer_of_eq (hmpCommand_fits h hb (if_neg (not_le.mpr hgood)))
  · exact answer_of_eq (hmpCommand_fits h hb (if_pos hbad))
  · have hfind : s.hmpClear.jnlFind (leAt body 0 4) (fun r => r.phase != 0 && r.request == wordAt body 4) = none := hnone
    refine answer_of_eq (hmpCommand_fits h hb ((if_neg (not_le.mpr hgood)).trans ?_))
    simp only [hfind]
    rfl
  · have hfind : s.hmpClear.jnlFind (leAt body 0 4) (fun r => r.phase != 0 && r.request == wordAt body 4) = some j := hj
    refine answer_of_eq (hmpCommand_fits h hb ((if_neg (not_le.mpr hgood)).trans ?_))
    simp only [hfind]
    rfl
  · have hcap := powerCap_taken (body := body) h
    refine ⟨fun hshort => answer_of_eq (hcap.trans (if_pos hshort)), fun hlong hmin => ?_,
      fun hlong hmin => ⟨fun hmany => ?_, fun hfew hlen => ?_, fun hfew hlen hout => ?_, fun hfew hlen hlow hhigh => ?_⟩⟩
    all_goals replace hcap := hcap.trans (if_neg (not_lt.mpr hlong))
    · exact answer_of_eq (hcap.trans (if_pos hmin))
    all_goals replace hcap := hcap.trans (if_neg (ne_true_of_eq_false hmin))
    · exact answer_of_eq (hcap.trans (if_pos hmany))
    all_goals replace hcap := hcap.trans (if_neg (not_lt.mpr hfew))
    · exact answer_of_eq (hcap.trans (if_pos hlen))
    all_goals replace hcap := hcap.trans (if_neg (not_not.mpr hlen))
    · exact answer_of_eq (hcap.trans (if_pos hout))
    · exact answer_of_eq (hcap.trans (if_neg (by omega)))

end

end Sys2Proof.Machine

/-! HMP sessions and queued operations (R397, R403 to R412), and security (R424 to R432). -/

namespace Sys2Proof

/-- What a table holds at a place just written. -/
theorem Table.find_set_self {α : Type} (t : Table α) (k : Nat) (v : α) : Table.find (Table.set t k v) k = some v := by
  induction t with
  | nil => simp [Table.set, Table.find]
  | cons p t ih =>
    obtain ⟨j, u⟩ := p
    simp only [Table.set]
    split
    · simp [Table.find]
    · next hne =>
      split
      · simp [Table.find]
      · have hskip : Table.find ((j, u) :: Table.set t k v) k = Table.find (Table.set t k v) k := by
          simp [Table.find, hne]
        exact hskip.trans ih

namespace Machine

/-! ### Handshakes (R403) -/

section
variable {s : State}

theorem sessionOpen_unheard {toPort : Nat} {h : Handshake}
    (hno : s.headlandUp = false ∨ toPort ≠ s.tcpPort ∨ firstBelow 4 (fun c => !Table.has s.sessions c) = none) : sessionOpen toPort h s = s := by
  rcases hno with hdown | hport | hfull
  · exact if_pos (by simp [hdown])
  · exact if_pos (by simp [hport])
  · simp only [sessionOpen, hfull, ite_self]

/-- The state once a handshake has failed. -/
def State.handshakeFailed (s : State) : State := { s with handshakeFails := s.handshakeFails + 1 }

/-- A handshake at Headland's port that offers all it must opens a session at the first free place. -/
theorem sessionOpen_opens {toPort c : Nat} {h : Handshake} (hup : s.headlandUp = true) (hport : toPort = s.tcpPort)
    (hplace : firstBelow 4 (fun c => !Table.has s.sessions c) = some c) (hgood : s.admits h = true) : sessionOpen toPort h s =
      { s with drawn := s.drawn + 1,
               sessions := Table.set s.sessions c { key := s.almanac.key, secret := Config.sessionSecret s.almanac.key s.drawn } } := by
  have hgo : (!s.headlandUp || toPort != s.tcpPort) = false := by simp [hup, hport]
  simp only [sessionOpen, hgo, hplace, hgood, Bool.false_eq_true, if_false, if_true]

/-- A failed handshake within a minute of the last record of one is only counted. -/
theorem sessionOpen_counts {toPort c a : Nat} {h : Handshake} (hup : s.headlandUp = true) (hport : toPort = s.tcpPort)
    (hplace : firstBelow 4 (fun c => !Table.has s.sessions c) = some c) (hbad : s.admits h = false) (ha : s.handshakeRec = some a)
    (hsoon : s.time < a + 60000000000) : sessionOpen toPort h s = s.handshakeFailed := by
  have hgo : (!s.headlandUp || toPort != s.tcpPort) = false := by simp [hup, hport]
  have hquiet : decide (a + 60000000000 ≤ s.time) = false := decide_eq_false (not_le.mpr hsoon)
  simp only [sessionOpen, hgo, hplace, hbad, ha, hquiet, Bool.false_eq_true, if_false, State.handshakeFailed]

/-- A failed handshake with no record in the last minute is counted and recorded. -/
theorem sessionOpen_records {toPort c : Nat} {h : Handshake} (hup : s.headlandUp = true) (hport : toPort = s.tcpPort)
    (hplace : firstBelow 4 (fun c => !Table.has s.sessions c) = some c) (hbad : s.admits h = false)
    (hlate : ∀ a, s.handshakeRec = some a → a + 60000000000 ≤ s.time) : sessionOpen toPort h s =
      { s.handshakeFailed with handshakeRec := some s.time }.record 0x0E 1 0xFFFF (toBytes 1 1 ++ toBytes 7 s.handshakeFailed.handshakeFails) := by
  have hgo : (!s.headlandUp || toPort != s.tcpPort) = false := by simp [hup, hport]
  cases hrec : s.handshakeRec with
  | none => simp only [sessionOpen, hgo, hplace, hbad, hrec, Bool.false_eq_true, if_false, if_true, State.handshakeFailed]
  | some a =>
    have hdue : decide (a + 60000000000 ≤ s.time) = true := decide_eq_true (hlate a hrec)
    simp only [sessionOpen, hgo, hplace, hbad, hrec, hdue, Bool.false_eq_true, if_false, if_true, State.handshakeFailed]

/-- What a handshake must offer, R403's list. -/
theorem admits_iff (s : State) (h : Handshake) : s.admits h = true ↔ h.pskDhe = true ∧ h.p384 = true ∧ h.aes256 = true ∧ h.beyond = false ∧
    h.key = s.almanac.key ∧ h.identity = toBytes 8 (s.rd ⟨.chpSerial, 0, 0, 0⟩).toNat ++ toBytes 2 s.node := by
  simp [State.admits, and_assoc]

/-! ### Messages of a session (R404, R406) -/

variable {c : Sender} {type : Nat} {body : List Byte}

/-- A message of an open session carries its tag, and the session counts it. -/
theorem hmpReply_open {x : Session} (code : Nat) (out : List Byte) (hx : s.session? c.val = some x) :
    s.hmpReply c type code out = { s with
      sessions := Table.set s.sessions c.val { x with carried := x.carried + 1 },
      hmpSent := s.hmpSent ++ [⟨c.val, type, code, c.seq, out, Config.sessionTag x.secret x.carried (hmpBytes type code c.seq out)⟩] } := by
  have hfind : Table.find s.sessions c.val = some x := hx
  simp only [State.hmpReply, State.hmpSend, hfind]

/-- A session that is open is there. -/
theorem session_isNone (hopen : (s.session? c.val).isSome = true) : (s.session? c.val).isNone = false := by simpa using hopen

/-- What a malformed message of an open session is answered with. -/
theorem hmpBadMessage_open {version length : Nat} (hopen : (s.session? c.val).isSome = true) : hmpBadMessage c type version length s =
    if !hmpType type || version != 1 then s.hmpClear.hmpReply c type 1 []
    else if (if type = 0x11 then 1048640 else 65536) < length then s.hmpClear.hmpReply c type 2 [] else s :=
  if_neg (ne_true_of_eq_false (session_isNone hopen))

theorem hmpBadMessage_none {version length : Nat} (h : s.session? c.val = none) : hmpBadMessage c type version length s = s :=
  if_pos (by simp [h])

/-! ### Reconciliation (R411) -/

/-- UNIT_RECONCILE refused with a code, by a session whose commands are taken. -/
theorem reconcile_refused {code : Nat} (hopen : (s.session? c.val).isSome = true) (htakes : s.takes c.val 0x08 = true) :
    s.hmpCommand c 0x08 (fun t => (code, [], t)) = s.hmpClear.hmpReply c 0x08 code [] :=
  hmpCommand_taken ⟨hopen, htakes⟩ rfl

/-- UNIT_RECONCILE from a session that has too much outstanding, or in a mode that does not serve it. -/
theorem unitReconcile_busy (hopen : (s.session? c.val).isSome = true) (hbusy : s.takes c.val 0x08 = false) :
    unitReconcile c body s = s.hmpClear.hmpReply c 0x08 5 [] := by
  have hrefuse : ∀ code, s.hmpCommand c 0x08 (fun t => (code, [], t)) = s.hmpClear.hmpReply c 0x08 5 [] := fun code =>
    hmpCommand_busy _ hopen hbusy
  simp only [unitReconcile, hrefuse, hbusy, Bool.not_false, Bool.or_true, if_true]
  split
  · rfl
  · split <;> rfl

/-- UNIT_RECONCILE that is taken: its body names a unit that must be FAILED and not under reconciliation. -/
theorem unitReconcile_taken (hopen : (s.session? c.val).isSome = true) (htakes : s.takes c.val 0x08 = true) (hlen : body.length = 4) :
    unitReconcile c body s = match unitOfCode (leAt body 0 4) with
      | none => s.hmpClear.hmpReply c 0x08 3 []
      | some u => if (s.unit u).recon != 0 then s.hmpClear.hmpReply c 0x08 5 []
        else if (s.unit u).mgmt != .failed then s.hmpClear.hmpReply c 0x08 3 []
        else s.hmpClear.reconcile u (some c) := by
  have hlen' : (body.length != 4) = false := by simp [hlen]
  have hready : ((s.session? c.val).isNone || !s.takes c.val 0x08) = false := by rw [session_isNone hopen, htakes]; rfl
  simp only [unitReconcile, hlen', hready, reconcile_refused hopen htakes, Bool.false_eq_true, if_false] <;> rfl

/-! ### Queued operations (R430, R432) -/

/-- An operation that a session submits is refused or joins the queue. -/
theorem hmpSubmit_open (lengthOk : Bool) (o : SecOp) (hopen : (s.session? c.val).isSome = true) : s.hmpSubmit c type lengthOk o =
    if !s.takes c.val type then s.hmpClear.hmpReply c type 5 []
    else if !lengthOk then s.hmpClear.hmpReply c type 2 []
    else s.hmpClear.secSubmit o := if_neg (ne_true_of_eq_false (session_isNone hopen))

/-- A session stays open while one of its fields changes. -/
theorem session?_modSession_isSome (g : Session → Session) (h : (s.session? c.val).isSome = true) :
    ((s.modSession c.val g).session? c.val).isSome = true := by
  obtain ⟨x, hx⟩ := Option.isSome_iff_exists.mp h
  simp only [State.modSession, hx]
  exact Option.isSome_iff_exists.mpr ⟨g x, Table.find_set_self ..⟩

/-- What a session has outstanding does not lie in the session. -/
theorem takes_modSession (g : Session → Session) : (s.modSession c.val g).takes c.val type = s.takes c.val type := by
  simp only [State.modSession]
  split <;> rfl

theorem hmpClear_modSession (g : Session → Session) : (s.modSession c.val g).hmpClear = s.hmpClear.modSession c.val g := by
  have hsame : s.hmpClear.session? c.val = s.session? c.val := rfl
  simp only [State.modSession, hsame]
  split <;> rfl

/-- The greatest length of a protected command's body. -/
def protectedLimit (type : Nat) : Nat := if type = 0x11 then 1048640 else 65536

/-- A protected command that is taken consumes the session's challenge as it joins the queue. -/
theorem protectedCommand_taken (hopen : (s.session? c.val).isSome = true) (htakes : s.takes c.val type = true)
    (hfits : body.length ≤ protectedLimit type) : s.protectedCommand c type body =
      (s.hmpClear.modSession c.val (fun x => { x with challenge := none })).secSubmit (.hmp c type body (s.liveChallenge c.val)) := by
  have hfits' : body.length ≤ (if type = 0x11 then 1048640 else 65536) := hfits
  have hgo : (s.takes c.val type && decide (body.length ≤ (if type = 0x11 then 1048640 else 65536))) = true := by simp [htakes, hfits']
  refine (if_pos hgo).trans ((hmpSubmit_open _ _ (session?_modSession_isSome _ hopen)).trans ?_)
  rw [takes_modSession, htakes, hmpClear_modSession]
  exact (if_neg (by decide)).trans (if_neg (by simp [hfits']))

/-- A protected command that is not taken, or is too long, is refused and consumes nothing. -/
theorem protectedCommand_refused (hopen : (s.session? c.val).isSome = true)
    (hno : ¬ (s.takes c.val type = true ∧ body.length ≤ protectedLimit type)) : s.protectedCommand c type body =
      if !s.takes c.val type then s.hmpClear.hmpReply c type 5 [] else s.hmpClear.hmpReply c type 2 [] := by
  have hgo : ¬ (s.takes c.val type && decide (body.length ≤ (if type = 0x11 then 1048640 else 65536))) = true := by
    simpa [protectedLimit] using hno
  refine (if_neg hgo).trans ((hmpSubmit_open _ _ hopen).trans ?_)
  cases htakes : s.takes c.val type with
  | false => rfl
  | true =>
    have hlong : (decide (body.length ≤ (if type = 0x11 then 1048640 else 65536))) = false := by simpa [htakes] using hgo
    rw [hlong]
    rfl

/-- Settles O47: handshakes, the messages of a session, time from the management network, reconciliation and queued operations. -/
theorem hmpSessions : Obligations.HmpSessions := by
  refine ⟨fun toPort h s => ⟨fun hno => answer_of_eq (sessionOpen_unheard hno), fun c hup hport hplace => ?_⟩, fun c type code out s x hx => ?_,
    fun c s => rfl, fun c type version length s => ⟨fun hfine => ?_, fun hopen => ⟨fun hbad => ?_, fun htype hversion hlong => ?_⟩⟩, fun s => rfl,
    fun d s => ?_, fun c body s hopen => ⟨fun hbusy => answer_of_eq (unitReconcile_busy hopen hbusy), fun htakes => ?_⟩, fun c body s hopen => ?_⟩
  · refine ⟨fun hgood => answer_of_eq (sessionOpen_opens hup hport hplace ((admits_iff s h).mpr hgood)), fun hbad => ?_⟩
    have hrefused : s.admits h = false := Bool.eq_false_iff.mpr (mt (admits_iff s h).mp hbad)
    exact ⟨fun a ha hsoon => answer_of_eq (sessionOpen_counts hup hport hplace hrefused ha hsoon),
      fun hlate => answer_of_eq (sessionOpen_records hup hport hplace hrefused hlate)⟩
  · rw [hmpReply_open code out hx]
    exact ⟨rfl, Table.find_set_self ..⟩
  · rcases hfine with hnone | ⟨htype, hversion, hlen⟩
    · exact answer_of_eq (hmpBadMessage_none hnone)
    · cases hsession : s.session? c.val with
      | none => exact answer_of_eq (hmpBadMessage_none hsession)
      | some x =>
        refine answer_of_eq ((hmpBadMessage_open (by simp [hsession])).trans ((if_neg (by simp [htype, hversion])).trans (if_neg ?_)))
        exact not_lt.mpr hlen
  · refine answer_of_eq ((hmpBadMessage_open hopen).trans (if_pos ?_))
    rcases hbad with h | h <;> simp [h]
  · exact answer_of_eq ((hmpBadMessage_open hopen).trans ((if_neg (by simp [htype, hversion])).trans (if_pos hlong)))
  · refine answer_of_eq ?_
    simp only [ptpMessage, Bool.and_eq_true]
  · refine ⟨fun hlen => ?_, fun hlen hnone => ?_, fun u hlen hu => ?_⟩
    · exact answer_of_eq ((if_pos (bne_iff_ne.mpr hlen)).trans (reconcile_refused hopen htakes))
    · refine answer_of_eq ((unitReconcile_taken hopen htakes hlen).trans ?_)
      simp only [hnone] <;> rfl
    · have hunit := unitReconcile_taken hopen htakes hlen
      simp only [hu] at hunit
      refine ⟨fun hrecon => answer_of_eq (hunit.trans (if_pos (bne_iff_ne.mpr hrecon))), fun hidle hlive => ?_, fun hidle hfailed => ?_⟩
      all_goals replace hunit := hunit.trans (if_neg (fun hne => bne_iff_ne.mp hne hidle))
      · exact answer_of_eq (hunit.trans (if_pos (bne_iff_ne.mpr hlive)))
      · exact answer_of_eq (hunit.trans (if_neg (fun hne => bne_iff_ne.mp hne hfailed)))
  · have hattest : attest c body s = _ := hmpSubmit_open (type := 0x10) (decide (body.length = 48)) (.report (some c) 0 body) hopen
    refine ⟨fun hbusy => answer_of_eq (hattest.trans (if_pos ?_)), fun htakes hlen => answer_of_eq (hattest.trans ((if_neg ?_).trans (if_pos ?_))),
      fun htakes hlen => answer_of_eq (hattest.trans ((if_neg ?_).trans (if_neg ?_))), fun p hp => ?_⟩
    · exact congrArg (!·) hbusy
    · exact ne_true_of_eq_false (congrArg (!·) htakes)
    · simpa using hlen
    · exact ne_true_of_eq_false (congrArg (!·) htakes)
    · simpa using hlen
    · have hcommand : exec p.2 s = answer (s.protectedCommand c p.1 body) := by
        simp only [List.mem_cons, List.not_mem_nil, or_false] at hp
        rcases hp with rfl | rfl | rfl | rfl | rfl | rfl <;> rfl
      refine ⟨fun hbusy => hcommand.trans (answer_of_eq ((protectedCommand_refused hopen ?_).trans (if_pos ?_))),
        fun htakes hlong => hcommand.trans (answer_of_eq ((protectedCommand_refused hopen ?_).trans (if_neg ?_))),
        fun htakes hfits => hcommand.trans (answer_of_eq (protectedCommand_taken hopen htakes hfits))⟩
      · exact fun h => ne_true_of_eq_false hbusy h.1
      · exact congrArg (!·) hbusy
      · exact fun h => hlong h.2
      · exact fun h => ne_true_of_eq_false (congrArg (!·) htakes) h

end

/-! ### The security mailbox (R424 to R427) -/

section
variable {s : State} {who : Who}

theorem mailbox_unheard (cmd : Nat) (h : who ≠ .supervisor) : s.mailbox who cmd = s := if_pos (bne_iff_ne.mpr h)

theorem mailbox_busy (cmd : Nat) (h : who = .supervisor) (hbusy : s.rdb ⟨.secMboxStatus, 0, 0, 0⟩ 8 = true) :
    s.mailbox who cmd = s.wrf ⟨.secMboxStatus, 0, 0, 0⟩ 10 10 1 := (if_neg (by simp [h])).trans (if_pos hbusy)

/-- The state once the mailbox has taken a command. -/
def State.mailboxTaken (s : State) : State := { s.wrf ⟨.secMboxStatus, 0, 0, 0⟩ 8 8 1 with hmpSent := [] }

/-- A command of an idle mailbox joins the queue of operations. -/
theorem mailbox_idle (cmd : Nat) (h : who = .supervisor) (hidle : s.rdb ⟨.secMboxStatus, 0, 0, 0⟩ 8 = false) :
    let arg := s.rd ⟨.secMboxArg, 0, 0, 0⟩
    let t := s.mailboxTaken
    s.mailbox who cmd = if cmd = 4 then t.secSubmit (.report none (arg.toNat + 48) (t.mem.readBytes arg.toNat 48))
      else t.secSubmit (.mbox cmd arg) := (if_neg (by simp [h])).trans (if_neg (ne_true_of_eq_false hidle))

/-- A mailbox command that finds the queue empty runs at once. -/
theorem secSubmit_mbox (cmd : Nat) (arg : Word) (h : s.secQueue = []) :
    s.secSubmit (.mbox cmd arg) = (({ s with secQueue := [] } : State).mboxDo cmd arg).2.mboxDone
      (({ s with secQueue := [] } : State).mboxDo cmd arg).1 := by
  simp only [State.secSubmit, h, List.nil_append, List.length_singleton, State.secDrain, SecOp.isReport, Bool.false_eq_true, if_false,
    State.secRun]

/-- The mailbox commands that no report answers, with their codes. -/
theorem exec_mailboxCommand (who : Who) (s : State) :
    ∀ r ∈ ([(4, .quote who), (1, .verifyOs who), (2, .sowerLoad who), (3, .lockConfig who), (5, .measure who)] : List (Nat × Instr)),
      exec r.2 s = answer (s.mailbox who r.1) := by
  intro r hr
  simp only [List.mem_cons, List.not_mem_nil, or_false] at hr
  rcases hr with rfl | rfl | rfl | rfl | rfl <;> rfl

/-- QUOTE is the one command that a report answers. -/
theorem mailboxCommand_code :
    ∀ r ∈ ([(1, .verifyOs who), (2, .sowerLoad who), (3, .lockConfig who), (5, .measure who)] : List (Nat × Instr)), r.1 ≠ 4 := by
  simp

/-! ### The CONFIG lock, attestation and challenges (R428 to R432) -/

/-- The lock deadline of a chip whose cores were released. -/
theorem lockDeadlineExpiry_released {a : Nat} (h : s.hartFrom = some a) : lockDeadlineExpiry s =
    if s.locked || s.time < a + s.rdf ⟨.secLockCtl, 0, 0, 0⟩ 15 0 * 1000000 then s else s.setConfigLock.record 0x0E 1 0xFFFF [2] := by
  simp only [lockDeadlineExpiry, h] <;> rfl

theorem lockDeadlineExpiry_held (h : s.hartFrom = none) : lockDeadlineExpiry s = s := by
  simp only [lockDeadlineExpiry, h]

/-- A report at the head of the queue: refused, waiting for its bottom tree, or signed with a leaf committed before. -/
theorem attestationReport_report {x : Option Sender} {addr : Nat} {nonce : List Byte} {q : List SecOp}
    (h : s.secQueue = .report x addr nonce :: q) :
    let l := s.almanac.leaf
    let t : State := { s with hmpSent := [] }
    let u : State := { t with secQueue := q }
    let v := u.stateUpdate (fun a => { a with leaf := l + 1 })
    let body := v.reportBody x.isNone nonce l
    attestationReport s = if t.rdb ⟨.secStatus, 0, 0, 0⟩ 0 then (u.reportTo x addr 0xC7 []).secDrain q.length
      else if 1048576 ≤ l then (u.reportTo x addr 0xC6 []).secDrain q.length
      else if t.trees ≤ l / 1024 then t
      else (v.reportTo x addr 0 (body ++ Config.ecdsaSign (identityScalar v.almanac.boots) body ++
        Config.hssSign (identityHss v.almanac.boots) l body)).secDrain q.length := by
  simp only [attestationReport, h, State.hmpClear]

theorem attestationReport_other (h : ∀ x addr nonce q, s.secQueue ≠ .report x addr nonce :: q) : attestationReport s = s := by
  unfold attestationReport
  split
  · next hq => exact absurd hq (h _ _ _ _)
  · rfl

theorem challengeLapse_open {c : SessionId} {x : Session} {n : BitVec 384} {a : Nat} (hx : s.session? c.val = some x)
    (hn : x.challenge = some (n, a)) : challengeLapse c s =
      if a + 60000000000 ≤ s.time then s.modSession c.val (fun x => { x with challenge := none }) else s := by
  simp only [challengeLapse, hx, hn]

/-- Settles O48: the mailbox by its state, the lock deadline, the report at the head of the queue, trees and challenges. -/
theorem security : Obligations.Security := by
  refine ⟨fun who s => ⟨fun r hr => ?_, fun hwho hidle => ⟨?_, fun r hr => ?_, fun hempty r hr => ?_⟩⟩, fun s a ha => ?_,
    fun s x addr nonce q hq => ?_, fun s hother => answer_of_eq (attestationReport_other hother),
    fun s hheld => answer_of_eq (lockDeadlineExpiry_held hheld), fun s => rfl, fun c s x n a hx hn => answer_of_eq (challengeLapse_open hx hn)⟩
  · have hcommand := exec_mailboxCommand who s r hr
    exact ⟨fun hwho => hcommand.trans (answer_of_eq (mailbox_unheard r.1 hwho)),
      fun hwho hbusy => hcommand.trans (answer_of_eq (mailbox_busy r.1 hwho hbusy))⟩
  · exact answer_of_eq (mailbox_idle 4 hwho hidle)
  · have hcommand := exec_mailboxCommand who s r (List.mem_cons_of_mem _ hr)
    exact hcommand.trans (answer_of_eq ((mailbox_idle r.1 hwho hidle).trans (if_neg (mailboxCommand_code r hr))))
  · have hcommand := exec_mailboxCommand who s r (List.mem_cons_of_mem _ hr)
    have hidle' := (mailbox_idle r.1 hwho hidle).trans (if_neg (mailboxCommand_code r hr))
    simp only [List.mem_cons, List.not_mem_nil, or_false] at hr
    rcases hr with rfl | rfl | rfl | rfl <;>
      exact hcommand.trans (answer_of_eq (hidle'.trans (secSubmit_mbox _ _ hempty)))
  · have hdeadline := lockDeadlineExpiry_released ha
    refine ⟨fun hno => answer_of_eq (hdeadline.trans (if_pos ?_)), fun hopen hdue => answer_of_eq (hdeadline.trans (if_neg ?_))⟩
    · rcases hno with h | h <;> simp [h]
    · simp [hopen, hdue]
  · have hreport := attestationReport_report hq
    refine ⟨fun hfailed => answer_of_eq (hreport.trans (if_pos hfailed)), fun hfine hspent => ?_, fun hfine hleft hwait => ?_,
      fun hfine hleft hready => ?_⟩
    all_goals replace hreport := hreport.trans (if_neg (ne_true_of_eq_false hfine))
    · exact answer_of_eq (hreport.trans (if_pos hspent))
    · exact answer_of_eq (hreport.trans ((if_neg (not_le.mpr hleft)).trans (if_pos hwait)))
    · exact answer_of_eq (hreport.trans ((if_neg (not_le.mpr hleft)).trans (if_neg (not_le.mpr hready))))

end

end Machine

end Sys2Proof

/-! Operating bins, records and power loss (R447 to R462), and power (R466 to R482). -/

namespace Sys2Proof.Machine

section
variable {s : State}

/-! ### Operating bins (R447 to R450) -/

theorem exclusionRelease_none {u : UnitId} (h : (s.unit u).inBin = none) : exclusionRelease u s = s := by
  simp only [exclusionRelease, h]

/-- A unit that lay inside an excluded bin since a returns 100 ms later, if it is still fenced. -/
theorem exclusionRelease_inside {u : UnitId} {a : Nat} (h : (s.unit u).inBin = some a) :
    let t := s.modUnit u (fun x => { x with inBin := none, mgmt := .inService, lastCmd := some s.time })
    exclusionRelease u s = if s.time < a + 100000000 || (s.unit u).mgmt != .fenced then s
      else (if t.domainOn (unitDomain u) then t.unfenceUnit u else t).fenceRecord u 2 := by
  simp only [exclusionRelease, h]

/-! ### Trends (R451, R452) -/

/-- The state once a port's trend stands in the Almanac's queue. -/
def State.trendNoted (z : State) (p : PortId) (feed heater errors : List Nat) : State :=
  z.record 0x0B 0 (0x200 + p.val) ((List.range 9).flatMap (fun k =>
    toBytes 2 (feed.getD k 0) ++ toBytes 2 (heater.getD k 0) ++ toBytes 4 (errors.getD k 0)))

/-- The state once the first feed power of each wavelength is kept. -/
def State.feedKept (t : State) (p : PortId) (feed : List Nat) : State :=
  (List.range 9).foldl (fun (u : State) (k : Nat) => if Table.has u.trendFeed (9 * p.val + k) then u
    else { u with trendFeed := Table.set u.trendFeed (9 * p.val + k) (feed.getD k 0) }) t

/-- A wavelength's heater is near its end, or its feed has lost a fifth of its power. -/
def State.drifted (t : State) (p : PortId) (feed heater : List Nat) (k : Nat) : Bool :=
  decide (90 < heater.getD k 0) || (match Table.find t.trendFeed (9 * p.val + k) with
    | none => false
    | some w => decide (100 * feed.getD k 0 < 80 * w))

theorem trendRecord_off {p : PortId} (feed heater errors : List Nat) (h : s.domainOn (72 + p.val) = false) :
    trendRecord p feed heater errors s = s := if_pos (by simp [h])

/-- The trend of a port that is on, with a warning of the wavelengths that have drifted. -/
theorem trendRecord_on {p : PortId} (feed heater errors : List Nat) (h : s.domainOn (72 + p.val) = true) :
    let t := s.trendNoted p feed heater errors
    let warn := (List.range 9).filter (t.drifted p feed heater)
    trendRecord p feed heater errors s = if warn.isEmpty then t.feedKept p feed
      else (t.feedKept p feed).record 0x0A 1 (0x200 + p.val) (warn.flatMap (fun k => toBytes 1 k)) :=
  if_neg (by simp [h])

/-! ### The Almanac (R456 to R462) -/

theorem assertIrq_almanac (s : State) (i : Nat) : (s.assertIrq i).almanac = s.almanac := by
  obtain ⟨l, h, -⟩ := assertIrq_spec s i
  rw [h]

theorem assertIrq_sessions (s : State) (i : Nat) : (s.assertIrq i).sessions = s.sessions := by
  obtain ⟨l, h, -⟩ := assertIrq_spec s i
  rw [h]

/-- A commit writes the record, raises source 138 and tells the sessions that ask. -/
theorem commitRecord_eq (s : State) (r : AlmRec) :
    let a := s.almanac.commit s.node r
    s.commitRecord r = (s.sessions.filter (fun p => p.2.events)).foldl
      (fun (v : State) p => v.hmpTell p.1 0x81 (almRecord a.seq s.node a.boots r)) ({ s with almanac := a }.assertIrq 138) := by
  have hnode : ∀ t : State, (t.assertIrq 138).node = t.node := fun t => by
    obtain ⟨l, h, -⟩ := assertIrq_spec t 138
    rw [h]
    rfl
  simp only [State.commitRecord, assertIrq_almanac, assertIrq_sessions, hnode]
  rfl

theorem almanacCommit_idle (hdrops : s.almDrops = []) (hqueue : s.almQueue = []) : almanacCommit s = s := by
  simp only [almanacCommit, State.nextRecord, hdrops, hqueue, List.isEmpty_nil, if_true]

theorem almanacCommit_queued {r : AlmRec} {q : List AlmRec} (hdrops : s.almDrops = []) (hqueue : s.almQueue = r :: q) :
    almanacCommit s = State.commitRecord { s with almQueue := q, hmpSent := [] } r := by
  simp only [almanacCommit, State.nextRecord, hdrops, hqueue, List.isEmpty_nil, if_true, State.hmpClear]

/-- After any drop, what was lost comes first. -/
theorem almanacCommit_lost (hdrops : s.almDrops ≠ []) : almanacCommit s = State.commitRecord { s with almDrops := [], hmpSent := [] }
    { type := 0x14, severity := 1, time := s.time, body := s.almDrops.flatMap (fun p => toBytes 4 p.1 ++ toBytes 4 p.2) } := by
  have hsome : s.almDrops.isEmpty = false := by simpa using hdrops
  simp only [almanacCommit, State.nextRecord, hsome, Bool.false_eq_true, if_false, State.hmpClear]

/-- Settles O50: samples and summaries, each once in its period; the release of a unit; commits; power loss. -/
theorem binsAndRecords : Obligations.BinsAndRecords := by
  refine ⟨fun f celsius millivolt s => ⟨fun hagain => answer_of_eq (every_again _ hagain), fun hnew => answer_of_eq (every_first _ hnew)⟩,
    fun u s => ⟨fun h => answer_of_eq (exclusionRelease_none h), fun a h => ?_⟩, fun p feed heater errors s => ?_,
    fun s => ⟨fun hagain => answer_of_eq (every_again _ hagain), fun hnew => answer_of_eq (every_first _ hnew)⟩, fun s => ?_, fun s => rfl⟩
  · have hrelease := exclusionRelease_inside h
    refine ⟨fun hno => answer_of_eq (hrelease.trans (if_pos ?_)), fun hlate hfenced => answer_of_eq (hrelease.trans (if_neg ?_))⟩
    · rcases hno with h | h <;> simp [h]
    · simp [hlate, hfenced]
  · have hfirst := every_first (s := s) (duty := 448 + p.val) (period := s.rdf ⟨.chpRasBin, 0, 0, 0⟩ 39 32 * 3600000000000)
      (trendRecord p feed heater errors)
    have htrend := trendRecord_on (p := p) (s := { s with
      paced := Table.set s.paced (448 + p.val) (s.time / (s.rdf ⟨.chpRasBin, 0, 0, 0⟩ 39 32 * 3600000000000)) }) feed heater errors
    refine ⟨fun hagain => answer_of_eq (every_again _ (not_not.mp hagain)), fun hdue hoff => ?_, fun hdue hon hnone => ?_, fun hdue hon hsome => ?_⟩
    · exact answer_of_eq ((hfirst hdue).trans (trendRecord_off feed heater errors hoff))
    · exact answer_of_eq ((hfirst hdue).trans ((htrend hon).trans (if_pos (List.isEmpty_iff.mpr hnone))))
    · exact answer_of_eq ((hfirst hdue).trans ((htrend hon).trans (if_neg (mt List.isEmpty_iff.mp hsome))))
  · refine ⟨fun hdrops hqueue => answer_of_eq (almanacCommit_idle hdrops hqueue), fun r q hdrops hqueue => ?_, fun hdrops => ?_⟩
    · exact answer_of_eq ((almanacCommit_queued hdrops hqueue).trans (commitRecord_eq _ r))
    · exact answer_of_eq ((almanacCommit_lost hdrops).trans (commitRecord_eq _ _))

/-! ### Rails (R466, R467) -/

/-- A record of power leaves system time and the rails' faults as they are. -/
theorem powerRecord_rails (s : State) (event index field value : Nat) :
    (s.powerRecord event index field value).time = s.time ∧ (s.powerRecord event index field value).railBad = s.railBad := by
  obtain ⟨q, d, c, k, p, h⟩ := powerRecord_spec s event index field value
  rw [h]
  exact ⟨rfl, rfl⟩

/-- The state once a transaction with a rail's regulator has failed with all its retries. -/
def State.railFailed (s : State) (rail : Nat) : State := (s.bump ⟨.tltPmbErrCnt, 0, 0, 0⟩).powerRecord 8 rail 0xFF 0

theorem railFailed_rails (s : State) (rail : Nat) : (s.railFailed rail).time = s.time ∧ (s.railFailed rail).railBad = s.railBad := by
  obtain ⟨htime, hbad⟩ := powerRecord_rails (s.bump ⟨.tltPmbErrCnt, 0, 0, 0⟩) 8 rail 0xFF 0
  obtain ⟨v, k, h⟩ := count_spec s ⟨.tltPmbErrCnt, 0, 0, 0⟩ 31 0 1
  have hbump : s.bump ⟨.tltPmbErrCnt, 0, 0, 0⟩ = { s with csr := csrSet s.csr ⟨.tltPmbErrCnt, 0, 0, 0⟩ v, freeCount := k } := h
  rw [hbump] at htime hbad
  simp only [State.railFailed, hbump]
  exact ⟨htime, hbad⟩

theorem pmbusTransaction_passes {rail : Fin 8} {passed : Bool} {retries : List Bool} (h : (passed || (retries.take 3).any id) = true) :
    pmbusTransaction rail passed retries s = { s with railBad := Table.erase s.railBad rail.val } := if_pos h

/-- A transaction that fails with its retries: a vital rail that has failed for 100 ms ends normal operation. -/
theorem pmbusTransaction_fails {rail : Fin 8} {passed : Bool} {retries : List Bool} (h : (passed || (retries.take 3).any id) = false) :
    let since := (Table.find s.railBad rail.val).getD s.time
    let t : State := { s.railFailed rail.val with railBad := Table.set s.railBad rail.val since }
    pmbusTransaction rail passed retries s = if vitalRail rail.val && since + 100000000 ≤ s.time then t.minimalPower 8 else t := by
  have hrun : pmbusTransaction rail passed retries s =
      (let u := s.railFailed rail.val
       let since := (Table.find u.railBad rail.val).getD u.time
       let t : State := { u with railBad := Table.set u.railBad rail.val since }
       if vitalRail rail.val && since + 100000000 ≤ u.time then t.minimalPower 8 else t) := if_neg (ne_true_of_eq_false h)
  obtain ⟨htime, hbad⟩ := railFailed_rails s rail.val
  rw [hrun]
  simp only [htime, hbad]

theorem smbalert_fault {rail : Fin 8} {status : Word} (h : fld status 15 0 ≠ 0) :
    let t := s.powerRecord 7 rail.val 0xFF (fld status 15 0)
    smbalert rail status s = if vitalRail rail.val then t.minimalPower 7 else t := if_neg h

/-! ### Tilth and clocks (R470 to R477) -/

/-- A calibration scales the estimates by what the rails carry, unless either is zero. -/
theorem tilthCalibrate_eq (milliamp : List Nat) (s : State) :
    let real := ((List.range 7).map (fun r => milliamp.getD r 0 * s.railMillivolt r / 1000)).sum
    tilthCalibrate milliamp s = if s.packageNow = 0 ∨ real = 0 then s
      else { s with calibration := max 1 (s.calibration * real / s.packageNow) } := by
  simp only [tilthCalibrate, Bool.or_eq_true, decide_eq_true_eq]

/-- VDD_CORE returns to its full setting when a Field must run fast, or on request. -/
theorem vcoreSettingChange_low (h : s.rdb ⟨.clkVcore, 0, 0, 0⟩ 0 = true) : vcoreSettingChange s =
    if !s.rdb ⟨.clkVcore, 0, 0, 0⟩ 1 || (List.range 4).any (fun f => s.aclkWanted f = 0) then
      ((s.wrf ⟨.clkVcore, 0, 0, 0⟩ 0 0 0).powerRecord 4 0 0xFF 750).setClocks
    else s := if_pos h

theorem vcoreSettingChange_fast (h : s.rdb ⟨.clkVcore, 0, 0, 0⟩ 0 = false) (hslow : s.slowSince = none) : vcoreSettingChange s = s := by
  simp only [vcoreSettingChange, h, hslow, Bool.false_eq_true, if_false]

/-- VDD_CORE falls once every Field has been slow for 10 ms, where that is allowed. -/
theorem vcoreSettingChange_slow {a : Nat} (h : s.rdb ⟨.clkVcore, 0, 0, 0⟩ 0 = false) (hslow : s.slowSince = some a) : vcoreSettingChange s =
    if s.rdb ⟨.clkVcore, 0, 0, 0⟩ 1 && a + 10000000 ≤ s.time then (s.wrf ⟨.clkVcore, 0, 0, 0⟩ 0 0 1).powerRecord 4 0 0xFF 700 else s := by
  simp only [vcoreSettingChange, h, hslow, Bool.false_eq_true, if_false]

/-! ### Temperature (R475, R482) -/

/-- The hottest of the samples, in degrees. -/
def hottest (celsius : List Int) : Int := celsius.foldl (fun (m x : Int) => max m x) 0

/-- The state once the samples are shown and the thermal limiter and the clocks have acted on them. -/
def State.heatShown (z : State) (celsius : List Int) : State :=
  ((celsius.take 4).zipIdx.foldl (fun (u : State) (p : Int × Nat) => u.limitHeat p.2 p.1)
    (z.wrf ⟨.tltTherm, 0, 0, 0⟩ 23 16 (min 255 (hottest celsius).toNat))).setClocks.showLimits

/-- Samples at TJ_TRIP are counted, and the third in a row ends normal operation. -/
def State.countTrips (t : State) (hot : Int) : State :=
  let v : State := { t with trips := if (t.rdf ⟨.tltTherm, 0, 0, 0⟩ 15 8 : Int) ≤ hot then t.trips + 1 else 0 }
  if 3 ≤ v.trips then (v.powerRecord 6 3 0xFF hot.toNat).minimalPower 6 else v

theorem thermalSample_eq (celsius : List Int) (z : State) : thermalSample celsius z = (z.heatShown celsius).countTrips (hottest celsius) := rfl

theorem countTrips_cool {t : State} {hot : Int} (h : hot < (t.rdf ⟨.tltTherm, 0, 0, 0⟩ 15 8 : Int)) :
    t.countTrips hot = { t with trips := 0 } := by
  simp only [State.countTrips, not_le.mpr h, Nat.reduceLeDiff, if_false]

theorem countTrips_hot {t : State} {hot : Int} (h : (t.rdf ⟨.tltTherm, 0, 0, 0⟩ 15 8 : Int) ≤ hot) :
    let v : State := { t with trips := t.trips + 1 }
    t.countTrips hot = if 3 ≤ v.trips then (v.powerRecord 6 3 0xFF hot.toNat).minimalPower 6 else v := by
  simp only [State.countTrips, h, if_true]

/-- Settles O51: rails, estimates, calibration, the limiters, VDD_CORE, droops, temperature and minimal-power mode. -/
theorem powerCommands : Obligations.PowerCommands := by
  refine ⟨fun rail passed retries s => ?_, fun rail status s => ⟨fun hnone => answer_of_eq (if_pos hnone), fun hsome => answer_of_eq (smbalert_fault hsome)⟩,
    fun domains slices s => ⟨fun hagain => answer_of_eq (every_again _ hagain), fun hnew => answer_of_eq (every_first _ hnew)⟩,
    fun milliamp s => ?_,
    fun s => ⟨fun hagain => answer_of_eq (every_again _ hagain), fun hnew => answer_of_eq (every_first _ hnew)⟩,
    fun s => ?_, fun f s => rfl, fun celsius s => ?_,
    fun cause step s => ⟨fun hmin => answer_of_eq (if_pos hmin), fun hfull => answer_of_eq (if_neg (ne_true_of_eq_false hfull)), rfl⟩⟩
  · refine ⟨fun hok => answer_of_eq (pmbusTransaction_passes hok), fun hfail hbear => ?_, fun hfail hvital hlate => ?_⟩ <;>
      have hrun := pmbusTransaction_fails (s := s) (rail := rail) hfail
    · refine answer_of_eq (hrun.trans (if_neg ?_))
      rw [Bool.and_eq_true, decide_eq_true_eq]
      rintro ⟨hvital, hlate⟩
      rcases hbear with h | h
      · exact ne_true_of_eq_false h hvital
      · exact not_le.mpr h hlate
    · refine answer_of_eq (hrun.trans (if_pos ?_))
      rw [Bool.and_eq_true, decide_eq_true_eq]
      exact ⟨hvital, hlate⟩
  · have hfirst := every_first (s := s) (duty := 192) (period := 10000000) (tilthCalibrate milliamp)
    exact ⟨fun hagain => answer_of_eq (every_again _ (not_not.mp hagain)),
      fun hdue hzero => answer_of_eq ((hfirst hdue).trans ((tilthCalibrate_eq milliamp _).trans (if_pos hzero))),
      fun hdue hnow hreal => answer_of_eq ((hfirst hdue).trans ((tilthCalibrate_eq milliamp _).trans (if_neg (not_or.mpr ⟨hnow, hreal⟩))))⟩
  · refine ⟨fun hlow hback => answer_of_eq ((vcoreSettingChange_low hlow).trans (if_pos hback)),
      fun hlow hstay => answer_of_eq ((vcoreSettingChange_low hlow).trans (if_neg (ne_true_of_eq_false hstay))),
      fun hfull hfast => answer_of_eq (vcoreSettingChange_fast hfull hfast), fun a hfull hslow => ?_⟩
    have hchange := vcoreSettingChange_slow hfull hslow
    refine ⟨fun hno => answer_of_eq (hchange.trans (if_neg ?_)), fun hallowed hlate => answer_of_eq (hchange.trans (if_pos ?_))⟩
    · rcases hno with h | h <;> simp [h]
    · simp [hallowed, hlate]
  · have hfirst := every_first (s := s) (duty := 256) (period := 1000000) (thermalSample celsius)
    exact ⟨fun hagain => answer_of_eq (every_again _ (not_not.mp hagain)),
      fun hdue hcool => answer_of_eq ((hfirst hdue).trans (countTrips_cool hcool)),
      fun hdue hhot hfew => answer_of_eq ((hfirst hdue).trans ((countTrips_hot hhot).trans (if_neg (not_le.mpr hfew)))),
      fun hdue hhot hthree => answer_of_eq ((hfirst hdue).trans ((countTrips_hot hhot).trans (if_pos hthree)))⟩

end

end Sys2Proof.Machine

/-! Resets (R399, R415, R422, R481 to R485), and how a slot comes to its instruction's effect (R97, R107, R362 to R368). -/

namespace Sys2Proof.Machine

/-! ### The boot chain (R422, R481) -/

/-- The state in which a boot ends whose image is missing. -/
def State.recovering (v : State) : State := { v with recovery := true }

/-- The end of the chain: the loader runs, if there is one. -/
def loaderStage (r : Option Image × State) : State :=
  match r with
  | (none, v) => v.recovering
  | (some k, v) => (v.boots 2 4 k).runLoader

/-- The chain from the configuration on. -/
def configStage (r : Option Image × State) : State :=
  match r with
  | (none, v) => v.recovering
  | (some j, v) => loaderStage ((v.boots 5 2 j).applyConfig.bootImage 2)

/-- The chain from the firmware on. -/
def firmwareStage (r : Option Image × State) : State :=
  match r with
  | (none, v) => v.recovering
  | (some i, v) => configStage ((((v.boots 1 1 i).powerUp).selfTest v.almanac.boots).bootImage 5)

section
variable {r : Option Image × State} {i : Image}

theorem loaderStage_none (h : r.1 = none) : loaderStage r = r.2.recovering := by
  obtain ⟨o, v⟩ := r
  cases h
  rfl

theorem loaderStage_some (h : r.1 = some i) : loaderStage r = (r.2.boots 2 4 i).runLoader := by
  obtain ⟨o, v⟩ := r
  cases h
  rfl

theorem configStage_none (h : r.1 = none) : configStage r = r.2.recovering := by
  obtain ⟨o, v⟩ := r
  cases h
  rfl

theorem configStage_some (h : r.1 = some i) : configStage r = loaderStage ((r.2.boots 5 2 i).applyConfig.bootImage 2) := by
  obtain ⟨o, v⟩ := r
  cases h
  rfl

theorem firmwareStage_none (h : r.1 = none) : firmwareStage r = r.2.recovering := by
  obtain ⟨o, v⟩ := r
  cases h
  rfl

theorem firmwareStage_some (h : r.1 = some i) : firmwareStage r =
    configStage ((((r.2.boots 1 1 i).powerUp).selfTest r.2.almanac.boots).bootImage 5) := by
  obtain ⟨o, v⟩ := r
  cases h
  rfl

end

/-- The boot chain is firmware, configuration, loader. -/
theorem bootChain_eq (s : State) : s.bootChain = firmwareStage (s.bootImage 1) := by
  unfold State.bootChain
  generalize s.bootImage 1 = r
  obtain ⟨_ | i, v⟩ := r
  · rfl
  simp only [firmwareStage]
  generalize ((v.boots 1 1 i).powerUp.selfTest v.almanac.boots).bootImage 5 = r
  obtain ⟨_ | j, w⟩ := r
  · rfl
  simp only [configStage]
  generalize (w.boots 5 2 j).applyConfig.bootImage 2 = r
  obtain ⟨_ | k, x⟩ := r <;> rfl

/-- A measurement leaves the Almanac as it is. -/
theorem setMeasurement_almanac (v : State) (i : Nat) (d : BitVec 384) : (v.setMeasurement i d).almanac = v.almanac := by
  unfold State.setMeasurement
  generalize List.range 6 = words
  exact foldl_keeps State.almanac _ (fun _ _ => State.wr_almanac ..) words v

/-- A boot leaves the Almanac as it is. -/
theorem boots_almanac (v : State) (type m : Nat) (i : Image) : (v.boots type m i).almanac = v.almanac := by
  simp only [State.boots, State.extend, setMeasurement_almanac]

/-! ### Warm and cluster reset (R399, R415, R483 to R485) -/

section
variable {s : State}

/-- What a warm reset ends with, once the stores are saved or lost. -/
def State.warmEnd (u : State) (cause : Nat) (saved : Bool) : State :=
  let v := (u.wrf ⟨.clkRstStatus, 0, 0, 0⟩ 0 0 (bitVal saved 0)).count ⟨.clkRstStatus, 0, 0, 0⟩ 63 32 1
  let w : State := { v with resolving := v.openRecords }
  ((((w.wrf ⟨.clkRstStatus, 0, 0, 0⟩ 1 1 (bitVal (!w.resolving.isEmpty) 0)).resetRecord 1 cause saved).restartPorts).applyConfig).runLoader

/-- Every entry of the Sheaf after a warm reset. -/
def State.settled (u : State) : State := (u.sheaf.map (·.1)).foldl (fun v i => v.warmEntry i) u

theorem warm_unsaved (cause : Nat) (h : s.saveArea = none) :
    s.warm cause = State.warmEnd s.warmTables.settled.warmUnits.resetCores.leaveFallow.loseStores cause false := by
  simp only [State.warm, h, Option.isNone_none, Option.isSome_none, if_true]
  rfl

theorem warm_saved (cause : Nat) {a : Nat} (h : s.saveArea = some a) :
    s.warm cause = State.warmEnd (s.saveStores a).warmTables.settled.warmUnits.resetCores.leaveFallow cause true := by
  simp only [State.warm, h, Option.isNone_some, Option.isSome_some, Bool.false_eq_true, if_false]
  rfl

/-- Settles O52: the cold reset by the image that is missing, if any; warm and cluster reset of a device that runs or does not. -/
theorem resetCommands : Obligations.ResetCommands := by
  refine ⟨fun cause s => ?_, fun cause s => ⟨fun hdown => ?_, fun hup => ?_⟩⟩
  · have hcold : exec (.coldReset cause) s = answer (firmwareStage ((s.unpowered.bootStage1.resetRecord 2 cause false).bootImage 1)) :=
      congrArg answer (bootChain_eq _)
    rw [hcold]
    dsimp only
    generalize (s.unpowered.bootStage1.resetRecord 2 cause false).bootImage 1 = firmware
    refine ⟨fun hnone => answer_of_eq (firmwareStage_none hnone), fun i hi => ?_⟩
    rw [firmwareStage_some hi, boots_almanac]
    generalize ((firmware.2.boots 1 1 i).powerUp.selfTest firmware.2.almanac.boots).bootImage 5 = config
    refine ⟨fun hnone => answer_of_eq (configStage_none hnone), fun j hj => ?_⟩
    rw [configStage_some hj]
    generalize (config.2.boots 5 2 j).applyConfig.bootImage 2 = loader
    exact ⟨fun hnone => answer_of_eq (loaderStage_none hnone), fun k hk => answer_of_eq (loaderStage_some hk)⟩
  · exact ⟨answer_of_eq (if_neg (ne_true_of_eq_false hdown)), answer_of_eq (if_neg (ne_true_of_eq_false hdown))⟩
  · exact ⟨fun hnone => answer_of_eq ((if_pos hup).trans (warm_unsaved cause hnone)),
      fun a ha => answer_of_eq ((if_pos hup).trans (warm_saved cause ha)), answer_of_eq (if_pos hup)⟩

end

/-! ### Slots -/

section
variable {s : State} {f : FurrowId} {o : Slot} {op : SlotOp} {p : Program}

/-- An exception of the running program changes nothing but the program's phase. -/
theorem raise_running (hp : s.running f.val = some p) (code slot : Nat) (info : Word) : s.raise f.val code slot info =
    { s with furrows := Table.set s.furrows f.val { s.furrow f.val with
        prog := some { p with phase := .excepting ⟨code, slot, p.pc, info⟩, stallSince := none } } } :=
  modProg_running hp _

/-- A stall of the running program changes nothing but when it began. -/
theorem stall_running (hp : s.running f.val = some p) : s.stall f.val =
    { s with furrows := Table.set s.furrows f.val { s.furrow f.val with
        prog := some { p with stallSince := p.stallSince.or (some s.time) } } } :=
  modProg_running hp _

/-- Settles O54: no program, an illegal encoding, a stall, a failing check, or the effect. -/
theorem slotOutcomes : Obligations.SlotOutcomes := by
  intro f o s raises c op hslot
  have hexec := exec_slot hslot s
  refine ⟨fun hidle => ?_, fun p hp => ⟨fun code hcode => ?_, fun hlegal hpred => ?_⟩⟩
  · exact hexec.trans (answer_of_eq (runSlot_idle hidle))
  · exact hexec.trans (answer_of_eq ((runSlot_illegal hp hcode).trans (raise_running hp ..)))
  · intro x waits fails
    have hready : waits = false → op.waits x s = false ∧ op.room (s.furrow f.val) = true := fun h => by
      obtain ⟨hwaits, hroom⟩ := Bool.or_eq_false_iff.mp h
      exact ⟨hwaits, by simpa using hroom⟩
    refine ⟨fun hwait => ?_, fun e hgo hfail => ?_, fun hgo hfine => ?_⟩
    · exact hexec.trans (answer_of_eq ((runSlot_stall hp hlegal hpred hwait).trans (stall_running hp)))
    · obtain ⟨hwaits, hroom⟩ := hready hgo
      have hraise := runSlot_raise hp hlegal hpred hwaits hroom hfail
      exact ⟨fun hother => hexec.trans (answer_of_eq (hraise.trans ((if_neg hother).trans (raise_running hp ..)))),
        fun hmachine => hexec.trans (answer_of_eq (hraise.trans (if_pos hmachine)))⟩
    · obtain ⟨hwaits, hroom⟩ := hready hgo
      exact hexec.trans (answer_of_eq (runSlot_issues ⟨hp, hpred, hlegal, hwaits, hroom, hfine⟩))

end

end Sys2Proof.Machine
